-- ==== Sys2Proof/Word.lean ====
section
/-! DEFINITION. The word types of the part and a word with its poison bit (02 R36, 04 R122). -/

namespace Sys2Proof

/-- A 32 bit word of scratchpad or of a register (04 Table 2). -/
abbrev Word := BitVec 32

/-- A byte. -/
abbrev Byte := BitVec 8

/-- A value that carries one poison bit (04 R122). -/
structure PV (w : Nat) where
  v : BitVec w
  p : Bool
  deriving DecidableEq, Repr

/-- The unpoisoned value. -/
def PV.ok {w : Nat} (v : BitVec w) : PV w := ⟨v, false⟩

/-- Zero, not poisoned. -/
def PV.zero (w : Nat) : PV w := ⟨0, false⟩

/-- The poisoned zero that a refused or suppressed read returns (03 R70, R71). -/
def PV.bad (w : Nat) : PV w := ⟨0, true⟩

abbrev TileId := Fin 256
abbrev PartId := Fin 4
abbrev PortId := Fin 47
abbrev TenantId := Fin 512
abbrev RegionId := Fin 16

end Sys2Proof
end

