-- ==== Sys2Proof/Syntax.lean ====
section
/-! DEFINITION. The operations of a bundle (04_instruction_set.md), the data a command carries, and the commands: one
constructor of `Instr` for each row of the table of operations and events. -/

namespace Sys2Proof

/-- ALU functions, 04 Table 4. -/
inductive AluFn where
  | add | sub | and | or | xor | shl | shr | sar | mul | mulhu | min | max | minu | maxu | seq | slt | sltu
  deriving DecidableEq, Repr

/-- ALUI functions, 04 Table 4. -/
inductive AluiFn where
  | addi | andi | ori | xori | shli | shri | sari | seqi | slti
  deriving DecidableEq, Repr

/-- The fields of an MC register, 04 Table 8. -/
inductive McField where
  | w | sa | sb | d | rm | sat | stream | pair | dfmt | sch | sca | scpi
  deriving DecidableEq, Repr

/-- Where an MCSET takes its value, 04 R109. -/
inductive McSrc where
  | imm (v : BitVec 20)
  | reg (sa : BitVec 5)
  deriving DecidableEq, Repr

/-- SYS functions, 04 Table 7. -/
inductive SysFn where
  | rdbeat | rdround | rdgtile | rdsteplo | rdstephi | rddrops
  deriving DecidableEq, Repr

/-- Two-operand predicate functions of POP, 04 Table 6. -/
inductive PopFn where
  | pand | por | pxor | pandn
  deriving DecidableEq, Repr

/-- Operations of the SC slot, 04 Table 3. -/
inductive ScOp where
  | nop
  | alu (f : AluFn) (sd sa sb : BitVec 5)
  | alui (f : AluiFn) (sd sa : BitVec 5) (imm : BitVec 14)
  | lui (sd : BitVec 5) (imm : BitVec 20)
  | aseti (ad : BitVec 4) (imm : BitVec 17)
  | aaddi (ad as : BitVec 4) (imm : BitVec 17)
  | aadds (ad as : BitVec 4) (sx : BitVec 5)
  | afroms (ad : BitVec 4) (sx : BitVec 5)
  | atos (as : BitVec 4) (sx : BitVec 5)
  | pop (f : PopFn) (pd pa pb : BitVec 3)
  | pfroms (pd : BitVec 3) (sa sb : BitVec 5)
  | pfirst (pd : BitVec 3) (sa : BitVec 5)
  | ptos (high : Bool) (pa : BitVec 3) (sd : BitVec 5)
  | ld (sd : BitVec 5) (h : BitVec 6) (an : BitVec 4) (pi : Bool) (imm : BitVec 12)
  | st (ss : BitVec 5) (h : BitVec 6) (an : BitVec 4) (pi : Bool) (imm : BitVec 12)
  | mcset (mc : BitVec 3) (field : McField) (src : McSrc)
  | dnset (dn : BitVec 4) (v : BitVec 16)
  | wait (n : BitVec 16)
  | loop (l : BitVec 12) (c : BitVec 16)
  | endOp
  | sys (f : SysFn) (sd : BitVec 5)
  deriving DecidableEq, Repr

/-- TRANS element sizes, 04 Table 10. -/
inductive TransSz where
  | b4 | b2 | b1
  deriving DecidableEq, Repr

/-- Operations of the DM slot, 04 Table 10. `es` is the size code of an element gather or scatter: 4, 8, 16 or 32 B. -/
inductive DmOp where
  | nop
  | copy (hs : BitVec 6) (as : BitVec 4) (hd : BitVec 6) (ad : BitVec 4) (dn : BitVec 4) (pis pid : Bool)
  | fill (hd : BitVec 6) (ad : BitVec 4) (dn : BitVec 4) (ss : BitVec 5) (pid : Bool)
  | trans (hs : BitVec 6) (as : BitVec 4) (hd : BitVec 6) (ad : BitVec 4) (sz : TransSz) (pis pid : Bool)
  | gatherE (hs : BitVec 6) (vi : BitVec 4) (hd : BitVec 6) (ad : BitVec 4) (es : BitVec 2) (p : BitVec 3) (pid : Bool)
  | scatterE (hs : BitVec 6) (as : BitVec 4) (hd : BitVec 6) (vi : BitVec 4) (es : BitVec 2) (p : BitVec 3) (pis : Bool)
  | gatherR (hs : BitVec 6) (vi : BitVec 4) (hd : BitVec 6) (ad : BitVec 4) (dn : BitVec 4) (p : BitVec 3) (pid : Bool)
  | scatterR (hs : BitVec 6) (as : BitVec 4) (hd : BitVec 6) (vi : BitVec 4) (dn : BitVec 4) (p : BitVec 3) (pis : Bool)
  deriving DecidableEq, Repr

/-- Operations of the MX slot, 04 Table 11. `m` and `n` hold the row count less 1. -/
inductive MxOp where
  | nop
  | mxload (plane : Bool) (h : BitVec 6) (an : BitVec 4) (pi : Bool) (mc : BitVec 3)
  | mxstream (plane chk pi : Bool) (m t0 : BitVec 6) (h : BitVec 6) (an : BitVec 4) (mc : BitVec 3)
  | tclr (t0 n : BitVec 6)
  | tload (t0 n : BitVec 6) (h : BitVec 6) (an : BitVec 4) (pi : Bool)
  | tdrain (t0 n : BitVec 6) (h : BitVec 6) (an : BitVec 4) (pi clr : Bool) (mc : BitVec 3)
  deriving DecidableEq, Repr

/-- Rounding modes of VX arithmetic, 04 Table 13. -/
inductive VRm where
  | rne | rtz
  deriving DecidableEq, Repr

/-- Two-operand FP32 arithmetic. -/
inductive VfFn where
  | vadd | vsub | vmul
  deriving DecidableEq, Repr

/-- Lane-wise 32-bit integer operations. -/
inductive ViFn where
  | viadd | visub | vand | vor | vxor | vshl | vshr | vsar | vimin | vimax
  deriving DecidableEq, Repr

/-- VCMP conditions, 04 R116. -/
inductive VCond where
  | feq | flt | fle | fun | ieq | ilt | ult
  deriving DecidableEq, Repr

/-- VCVT conversions, 04 Table 15. -/
inductive VCvt where
  | f32f16 | f32bf16 | f32e4m3 | f32e5m2 | f32i8 | f32i32 | f16f32 | bf16f32 | e4m3f32 | e5m2f32 | i8f32 | i32f32
  deriving DecidableEq, Repr

/-- VTR functions, 04 R118. -/
inductive VFn where
  | sqrt | recip | rsqrt | exp2 | log2 | exp | ln | tanh | sigmoid | sin | cos
  deriving DecidableEq, Repr

/-- Reductions, 03 R85. -/
inductive VRed where
  | vrsum | vrmax | vrmin | vrsumi
  deriving DecidableEq, Repr

/-- Operations of the VX slot, 04 Table 13. -/
inductive VxOp where
  | nop
  | vf (f : VfFn) (vd va vb : BitVec 4) (p : BitVec 3) (rm : VRm)
  | vfma (vd va vb vc : BitVec 4) (p : BitVec 3) (rm : VRm)
  | vbfma (vd va vb vc : BitVec 4) (p : BitVec 3) (rm : VRm)
  | vi (f : ViFn) (vd va vb : BitVec 4) (p : BitVec 3)
  | vsel (vd va vb : BitVec 4) (p : BitVec 3)
  | vcmp (pd : BitVec 3) (va vb : BitVec 4) (p : BitVec 3) (cond : VCond)
  | vbcast (vd : BitVec 4) (p : BitVec 3) (sx : BitVec 5)
  | vtos (va : BitVec 4) (lane : BitVec 6) (sx : BitVec 5)
  | vcvt (vd va : BitVec 4) (p : BitVec 3) (cvt : VCvt) (part : BitVec 2) (mc : BitVec 3)
  | vtr (vd va : BitVec 4) (p : BitVec 3) (fn : VFn)
  | vred (f : VRed) (vd va : BitVec 4) (p : BitVec 3)
  | vperm (vd va : BitVec 4) (p : BitVec 3) (t : BitVec 4)
  | vpermv (vd va vb : BitVec 4) (p : BitVec 3)
  | vptld (t : BitVec 4) (h : BitVec 6) (an : BitVec 4) (pi : Bool) (p : BitVec 3)
  | vld (vd : BitVec 4) (h : BitVec 6) (an : BitVec 4) (pi : Bool) (p : BitVec 3)
  | vst (vs : BitVec 4) (h : BitVec 6) (an : BitVec 4) (pi : Bool) (p : BitVec 3)
  | vdispatch (vd va : BitVec 4) (p : BitVec 3) (sx : BitVec 5)
  | vdclr
  deriving DecidableEq, Repr

/-- One operation for each of the four slots of a bundle, 04 Table 1. -/
structure Bundle where
  sc : ScOp
  dm : DmOp
  mx : MxOp
  vx : VxOp
  deriving DecidableEq, Repr

/-- The bundle that does nothing. -/
def Bundle.empty : Bundle := ⟨.nop, .nop, .nop, .nop⟩


/-! ### Data that commands carry -/

/-- A tile's stream: its code handle, its entry bundle and its bundles of 128 bits, word SC lowest (03 R432, 04 R125). -/
structure Stream where
  tile : Nat
  handle : Nat
  entry : Nat
  bundles : List (BitVec 128)
  deriving DecidableEq, Repr

/-- An entry chip of a job and the request slots it owns (01 R29, R431). -/
structure EntryChip where
  chip : Nat
  base : Nat
  count : Nat
  deriving DecidableEq, Repr

/-- What an image states for a link it uses (06 R177, 07 R216): physical port, the peer it names, its latency and replay
budgets in ns and its allowance in beats. -/
structure LinkBudget where
  port : Nat
  peer : Nat
  lat : Option Nat
  rpl : Option Nat
  allow : Nat
  deriving DecidableEq, Repr

/-- A handle entry of an image: tile, handle and its four words (05 Table 2). -/
structure HandleInit where
  tile : Nat
  handle : Nat
  words : List (BitVec 32)
  deriving DecidableEq, Repr

/-- One entry of a table: logical port, index and the entry (06 Tables 2 and 4). -/
structure TableEntry where
  port : Nat
  index : Nat
  entry : BitVec 128
  deriving DecidableEq, Repr

/-- One chip's section of an image (12 R360). `resultCells` gives, for a result entry of the host run table, the first host-area cell
of its two sets (11 R332). -/
structure Section where
  chip : Nat
  tiles : Nat
  streams : List Stream
  handles : List HandleInit
  wheels : List (Nat × Nat × List (BitVec 32))
  changes : List (Nat × Nat × BitVec 32)
  timetable : List TableEntry
  landing : List TableEntry
  names : List Nat
  leases : List (Nat × Nat)
  links : List LinkBudget
  cellBase : Nat
  cellLimit : Nat
  resultCells : List (Nat × Nat)
  drainNs : Nat
  hostRun : List (Nat × BitVec 128)
  windows : List (Nat × List (BitVec 32))
  deriving DecidableEq, Repr

/-- A district of a job (10 R303): its chips, its spare, the twin of each working chip, and the restorable handles (tile and
handle) of each. -/
structure District where
  number : Nat
  chips : List Nat
  spare : Nat
  twins : List (Nat × Nat)
  restorable : List (Nat × List (Nat × Nat))
  deriving DecidableEq, Repr

/-- A detour set for "the spare replaces chip `lost`": what changes on chip `chip` (10 R303). -/
structure Detour where
  lost : Nat
  chip : Nat
  timetable : List TableEntry
  landing : List TableEntry
  names : List Nat
  leases : List (Nat × Nat)
  deriving DecidableEq, Repr

/-- A Bilyoxo image as the loader reads it (01, 12 R360): the words signed, the hash slot of its signature if it carries
one, and the contents. The layout of the file in bytes is Bilyoxo's. -/
structure Image where
  raw : List Nat
  headerOk : Bool
  badOffset : Nat
  signer : Option Nat
  requirements : List Nat
  tag : Nat
  retainTag : Nat
  roundLen : Nat
  elastic : Bool
  onDemand : Bool
  fast : Nat
  slow : Nat
  governor : Nat
  deputy : Nat
  seed : Nat
  chips : List Nat
  entryChips : List EntryChip
  abortNs : Nat
  districts : List District
  sections : List Section
  detours : List Detour
  detourBytes : Nat
  deriving DecidableEq, Repr

/-- What the loader's DMA brings (12 R360, step 1). -/
inductive ImageRead where
  | dmaError
  | notImage (off : Nat)
  | image (i : Image)
  deriving DecidableEq, Repr

/-- A fuse authorisation (12 Table 5). -/
structure FuseAuth where
  serial : BitVec 64
  nonce : BitVec 64
  key : Nat
  pairs : List (Nat × BitVec 32)
  deriving DecidableEq, Repr

/-- A Clerk image (12 R350): the KEYHASH slot its key's hash equals, if any, its SVN and its words. -/
structure ClerkImage where
  key : Option Nat
  svn : Nat
  raw : List Nat
  deriving DecidableEq, Repr

/-- Who asks for a mailbox command: the host, or the management controller at an SMBus address (12 R346, R349; 14 R394). -/
inductive Requester where
  | host
  | smbus (addr : BitVec 7)
  deriving DecidableEq, Repr

/-- What starts a reset (12 Table 8): the mailbox, or the device itself. -/
inductive ResetBy where
  | mailbox | device
  | smbus (addr : BitVec 7)
  deriving DecidableEq, Repr

/-- The scope of a reset (12 Table 8). -/
inductive Scope where
  | tile (t : Nat)
  | region (r : Nat)
  | part (p : Nat)
  deriving DecidableEq, Repr

/-- The registers of 07 R230 that change only in DOWN, TRAIN or FAILED. -/
inductive LinkReg where
  | vc (v : Fin 4)
  | lossNs
  | elasticMax
  deriving DecidableEq, Repr

/-- Why the governor is asked for a gear (08 R250, R253 to R255; 14 R408, R409). -/
inductive GearCause where
  | headroom | emergency | power | host (gear : BitVec 3)
  deriving DecidableEq, Repr

/-- A structure that serves more than one partition and is no lease map (10 R289). -/
inductive SharedPart where
  | sds | cellRange | datapath | hif | timebase
  deriving DecidableEq, Repr

/-- What an upset strikes (05 R148, 10 R289, R290, 11 R331): a scratchpad word, a word of a control structure, a copy of a bank
pointer, or a shared structure. -/
inductive Upset where
  | word (t : TileId) (unit : BitVec 19) (word : BitVec 5) (mask : BitVec 40)
  | timetable (port : PortId) (bank : Bool) (index : BitVec 15) (word : BitVec 2) (mask : BitVec 39)
  | landing (port : PortId) (bank : Bool) (index : BitVec 15) (word : BitVec 2) (mask : BitVec 39)
  | names (p : PartId) (bank : Bool) (port : PortId) (mask : BitVec 39)
  | lease (port : PortId) (phase : BitVec 6) (mask : BitVec 39)
  | handle (t : TileId) (h : BitVec 6) (word : BitVec 2) (mask : BitVec 39)
  | wheel (t : TileId) (word : BitVec 5) (mask : BitVec 39)
  | sequencer (t : TileId) (word : BitVec 2) (mask : BitVec 39)
  | pointer (tenant : TenantId)
  | shared (s : SharedPart)
  deriving DecidableEq, Repr

/-- A page of registers: a page of BAR0 (13 R371) or the registers of a virtual function (11 R319). -/
inductive PageRef where
  | bar0 (n : BitVec 12)
  | vf (tenant : TenantId)
  | pfMsix
  deriving DecidableEq, Repr

/-- What a write of registers carries: a word, some bytes of one, or two words, the lower address first (13 R372). -/
inductive RegData where
  | word (v : BitVec 32)
  | bytes (enables : BitVec 4) (v : BitVec 32)
  | pair (lo hi : BitVec 32)
  deriving DecidableEq, Repr

/-- What a read of a register asks for: the word, `count` bytes of it from byte `first` on, or it and the word after it (13 R372). -/
inductive ReadSize where
  | word
  | bytes (first count : Fin 4)
  | pair
  deriving DecidableEq, Repr

/-- What a board writes into the flash: the board configuration record, or a Clerk copy, which is none where what stands there is no image
that verifies (14 R396; 15 R416). -/
inductive FlashWrite where
  | record (bytes : List (BitVec 8))
  | copy (b : Bool) (img : Option ClerkImage)
  deriving DecidableEq, Repr

/-- A PLDM write: PWR_LIMIT in W, or TJ_WARN in 1/16 °C (14 R408, R409). -/
inductive PldmWrite where
  | pwrLimit (w : BitVec 16)
  | tjWarn (t : BitVec 16)
  deriving DecidableEq, Repr

/-- Causes of a power-fail shutdown, with the reading in mV of an input that has fallen (14 R403, Table 9). -/
inductive PowerCause where
  | input48 (mv : BitVec 16)
  | aux (mv : BitVec 16)
  | overcurrent | rail | thermal
  deriving DecidableEq, Repr

/-- How bring-up goes on (12 R356, Table 6): a stage begins, with the regions that stage 0x3 calibrated, or it ends (R357). -/
inductive Bringup where
  | clerkCheck | clerkStart | knownAnswer
  | clear (cal : BitVec 16)
  | ready (cal : BitVec 16)
  | noClerk | rail | topGear | spare
  deriving DecidableEq, Repr

/-- The commands the block takes: one constructor for each row of the table of operations and events. -/
inductive Instr where
  | roundStart (p : PartId)
  | heldRoundPosition (p : PartId)
  | gearChangeEffect
  | beatPllPrelock
  | bundleIssue (t : TileId)
  | alu (t : TileId) (f : AluFn) (sd sa sb : BitVec 5)
  | alui (t : TileId) (f : AluiFn) (sd sa : BitVec 5) (imm : BitVec 14)
  | lui (t : TileId) (sd : BitVec 5) (imm : BitVec 20)
  | aseti (t : TileId) (ad : BitVec 4) (imm : BitVec 17)
  | aaddi (t : TileId) (ad as : BitVec 4) (imm : BitVec 17)
  | aadds (t : TileId) (ad as : BitVec 4) (sx : BitVec 5)
  | afroms (t : TileId) (ad : BitVec 4) (sx : BitVec 5)
  | atos (t : TileId) (as : BitVec 4) (sx : BitVec 5)
  | pand (t : TileId) (pd pa pb : BitVec 3)
  | por (t : TileId) (pd pa pb : BitVec 3)
  | pxor (t : TileId) (pd pa pb : BitVec 3)
  | pandn (t : TileId) (pd pa pb : BitVec 3)
  | pfroms (t : TileId) (pd : BitVec 3) (sa sb : BitVec 5)
  | pfirst (t : TileId) (pd : BitVec 3) (sa : BitVec 5)
  | ptoslo (t : TileId) (pa : BitVec 3) (sd : BitVec 5)
  | ptoshi (t : TileId) (pa : BitVec 3) (sd : BitVec 5)
  | ld (t : TileId) (sd : BitVec 5) (h : BitVec 6) (an : BitVec 4) (pi : Bool) (imm : BitVec 12)
  | scalarLoadWriteback (t : TileId)
  | st (t : TileId) (ss : BitVec 5) (h : BitVec 6) (an : BitVec 4) (pi : Bool) (imm : BitVec 12)
  | mcset (t : TileId) (mc : BitVec 3) (field : McField) (src : McSrc)
  | dnset (t : TileId) (dn : BitVec 4) (v : BitVec 16)
  | wait (t : TileId) (n : BitVec 16)
  | waitExpiry (t : TileId)
  | loop (t : TileId) (l : BitVec 12) (c : BitVec 16)
  | loopBackEdge (t : TileId)
  | endOp (t : TileId)
  | rdbeat (t : TileId) (sd : BitVec 5)
  | rdround (t : TileId) (sd : BitVec 5)
  | rdgtile (t : TileId) (sd : BitVec 5)
  | rdsteplo (t : TileId) (sd : BitVec 5)
  | rdstephi (t : TileId) (sd : BitVec 5)
  | rddrops (t : TileId) (sd : BitVec 5)
  | copy (t : TileId) (hs : BitVec 6) (as : BitVec 4) (hd : BitVec 6) (ad : BitVec 4) (dn : BitVec 4) (pis pid : Bool)
  | fill (t : TileId) (hd : BitVec 6) (ad : BitVec 4) (dn : BitVec 4) (ss : BitVec 5) (pid : Bool)
  | trans (t : TileId) (hs : BitVec 6) (as : BitVec 4) (hd : BitVec 6) (ad : BitVec 4) (sz : TransSz) (pis pid : Bool)
  | gatherE (t : TileId) (hs : BitVec 6) (vi : BitVec 4) (hd : BitVec 6) (ad : BitVec 4) (es : BitVec 2) (p : BitVec 3) (pid : Bool)
  | scatterE (t : TileId) (hs : BitVec 6) (as : BitVec 4) (hd : BitVec 6) (vi : BitVec 4) (es : BitVec 2) (p : BitVec 3) (pis : Bool)
  | gatherR (t : TileId) (hs : BitVec 6) (vi : BitVec 4) (hd : BitVec 6) (ad : BitVec 4) (dn : BitVec 4) (p : BitVec 3) (pid : Bool)
  | scatterR (t : TileId) (hs : BitVec 6) (as : BitVec 4) (hd : BitVec 6) (vi : BitVec 4) (dn : BitVec 4) (p : BitVec 3) (pis : Bool)
  | mxload (t : TileId) (plane : Bool) (h : BitVec 6) (an : BitVec 4) (pi : Bool) (mc : BitVec 3)
  | weightPlaneComplete (t : TileId)
  | mxstream (t : TileId) (plane chk pi : Bool) (m t0 : BitVec 6) (h : BitVec 6) (an : BitVec 4) (mc : BitVec 3)
  | tallyRowContribution (t : TileId)
  | tclr (t : TileId) (t0 n : BitVec 6)
  | tload (t : TileId) (t0 n : BitVec 6) (h : BitVec 6) (an : BitVec 4) (pi : Bool)
  | tdrain (t : TileId) (t0 n : BitVec 6) (h : BitVec 6) (an : BitVec 4) (pi clr : Bool) (mc : BitVec 3)
  | vadd (t : TileId) (vd va vb : BitVec 4) (p : BitVec 3) (rm : VRm)
  | vsub (t : TileId) (vd va vb : BitVec 4) (p : BitVec 3) (rm : VRm)
  | vmul (t : TileId) (vd va vb : BitVec 4) (p : BitVec 3) (rm : VRm)
  | vfma (t : TileId) (vd va vb vc : BitVec 4) (p : BitVec 3) (rm : VRm)
  | vbfma (t : TileId) (vd va vb vc : BitVec 4) (p : BitVec 3) (rm : VRm)
  | viadd (t : TileId) (vd va vb : BitVec 4) (p : BitVec 3)
  | visub (t : TileId) (vd va vb : BitVec 4) (p : BitVec 3)
  | vand (t : TileId) (vd va vb : BitVec 4) (p : BitVec 3)
  | vor (t : TileId) (vd va vb : BitVec 4) (p : BitVec 3)
  | vxor (t : TileId) (vd va vb : BitVec 4) (p : BitVec 3)
  | vshl (t : TileId) (vd va vb : BitVec 4) (p : BitVec 3)
  | vshr (t : TileId) (vd va vb : BitVec 4) (p : BitVec 3)
  | vsar (t : TileId) (vd va vb : BitVec 4) (p : BitVec 3)
  | vimin (t : TileId) (vd va vb : BitVec 4) (p : BitVec 3)
  | vimax (t : TileId) (vd va vb : BitVec 4) (p : BitVec 3)
  | vsel (t : TileId) (vd va vb : BitVec 4) (p : BitVec 3)
  | vcmp (t : TileId) (pd : BitVec 3) (va vb : BitVec 4) (p : BitVec 3) (cond : VCond)
  | vbcast (t : TileId) (vd : BitVec 4) (p : BitVec 3) (sx : BitVec 5)
  | vtos (t : TileId) (va : BitVec 4) (lane : BitVec 6) (sx : BitVec 5)
  | vcvt (t : TileId) (vd va : BitVec 4) (p : BitVec 3) (cvt : VCvt) (part : BitVec 2) (mc : BitVec 3)
  | vtr (t : TileId) (vd va : BitVec 4) (p : BitVec 3) (fn : VFn)
  | vrsum (t : TileId) (vd va : BitVec 4) (p : BitVec 3)
  | vrmax (t : TileId) (vd va : BitVec 4) (p : BitVec 3)
  | vrmin (t : TileId) (vd va : BitVec 4) (p : BitVec 3)
  | vrsumi (t : TileId) (vd va : BitVec 4) (p : BitVec 3)
  | vperm (t : TileId) (vd va : BitVec 4) (p : BitVec 3) (tb : BitVec 4)
  | vpermv (t : TileId) (vd va vb : BitVec 4) (p : BitVec 3)
  | vptld (t : TileId) (tb : BitVec 4) (h : BitVec 6) (an : BitVec 4) (pi : Bool) (p : BitVec 3)
  | vld (t : TileId) (vd : BitVec 4) (h : BitVec 6) (an : BitVec 4) (pi : Bool) (p : BitVec 3)
  | vst (t : TileId) (vs : BitVec 4) (h : BitVec 6) (an : BitVec 4) (pi : Bool) (p : BitVec 3)
  | vdispatch (t : TileId) (vd va : BitVec 4) (p : BitVec 3) (sx : BitVec 5)
  | vdclr (t : TileId)
  | vectorResultWrite (t : TileId)
  | slotWheelChange (t : TileId) (sl : Fin 16)
  | scrubberPortUse (t : TileId)
  | clearPortUse (t : TileId)
  | tenantClearComplete (t : TileId) (tenant : TenantId)
  | timetableDeparture (p : PartId) (l : PortId) (e : BitVec 15) (i : BitVec 12)
  | getrDeparture (p : PartId) (l : PortId) (e : BitVec 15) (i : BitVec 12)
  | fwdDeparture (p : PartId) (l : PortId) (e : BitVec 15) (i : BitVec 12)
  | scheduledParcelReceive (port : PortId) (bytes : List Byte) (bad : Bool)
  | landingDueBeat (p : PartId) (l : PortId) (e : BitVec 15) (i : BitVec 12)
  | generationDrainEnd (p : PartId)
  | replayDeparture (port : PortId) (slot : BitVec 24)
  | ack (port : PortId) (sym : BitVec 128) (bad : Bool)
  | nak (port : PortId) (sym : BitVec 128) (bad : Bool)
  | credit (port : PortId) (sym : BitVec 128) (bad : Bool)
  | train (port : PortId) (sym : BitVec 128) (bad : Bool)
  | cal (port : PortId) (sym : BitVec 128) (bad : Bool)
  | hold (port : PortId) (sym : BitVec 128) (bad : Bool)
  | exr (port : PortId) (sym : BitVec 128) (bad : Bool)
  | ackTimerExpiry (port : PortId) (unsch : Bool)
  | creditRefreshExpiry (port : PortId)
  | receivePoolFree (port : PortId)
  | unscheduledPacketSend (port : PortId) (gap : BitVec 12)
  | unscheduledPacketReceive (port : PortId) (bytes : List Byte) (bad : Bool)
  | write (port : PortId)
  | writec (port : PortId)
  | read (port : PortId)
  | rdata (port : PortId)
  | cpl (port : PortId)
  | msg (port : PortId)
  | windowAccessComplete
  | signalDetect (port : PortId)
  | trainComplete (port : PortId)
  | trainAttemptTimeout (port : PortId)
  | calibrationComplete (port : PortId)
  | signalLoss (port : PortId)
  | fecLockLoss (port : PortId)
  | linkSilenceTimeout (port : PortId)
  | laserInputLoss (tp : Fin 8) (lane : Fin 8)
  | holdGraceExpiry (port : PortId)
  | linkEnable (port : PortId) (en : Bool)
  | retrain (port : PortId)
  | holdreq (port : PortId)
  | linkControlWrite (port : PortId) (r : LinkReg) (v : BitVec 32)
  | txffeWrite (port : PortId) (lane : Fin 8) (v : BitVec 32)
  | exerciserModeWrite (port : PortId) (v : BitVec 32)
  | exerciserParcelSend (port : PortId) (slot : BitVec 24)
  | timeExchangeSend (port : PortId) (dom : Bool)
  | exchange (port : PortId) (sym : BitVec 128) (bad : Bool)
  | announce (port : PortId) (sym : BitVec 128) (bad : Bool)
  | parentTimeout (dom : Bool)
  | masterSilentTimeout (dom : Bool)
  | tmbMasterWrite (v : BitVec 32)
  | useA
  | ntSet (hi : BitVec 32)
  | postmarkRead (size : ReadSize)
  | localTimeBaseRead (size : ReadSize)
  | hostTimeRead (size : ReadSize)
  | ptmDialog (host : BitVec 64)
  | gearArm (next : BitVec 3)
  | gearCancel (next : BitVec 3)
  | gearRequest (p : PartId) (c : GearCause)
  | gearPoll (gear : BitVec 3) (slacks : List (BitVec 16))
  | gearAnnounce (chip : BitVec 16) (gear : BitVec 3) (tb : BitVec 64)
  | gearAck (chip : BitVec 16)
  | gearAckResendExpiry
  | gearAckFailExpiry
  | deputyTakeover (p : PartId)
  | rmonMeasure (r : RegionId) (slack : BitVec 16)
  | droopWarn (r : RegionId) (mv : BitVec 12)
  | droopEmergency (r : RegionId) (mv : BitVec 12)
  | clockSkewExceeded (r : RegionId) (ps : BitVec 16)
  | frankNtMatch
  | frankRoundMatch
  | frankPinFall
  | now
  | release
  | frankLatch
  | frankPinRelease
  | incidentRecord
  | abortNotice (port : PortId) (p : PartId) (cause : BitVec 8) (epoch : BitVec 16) (origin : BitVec 16) (round : BitVec 32) (seq : BitVec 32)
  | resumeNotice (port : PortId) (p : PartId) (epoch : BitVec 16) (origin : BitVec 16) (start : BitVec 64)
  | rollcallNotice (port : PortId) (p : PartId) (epoch : BitVec 16) (origin : BitVec 16) (district : BitVec 16)
  | rollcallWindowExpiry (p : PartId)
  | replayStart (p : PartId)
  | replayCompare (p : PartId)
  | failoverSectionLoaded (p : PartId) (lost : BitVec 16)
  | detourSetInstall (p : PartId) (lost : BitVec 16)
  | restorableStreamComplete (p : PartId) (lost : BitVec 16)
  | failoverDigestCompare (p : PartId) (lost : BitVec 16)
  | ingestWindowWrite (t : TenantId) (off : BitVec 16) (bytes : List Byte)
  | descriptorAccept (t : TenantId) (i : BitVec 6)
  | payloadFetchFailure (t : TenantId) (i : BitVec 6)
  | ingestDistributionRun (e : BitVec 15)
  | resultRun (e : BitVec 15)
  | resultFrameWrite (t : TenantId)
  | resultRingTailWrite (t : TenantId) (v : BitVec 32)
  | resultRingEnable (t : TenantId)
  | interruptHoldoffExpiry (t : TenantId) (vec : BitVec 3)
  | msixUnmask (fn : Fin 513) (vec : BitVec 6)
  | vfFlr (t : TenantId)
  | teardownComplete (t : TenantId)
  | pcieConventionalReset (down : Bool)
  | igqConfigWrite (v : BitVec 32)
  | igqQuotaWrite (v : BitVec 32)
  | leaseWrite (hi : Bool) (v : BitVec 32)
  | hostAreaWrite (limit : Bool) (v : BitVec 32)
  | letterbookEnable (v : BitVec 32)
  | replayEnable (p : PartId)
  | getStatus (src : Requester)
  | ledgerDump
  | retireLog
  | partitionSet
  | imageLoad (img : ImageRead)
  | imageUnload
  | launch
  | stop
  | tileReset (t : TileId) (src : ResetBy)
  | regionReset (r : RegionId) (src : ResetBy)
  | partitionReset (p : PartId) (src : ResetBy)
  | chipReset (src : ResetBy)
  | fieldScan (results : List (BitVec 20))
  | fuseRead
  | fuseProgram (auth : Option FuseAuth)
  | flashUpdate (img : Option ClerkImage)
  | clerkWatchdogExpiry
  | resetNAssert
  | resetNRelease (pos : BitVec 7) (board : List FlashWrite) (cut : Option FlashWrite)
  | boardConfigRead
  | bringupComplete (r : Bringup)
  | regionBringupRestart (r : RegionId) (tile : Fin 17)
  | getVersion
  | getCapabilities
  | negotiateAlgorithms
  | getDigests
  | getCertificate (slot : BitVec 3) (off : BitVec 16) (len : BitVec 16)
  | challenge (slot : BitVec 3) (nonce : BitVec 256)
  | getMeasurements (index : BitVec 8)
  | pldmSensorRead (addr : BitVec 7) (id : BitVec 8)
  | pwrLimit (addr : BitVec 7) (w : PldmWrite)
  | powerAverageExpiry (w : BitVec 16)
  | thermalWarning (r : RegionId) (temp : BitVec 16)
  | thermalTrip (id : BitVec 6) (temp : BitVec 16)
  | powerFailShutdown (c : PowerCause)
  | auxPowerOn (mv : BitVec 16)
  | mainRailsStart (since : BitVec 64) (mv : BitVec 16)
  | pwrGoodRise
  | regulatorSettle (r : RegionId)
  | topologyAnnounceSend
  | topologyAnnounceReceive (port : PortId) (bytes : List Byte)
  | topologyOriginExpiry (origin : BitVec 16)
  | routeTableUpdate
  | urtDataWrite (v : BitVec 32)
  | tableWindowRead
  | tableWindowWrite
  | swapArm (p : PartId)
  | aliasEntryWrite (p : PartId) (bank : Bool) (w : Fin 12) (v : BitVec 32)
  | sdsWrite (hi : Bool) (v : BitVec 32)
  | pigeonholeRangeWrite (p : PartId) (limit : Bool) (v : BitVec 32)
  | rwtEntryWrite (i : Fin 32) (w : Fin 8) (v : BitVec 32)
  | handleEntryWrite (t : TileId) (off : BitVec 12) (v : BitVec 32)
  | inspectorModeWrite (t : TileId) (m : Fin 4) (v : BitVec 32)
  | counterWrite (pg : PageRef) (off : BitVec 12) (v : BitVec 32)
  | errorInjectionArm (n : BitVec 12) (v : BitVec 32)
  | expertKeyWrite (n : BitVec 12) (v : BitVec 32)
  | rackWrite (v : BitVec 32)
  | prtStepRead (p : PartId) (size : ReadSize)
  | prtRoundRead (p : PartId) (size : ReadSize)
  | registerWrite (pg : PageRef) (off : BitVec 16) (d : RegData)
  | codewordReceive (port : PortId) (rx : Vector (BitVec 10) 544)
  | pcieLinkUp (width : BitVec 4) (rate : BitVec 4)
  | vfEnable (en : Bool) (n : BitVec 16)
  | frankMatchArm (v : BitVec 32)
  | thermalWarningClear
  | auxPowerOff
  | resetComplete (sc : Scope)
  | clerkRestartComplete
  | letterbookHeadAdvance
  | mailboxUnknownOp (smbus : Option (BitVec 7 × BitVec 8))
  | mailboxGoIgnored
  | jtagTapClock (tms : Bool) (tdi : Bool) (trst : Bool)
  | storedBitUpset (u : Upset)
  deriving DecidableEq, Repr

end Sys2Proof
end

