-- ==== Sys2Proof/Decode.lean ====
section
/-! DEFINITION. The words of the four slots of a bundle (04_instruction_set.md, Tables 1 to 15): a decoder total on any
word, refusing with the REASON code of 04 Table 17, and an encoder from the same tables. No row of the table of
operations and events has bits of its own, so `decodeTableWord` spells no command. -/

namespace Sys2Proof

/-- What a slot word decodes to: an operation, or an illegal encoding with its REASON code (04 Table 17). -/
inductive Dec (α : Type) where
  | ok (a : α)
  | ill (reason : Nat)
  deriving DecidableEq, Repr

/-- A decoded operation, unless a field holds a reserved value (REASON 0x1), a field that must be 0 is not (0x2) or the
row range fails (0x4); the lowest REASON is named (04 R128). -/
def Dec.chk {α : Type} (reserved nonzero range : Bool) (a : α) : Dec α :=
  if reserved then .ill 1 else if nonzero then .ill 2 else if range then .ill 4 else .ok a

/-- The `len` bits of `w` from bit `lo` up. -/
abbrev fld (w : Word) (lo len : Nat) : BitVec len := w.extractLsb' lo len

/-- Bit `i` of `w`. -/
abbrev bit (w : Word) (i : Nat) : Bool := w.getLsbD i

/-! ### Code points -/

def AluFn.code : AluFn → BitVec 6
  | .add => 0x00 | .sub => 0x01 | .and => 0x02 | .or => 0x03 | .xor => 0x04 | .shl => 0x05 | .shr => 0x06 | .sar => 0x07
  | .mul => 0x08 | .mulhu => 0x09 | .min => 0x0A | .max => 0x0B | .minu => 0x0C | .maxu => 0x0D | .seq => 0x0E
  | .slt => 0x0F | .sltu => 0x10

def AluFn.ofCode (c : BitVec 6) : Option AluFn :=
  if c = 0x00 then some .add else if c = 0x01 then some .sub else if c = 0x02 then some .and else
  if c = 0x03 then some .or else if c = 0x04 then some .xor else if c = 0x05 then some .shl else
  if c = 0x06 then some .shr else if c = 0x07 then some .sar else if c = 0x08 then some .mul else
  if c = 0x09 then some .mulhu else if c = 0x0A then some .min else if c = 0x0B then some .max else
  if c = 0x0C then some .minu else if c = 0x0D then some .maxu else if c = 0x0E then some .seq else
  if c = 0x0F then some .slt else if c = 0x10 then some .sltu else none

def AluiFn.code : AluiFn → BitVec 4
  | .addi => 0x0 | .andi => 0x1 | .ori => 0x2 | .xori => 0x3 | .shli => 0x4 | .shri => 0x5 | .sari => 0x6 | .seqi => 0x7
  | .slti => 0x8

def AluiFn.ofCode (c : BitVec 4) : Option AluiFn :=
  if c = 0x0 then some .addi else if c = 0x1 then some .andi else if c = 0x2 then some .ori else
  if c = 0x3 then some .xori else if c = 0x4 then some .shli else if c = 0x5 then some .shri else
  if c = 0x6 then some .sari else if c = 0x7 then some .seqi else if c = 0x8 then some .slti else none

/-- The shifts of ALUI, whose IMM14[13:5] must be 0 (04 R103). -/
def AluiFn.isShift : AluiFn → Bool
  | .shli => true | .shri => true | .sari => true
  | .addi => false | .andi => false | .ori => false | .xori => false | .seqi => false | .slti => false

def McField.code : McField → BitVec 4
  | .w => 0x0 | .sa => 0x1 | .sb => 0x2 | .d => 0x3 | .rm => 0x4 | .sat => 0x5 | .stream => 0x6 | .pair => 0x7
  | .dfmt => 0x8 | .sch => 0x9 | .sca => 0xA | .scpi => 0xB

def McField.ofCode (c : BitVec 4) : Option McField :=
  if c = 0x0 then some .w else if c = 0x1 then some .sa else if c = 0x2 then some .sb else
  if c = 0x3 then some .d else if c = 0x4 then some .rm else if c = 0x5 then some .sat else
  if c = 0x6 then some .stream else if c = 0x7 then some .pair else if c = 0x8 then some .dfmt else
  if c = 0x9 then some .sch else if c = 0xA then some .sca else if c = 0xB then some .scpi else none

/-- Lowest bit, width, sign and "S allowed" of an MC field, 04 Table 8. -/
def McField.lo : McField → Nat
  | .w => 0 | .sa => 10 | .sb => 18 | .pair => 26 | .dfmt => 30 | .stream => 34 | .sat => 42 | .rm => 43 | .d => 45
  | .scpi => 53 | .sca => 54 | .sch => 58

def McField.width : McField → Nat
  | .w => 10 | .sa => 8 | .sb => 8 | .pair => 4 | .dfmt => 4 | .stream => 8 | .sat => 1 | .rm => 2 | .d => 8
  | .scpi => 1 | .sca => 4 | .sch => 6

def McField.signed : McField → Bool
  | .w => true | .sa => true | .sb => true | .d => true
  | .pair => false | .dfmt => false | .stream => false | .sat => false | .rm => false | .scpi => false | .sca => false
  | .sch => false

def McField.sAllowed : McField → Bool
  | .w => true | .sa => true | .sb => true | .d => true | .stream => true
  | .pair => false | .dfmt => false | .sat => false | .rm => false | .scpi => false | .sca => false | .sch => false

/-- A value of an MCSET immediate that 04 Table 8 marks illegal. -/
def mcImmReserved (f : McField) (v : BitVec 20) : Bool :=
  match f with
  | .rm => v.toNat % 4 == 3
  | .pair => decide (8 < v.toNat % 16)
  | .dfmt => decide (8 < v.toNat % 16)
  | .w => false | .sa => false | .sb => false | .d => false | .stream => false | .sat => false | .scpi => false
  | .sca => false | .sch => false

/-- The bits of IMM20 above the field that are neither sign extension nor 0 as they must be (04 R109). -/
def mcImmHigh (f : McField) (v : BitVec 20) : Bool :=
  if f.signed then ((v.truncate f.width).signExtend 20 != v) else ((v.truncate f.width).zeroExtend 20 != v)

def SysFn.code : SysFn → BitVec 4
  | .rdbeat => 0 | .rdround => 1 | .rdgtile => 2 | .rdsteplo => 3 | .rdstephi => 4 | .rddrops => 5

def SysFn.ofCode (c : BitVec 4) : Option SysFn :=
  if c = 0 then some .rdbeat else if c = 1 then some .rdround else if c = 2 then some .rdgtile else
  if c = 3 then some .rdsteplo else if c = 4 then some .rdstephi else if c = 5 then some .rddrops else none

def PopFn.code : PopFn → BitVec 3
  | .pand => 0 | .por => 1 | .pxor => 2 | .pandn => 3

def VCond.code : VCond → BitVec 3
  | .feq => 0 | .flt => 1 | .fle => 2 | .fun => 3 | .ieq => 4 | .ilt => 5 | .ult => 6

def VCond.ofCode (c : BitVec 3) : Option VCond :=
  if c = 0 then some .feq else if c = 1 then some .flt else if c = 2 then some .fle else
  if c = 3 then some .fun else if c = 4 then some .ieq else if c = 5 then some .ilt else
  if c = 6 then some .ult else none

def VCvt.code : VCvt → BitVec 4
  | .f32f16 => 0x0 | .f32bf16 => 0x1 | .f32e4m3 => 0x2 | .f32e5m2 => 0x3 | .f32i8 => 0x4 | .f32i32 => 0x5
  | .f16f32 => 0x8 | .bf16f32 => 0x9 | .e4m3f32 => 0xA | .e5m2f32 => 0xB | .i8f32 => 0xC | .i32f32 => 0xD

def VCvt.ofCode (c : BitVec 4) : Option VCvt :=
  if c = 0x0 then some .f32f16 else if c = 0x1 then some .f32bf16 else if c = 0x2 then some .f32e4m3 else
  if c = 0x3 then some .f32e5m2 else if c = 0x4 then some .f32i8 else if c = 0x5 then some .f32i32 else
  if c = 0x8 then some .f16f32 else if c = 0x9 then some .bf16f32 else if c = 0xA then some .e4m3f32 else
  if c = 0xB then some .e5m2f32 else if c = 0xC then some .i8f32 else if c = 0xD then some .i32f32 else none

/-- The largest PART of a conversion (04 R117). -/
def VCvt.maxPart : VCvt → Nat
  | .f32i32 => 0 | .i32f32 => 0
  | .f32f16 => 1 | .f32bf16 => 1 | .f16f32 => 1 | .bf16f32 => 1
  | .f32e4m3 => 3 | .f32e5m2 => 3 | .f32i8 => 3 | .e4m3f32 => 3 | .e5m2f32 => 3 | .i8f32 => 3

def VFn.code : VFn → BitVec 4
  | .sqrt => 0x0 | .recip => 0x1 | .rsqrt => 0x2 | .exp2 => 0x3 | .log2 => 0x4 | .exp => 0x5 | .ln => 0x6 | .tanh => 0x7
  | .sigmoid => 0x8 | .sin => 0x9 | .cos => 0xA

def VFn.ofCode (c : BitVec 4) : Option VFn :=
  if c = 0x0 then some .sqrt else if c = 0x1 then some .recip else if c = 0x2 then some .rsqrt else
  if c = 0x3 then some .exp2 else if c = 0x4 then some .log2 else if c = 0x5 then some .exp else
  if c = 0x6 then some .ln else if c = 0x7 then some .tanh else if c = 0x8 then some .sigmoid else
  if c = 0x9 then some .sin else if c = 0xA then some .cos else none

def TransSz.code : TransSz → BitVec 2
  | .b4 => 0 | .b2 => 1 | .b1 => 2

def VRm.code : VRm → BitVec 2
  | .rne => 0 | .rtz => 1

def VRm.ofCode (c : BitVec 2) : Option VRm :=
  if c = 0 then some .rne else if c = 1 then some .rtz else none

def VfFn.code : VfFn → BitVec 6
  | .vadd => 0x01 | .vsub => 0x02 | .vmul => 0x03

def ViFn.code : ViFn → BitVec 6
  | .viadd => 0x08 | .visub => 0x09 | .vand => 0x0A | .vor => 0x0B | .vxor => 0x0C | .vshl => 0x0D | .vshr => 0x0E
  | .vsar => 0x0F | .vimin => 0x10 | .vimax => 0x11

def VRed.code : VRed → BitVec 6
  | .vrsum => 0x20 | .vrmax => 0x21 | .vrmin => 0x22 | .vrsumi => 0x23

/-! ### Decoders -/

/-- A decoded function code, or a reserved value. -/
def Dec.ofCode {α β : Type} (o : Option α) (nonzero : Bool) (f : α → β) : Dec β :=
  match o with
  | none => .ill 1
  | some a => if nonzero then .ill 2 else .ok (f a)

/-- MCSET, 04 R109. -/
def decodeMcset (w : Word) : Dec ScOp :=
  match McField.ofCode (fld w 21 4) with
  | none => .ill 1
  | some f =>
    if bit w 20 then
      .chk (!f.sAllowed) (fld w 0 15 != 0) false (.mcset (fld w 25 3) f (.reg (fld w 15 5)))
    else
      .chk (mcImmReserved f (fld w 0 20)) (mcImmHigh f (fld w 0 20)) false (.mcset (fld w 25 3) f (.imm (fld w 0 20)))

/-- AOP, 04 Table 5. -/
def decodeAop (w : Word) : Dec ScOp :=
  let fn := fld w 25 3
  if fn = 0 then .chk false (fld w 17 4 != 0) false (.aseti (fld w 21 4) (fld w 0 17))
  else if fn = 1 then .ok (.aaddi (fld w 21 4) (fld w 17 4) (fld w 0 17))
  else if fn = 2 then .chk false (fld w 0 12 != 0) false (.aadds (fld w 21 4) (fld w 17 4) (fld w 12 5))
  else if fn = 3 then .chk false (fld w 0 12 != 0 || fld w 17 4 != 0) false (.afroms (fld w 21 4) (fld w 12 5))
  else if fn = 4 then .chk false (fld w 0 12 != 0 || fld w 21 4 != 0) false (.atos (fld w 17 4) (fld w 12 5))
  else .ill 1

/-- POP, 04 Table 6. -/
def decodePop (w : Word) : Dec ScOp :=
  let fn := fld w 25 3
  let z := fld w 0 6 != 0
  let pd := fld w 22 3
  let pa := fld w 19 3
  let pb := fld w 16 3
  let sa := fld w 11 5
  let sb := fld w 6 5
  let z2 := z || sa != 0 || sb != 0
  if fn = 0 then .chk false z2 false (.pop .pand pd pa pb)
  else if fn = 1 then .chk false z2 false (.pop .por pd pa pb)
  else if fn = 2 then .chk false z2 false (.pop .pxor pd pa pb)
  else if fn = 3 then .chk false z2 false (.pop .pandn pd pa pb)
  else if fn = 4 then .chk false (z || pa != 0 || pb != 0) false (.pfroms pd sa sb)
  else if fn = 5 then .chk false (z || pa != 0 || pb != 0 || sb != 0) false (.pfirst pd sa)
  else if fn = 6 then .chk false (z || pd != 0 || pb != 0 || sb != 0) false (.ptos false pa sa)
  else .chk false (z || pd != 0 || pb != 0 || sb != 0) false (.ptos true pa sa)

/-- The SC slot, 04 Table 3. -/
def decodeSc (w : Word) : Dec ScOp :=
  let op := fld w 28 4
  if w = 0 then .ok .nop
  else if op = 0x0 then .ill 2
  else if op = 0x1 then .ofCode (AluFn.ofCode (fld w 22 6)) (fld w 0 7 != 0)
    (fun f => .alu f (fld w 17 5) (fld w 12 5) (fld w 7 5))
  else if op = 0x2 then
    match AluiFn.ofCode (fld w 24 4) with
    | none => .ill 1
    | some f => .chk false (f.isShift && fld w 5 9 != 0) false (.alui f (fld w 19 5) (fld w 14 5) (fld w 0 14))
  else if op = 0x3 then .chk false (fld w 20 3 != 0) false (.lui (fld w 23 5) (fld w 0 20))
  else if op = 0x4 then decodeAop w
  else if op = 0x5 then decodePop w
  else if op = 0x6 then .ok (.ld (fld w 23 5) (fld w 17 6) (fld w 13 4) (bit w 12) (fld w 0 12))
  else if op = 0x7 then .ok (.st (fld w 23 5) (fld w 17 6) (fld w 13 4) (bit w 12) (fld w 0 12))
  else if op = 0x8 then decodeMcset w
  else if op = 0x9 then .chk false (fld w 16 8 != 0) false (.dnset (fld w 24 4) (fld w 0 16))
  else if op = 0xA then .chk false (fld w 16 12 != 0) false (.wait (fld w 0 16))
  else if op = 0xB then .ok (.loop (fld w 16 12) (fld w 0 16))
  else if op = 0xC then .chk false (fld w 0 28 != 0) false .endOp
  else if op = 0xD then .ofCode (SysFn.ofCode (fld w 24 4)) (fld w 0 19 != 0) (fun f => .sys f (fld w 19 5))
  else .ill 1

/-- The DM slot, 04 Table 10. -/
def decodeDm (w : Word) : Dec DmOp :=
  let op := fld w 28 4
  let z2 := fld w 0 2 != 0
  if w = 0 then .ok .nop
  else if op = 0x0 then .ill 2
  else if op = 0x1 then
    .chk false z2 false (.copy (fld w 22 6) (fld w 18 4) (fld w 12 6) (fld w 8 4) (fld w 4 4) (bit w 3) (bit w 2))
  else if op = 0x2 then
    .chk false (fld w 0 8 != 0) false (.fill (fld w 22 6) (fld w 18 4) (fld w 14 4) (fld w 9 5) (bit w 8))
  else if op = 0x3 then
    let sz := fld w 6 2
    .chk (sz == 3) (z2 || fld w 4 2 != 0) false
      (.trans (fld w 22 6) (fld w 18 4) (fld w 12 6) (fld w 8 4)
        (if sz = 0 then .b4 else if sz = 1 then .b2 else .b1) (bit w 3) (bit w 2))
  else if op = 0x4 then
    .chk false z2 false (.gatherE (fld w 22 6) (fld w 18 4) (fld w 12 6) (fld w 8 4) (fld w 6 2) (fld w 3 3) (bit w 2))
  else if op = 0x5 then
    .chk false z2 false (.scatterE (fld w 22 6) (fld w 18 4) (fld w 12 6) (fld w 8 4) (fld w 6 2) (fld w 3 3) (bit w 2))
  else if op = 0x6 then
    .ok (.gatherR (fld w 22 6) (fld w 18 4) (fld w 12 6) (fld w 8 4) (fld w 4 4) (fld w 1 3) (bit w 0))
  else if op = 0x7 then
    .ok (.scatterR (fld w 22 6) (fld w 18 4) (fld w 12 6) (fld w 8 4) (fld w 4 4) (fld w 1 3) (bit w 0))
  else .ill 1

/-- t0 plus its row count exceeds 64 (04 R113); `n` holds the row count less 1. -/
def rowsBeyond (t0 n : BitVec 6) : Bool := decide (64 < t0.toNat + n.toNat + 1)

/-- The MX slot, 04 Table 11. -/
def decodeMx (w : Word) : Dec MxOp :=
  let op := fld w 28 4
  if w = 0 then .ok .nop
  else if op = 0x0 then .ill 2
  else if op = 0x1 then
    .chk false (fld w 0 13 != 0) false (.mxload (bit w 27) (fld w 21 6) (fld w 17 4) (bit w 16) (fld w 13 3))
  else if op = 0x2 then
    .chk false false (rowsBeyond (fld w 13 6) (fld w 19 6))
      (.mxstream (bit w 27) (bit w 26) (bit w 25) (fld w 19 6) (fld w 13 6) (fld w 7 6) (fld w 3 4) (fld w 0 3))
  else if op = 0x3 then
    .chk false (fld w 0 16 != 0) (rowsBeyond (fld w 22 6) (fld w 16 6)) (.tclr (fld w 22 6) (fld w 16 6))
  else if op = 0x4 then
    .chk false (fld w 0 5 != 0) (rowsBeyond (fld w 22 6) (fld w 16 6))
      (.tload (fld w 22 6) (fld w 16 6) (fld w 10 6) (fld w 6 4) (bit w 5))
  else if op = 0x5 then
    .chk false (bit w 0) (rowsBeyond (fld w 22 6) (fld w 16 6))
      (.tdrain (fld w 22 6) (fld w 16 6) (fld w 10 6) (fld w 6 4) (bit w 5) (bit w 4) (fld w 1 3))
  else .ill 1

/-- The integer operations of 04 Table 13. -/
def ViFn.ofCode (c : BitVec 6) : Option ViFn :=
  if c = 0x08 then some .viadd else if c = 0x09 then some .visub else if c = 0x0A then some .vand else
  if c = 0x0B then some .vor else if c = 0x0C then some .vxor else if c = 0x0D then some .vshl else
  if c = 0x0E then some .vshr else if c = 0x0F then some .vsar else if c = 0x10 then some .vimin else
  if c = 0x11 then some .vimax else none

/-- VADD to VBFMA, 04 Table 13. -/
def decodeVf (w : Word) (op : BitVec 6) : Dec VxOp :=
  let vd := fld w 22 4
  let va := fld w 18 4
  let vb := fld w 14 4
  let vc := fld w 10 4
  let p := fld w 7 3
  let z := fld w 0 5 != 0
  match VRm.ofCode (fld w 5 2) with
  | none => .ill 1
  | some rm =>
    if op = 0x01 then .chk false (z || vc != 0) false (.vf .vadd vd va vb p rm)
    else if op = 0x02 then .chk false (z || vc != 0) false (.vf .vsub vd va vb p rm)
    else if op = 0x03 then .chk false (z || vc != 0) false (.vf .vmul vd va vb p rm)
    else if op = 0x04 then .chk false z false (.vfma vd va vb vc p rm)
    else .chk false z false (.vbfma vd va vb vc p rm)

/-- The VX slot, 04 Tables 12 and 13. A VCVT whose PART is not legal is recorded with REASON 0x1 (DEDUCED, log entry 38). -/
def decodeVx (w : Word) : Dec VxOp :=
  let op := fld w 26 6
  let vd := fld w 22 4
  let va := fld w 18 4
  let vb := fld w 14 4
  let vc := fld w 10 4
  let p := fld w 7 3
  let x := fld w 0 7
  let memZ := bit w 10 || x != 0
  if w = 0 then .ok .nop
  else if op = 0x00 then .ill 2
  else if op.toNat ≤ 0x05 then decodeVf w op
  else if 0x08 ≤ op.toNat ∧ op.toNat ≤ 0x11 then
    .ofCode (ViFn.ofCode op) (vc != 0 || x != 0) (fun f => .vi f vd va vb p)
  else if op = 0x12 then .chk false (vc != 0 || x != 0) false (.vsel vd va vb p)
  else if op = 0x13 then
    .ofCode (VCond.ofCode (fld w 4 3)) (bit w 25 || vc != 0 || fld w 0 4 != 0)
      (fun c => .vcmp (fld w 22 3) va vb p c)
  else if op = 0x14 then
    .chk false (va != 0 || vb != 0 || vc != 0 || fld w 0 2 != 0) false (.vbcast vd p (fld w 2 5))
  else if op = 0x15 then
    .chk false (vd != 0 || p != 0 || fld w 10 2 != 0 || fld w 0 2 != 0) false (.vtos va (fld w 12 6) (fld w 2 5))
  else if op = 0x18 then
    match VCvt.ofCode (fld w 3 4) with
    | none => .ill 1
    | some c =>
      .chk (decide (c.maxPart < (fld w 1 2).toNat)) (vb != 0 || bit w 13 || bit w 0) false
        (.vcvt vd va p c (fld w 1 2) (fld w 10 3))
  else if op = 0x1C then
    .ofCode (VFn.ofCode (fld w 3 4)) (vb != 0 || vc != 0 || fld w 0 3 != 0) (fun f => .vtr vd va p f)
  else if op = 0x20 then .chk false (vb != 0 || vc != 0 || x != 0) false (.vred .vrsum vd va p)
  else if op = 0x21 then .chk false (vb != 0 || vc != 0 || x != 0) false (.vred .vrmax vd va p)
  else if op = 0x22 then .chk false (vb != 0 || vc != 0 || x != 0) false (.vred .vrmin vd va p)
  else if op = 0x23 then .chk false (vb != 0 || vc != 0 || x != 0) false (.vred .vrsumi vd va p)
  else if op = 0x24 then .chk false (vb != 0 || vc != 0 || fld w 0 3 != 0) false (.vperm vd va p (fld w 3 4))
  else if op = 0x25 then .chk false (vc != 0 || x != 0) false (.vpermv vd va vb p)
  else if op = 0x26 then .chk false memZ false (.vptld vd (fld w 16 6) (fld w 12 4) (bit w 11) p)
  else if op = 0x28 then .chk false memZ false (.vld vd (fld w 16 6) (fld w 12 4) (bit w 11) p)
  else if op = 0x29 then .chk false memZ false (.vst vd (fld w 16 6) (fld w 12 4) (bit w 11) p)
  else if op = 0x2A then .chk false (vb != 0 || vc != 0 || fld w 0 2 != 0) false (.vdispatch vd va p (fld w 2 5))
  else if op = 0x2B then .chk false (fld w 0 26 != 0) false .vdclr
  else .ill 1

/-! ### Encoders -/

/-- One bit. -/
abbrev b1 (b : Bool) : BitVec 1 := BitVec.ofBool b

/-- The word of an SC operation, 04 Tables 3 to 8. -/
def encodeSc : ScOp → Word
  | .nop => 0
  | .alu f sd sa sb => 0x1#4 ++ f.code ++ sd ++ sa ++ sb ++ 0#7
  | .alui f sd sa imm => 0x2#4 ++ f.code ++ sd ++ sa ++ imm
  | .lui sd imm => 0x3#4 ++ sd ++ 0#3 ++ imm
  | .aseti ad imm => 0x4#4 ++ 0#3 ++ ad ++ 0#4 ++ imm
  | .aaddi ad as imm => 0x4#4 ++ 1#3 ++ ad ++ as ++ imm
  | .aadds ad as sx => 0x4#4 ++ 2#3 ++ ad ++ as ++ sx ++ 0#12
  | .afroms ad sx => 0x4#4 ++ 3#3 ++ ad ++ 0#4 ++ sx ++ 0#12
  | .atos as sx => 0x4#4 ++ 4#3 ++ 0#4 ++ as ++ sx ++ 0#12
  | .pop f pd pa pb => 0x5#4 ++ f.code ++ pd ++ pa ++ pb ++ 0#16
  | .pfroms pd sa sb => 0x5#4 ++ 4#3 ++ pd ++ 0#6 ++ sa ++ sb ++ 0#6
  | .pfirst pd sa => 0x5#4 ++ 5#3 ++ pd ++ 0#6 ++ sa ++ 0#11
  | .ptos high pa sd => 0x5#4 ++ 3#2 ++ b1 high ++ 0#3 ++ pa ++ 0#3 ++ sd ++ 0#11
  | .ld sd h an pi imm => 0x6#4 ++ sd ++ h ++ an ++ b1 pi ++ imm
  | .st ss h an pi imm => 0x7#4 ++ ss ++ h ++ an ++ b1 pi ++ imm
  | .mcset mc f (.imm v) => 0x8#4 ++ mc ++ f.code ++ 0#1 ++ v
  | .mcset mc f (.reg sa) => 0x8#4 ++ mc ++ f.code ++ 1#1 ++ sa ++ 0#15
  | .dnset dn v => 0x9#4 ++ dn ++ 0#8 ++ v
  | .wait n => 0xA#4 ++ 0#12 ++ n
  | .loop l c => 0xB#4 ++ l ++ c
  | .endOp => 0xC#4 ++ 0#28
  | .sys f sd => 0xD#4 ++ f.code ++ sd ++ 0#19

/-- The word of a DM operation, 04 Table 10. -/
def encodeDm : DmOp → Word
  | .nop => 0
  | .copy hs as hd ad dn pis pid => 0x1#4 ++ hs ++ as ++ hd ++ ad ++ dn ++ b1 pis ++ b1 pid ++ 0#2
  | .fill hd ad dn ss pid => 0x2#4 ++ hd ++ ad ++ dn ++ ss ++ b1 pid ++ 0#8
  | .trans hs as hd ad sz pis pid => 0x3#4 ++ hs ++ as ++ hd ++ ad ++ sz.code ++ 0#2 ++ b1 pis ++ b1 pid ++ 0#2
  | .gatherE hs vi hd ad es p pid => 0x4#4 ++ hs ++ vi ++ hd ++ ad ++ es ++ p ++ b1 pid ++ 0#2
  | .scatterE hs as hd vi es p pis => 0x5#4 ++ hs ++ as ++ hd ++ vi ++ es ++ p ++ b1 pis ++ 0#2
  | .gatherR hs vi hd ad dn p pid => 0x6#4 ++ hs ++ vi ++ hd ++ ad ++ dn ++ p ++ b1 pid
  | .scatterR hs as hd vi dn p pis => 0x7#4 ++ hs ++ as ++ hd ++ vi ++ dn ++ p ++ b1 pis

/-- The word of an MX operation, 04 Table 11. -/
def encodeMx : MxOp → Word
  | .nop => 0
  | .mxload plane h an pi mc => 0x1#4 ++ b1 plane ++ h ++ an ++ b1 pi ++ mc ++ 0#13
  | .mxstream plane chk pi m t0 h an mc => 0x2#4 ++ b1 plane ++ b1 chk ++ b1 pi ++ m ++ t0 ++ h ++ an ++ mc
  | .tclr t0 n => 0x3#4 ++ t0 ++ n ++ 0#16
  | .tload t0 n h an pi => 0x4#4 ++ t0 ++ n ++ h ++ an ++ b1 pi ++ 0#5
  | .tdrain t0 n h an pi clr mc => 0x5#4 ++ t0 ++ n ++ h ++ an ++ b1 pi ++ b1 clr ++ mc ++ 0#1

/-- The word of a VX operation, 04 Tables 12 and 13. -/
def encodeVx : VxOp → Word
  | .nop => 0
  | .vf f vd va vb p rm => f.code ++ vd ++ va ++ vb ++ 0#4 ++ p ++ rm.code ++ 0#5
  | .vfma vd va vb vc p rm => 0x04#6 ++ vd ++ va ++ vb ++ vc ++ p ++ rm.code ++ 0#5
  | .vbfma vd va vb vc p rm => 0x05#6 ++ vd ++ va ++ vb ++ vc ++ p ++ rm.code ++ 0#5
  | .vi f vd va vb p => f.code ++ vd ++ va ++ vb ++ 0#4 ++ p ++ 0#7
  | .vsel vd va vb p => 0x12#6 ++ vd ++ va ++ vb ++ 0#4 ++ p ++ 0#7
  | .vcmp pd va vb p cond => 0x13#6 ++ 0#1 ++ pd ++ va ++ vb ++ 0#4 ++ p ++ cond.code ++ 0#4
  | .vbcast vd p sx => 0x14#6 ++ vd ++ 0#12 ++ p ++ sx ++ 0#2
  | .vtos va lane sx => 0x15#6 ++ 0#4 ++ va ++ lane ++ 0#5 ++ sx ++ 0#2
  | .vcvt vd va p cvt part mc => 0x18#6 ++ vd ++ va ++ 0#4 ++ 0#1 ++ mc ++ p ++ cvt.code ++ part ++ 0#1
  | .vtr vd va p fn => 0x1C#6 ++ vd ++ va ++ 0#8 ++ p ++ fn.code ++ 0#3
  | .vred f vd va p => f.code ++ vd ++ va ++ 0#8 ++ p ++ 0#7
  | .vperm vd va p t => 0x24#6 ++ vd ++ va ++ 0#8 ++ p ++ t ++ 0#3
  | .vpermv vd va vb p => 0x25#6 ++ vd ++ va ++ vb ++ 0#4 ++ p ++ 0#7
  | .vptld t h an pi p => 0x26#6 ++ t ++ h ++ an ++ b1 pi ++ 0#1 ++ p ++ 0#7
  | .vld vd h an pi p => 0x28#6 ++ vd ++ h ++ an ++ b1 pi ++ 0#1 ++ p ++ 0#7
  | .vst vs h an pi p => 0x29#6 ++ vs ++ h ++ an ++ b1 pi ++ 0#1 ++ p ++ 0#7
  | .vdispatch vd va p sx => 0x2A#6 ++ vd ++ va ++ 0#8 ++ p ++ sx ++ 0#2
  | .vdclr => 0x2B#6 ++ 0#26

/-- The four words of a bundle in code order: SC, DM, MX, VX (04 Table 1). -/
def encodeBundle (b : Bundle) : List Word := [encodeSc b.sc, encodeDm b.dm, encodeMx b.mx, encodeVx b.vx]

/-- The command a word of the table spells: no row of the table has bits, so none. -/
def decodeTableWord (_nbits _w : Nat) : Option Instr := none

end Sys2Proof
end

