-- ==== Sys2Proof/Config.lean ====
section
/-! DEFINITION. What the spec leaves open: constants with no body. A statement about one holds whatever its value. -/

namespace Sys2Proof.Config

/-- A free value: the n-th one the machine has asked for (DESIGN CHOICE, log entry 2). -/
opaque free : Nat → Nat

/-- The calibration start voltage of a gear in the CAL fuse words of a region, in steps of 5 mV above 0.60 V: the places of the fields in
the words the spec does not give (DESIGN CHOICE, log entry 4). -/
opaque calStart : BitVec 32 → BitVec 32 → BitVec 32 → Nat → Nat

/-- The result bits of the transcendental unit for function code `fn` and operand `x`, where 02 R61 gives only a bound
(DEDUCED, log entry 14). -/
opaque vtr : BitVec 4 → BitVec 32 → BitVec 32

/-- A bit of the SSPRQ pattern of IEEE 802.3, which the spec names and does not give (07 Table 9; PRESUMED, log entry 96). -/
opaque ssprq : Nat → Bool

/-- The digest (SHA-384 or SHA-256 as the spec names them) of a list of words; the spec names no result (PRESUMED, log entry 15). -/
opaque digest : List Nat → Nat

/-- The digest of the boot ROM (12 Table 3; PRESUMED, log entry 15). -/
opaque bootRomDigest : Nat

/-- The place that a refused alias bank is reported under: 12 Table 7 asks for an ICH_TBL_ADDR value, and an alias bank has none
(DESIGN CHOICE, log entry 95). -/
opaque aliasDetail : List Nat → Nat

/-- The first byte of the certificate chain of slot 0 (PRESUMED, log entry 15). -/
opaque certificateHead : BitVec 8

/-- The chain's other bytes (PRESUMED, log entry 15). -/
opaque certificateRest : List (BitVec 8)

/-- The certificate chain of slot 0, stored in flash at manufacture (12 R352); no other slot holds one. -/
def certificate (slot : Nat) : List Nat :=
  if slot = 0 then (certificateHead :: certificateRest).map (fun b => b.toNat) else []

end Sys2Proof.Config
end

