-- ==== Sys2Proof/Machine/Map.lean ====
section
/-! DEFINITION. Sparse storage: a list of key and value pairs in one canonical form, keys strictly rising and no entry
equal to what an unlisted key reads as. -/

namespace Sys2Proof.Machine

/-- Sparse storage by key. -/
abbrev Map (α : Type) := List (Nat × α)

/-- The value stored under `k`, or `d` when none is listed. -/
def Map.get {α : Type} : Map α → Nat → α → α
  | [], _, d => d
  | (k', v) :: m, k, d => if k' = k then v else Map.get m k d

/-- List `v` under `k`, in its place. -/
def Map.insert {α : Type} : Map α → Nat → α → Map α
  | [], k, v => [(k, v)]
  | (k', v') :: m, k, v =>
    if k < k' then (k, v) :: (k', v') :: m
    else if k' = k then (k, v) :: m
    else (k', v') :: Map.insert m k v

/-- No entry under `k`. -/
def Map.erase {α : Type} (m : Map α) (k : Nat) : Map α := m.filter (fun e => e.1 != k)

/-- Write `v` under `k`, where unlisted keys read as `d`. -/
def Map.put {α : Type} [DecidableEq α] (m : Map α) (k : Nat) (v d : α) : Map α :=
  if v = d then m.erase k else m.insert k v

/-- Change the value under `k`. -/
def Map.modify {α : Type} [DecidableEq α] (m : Map α) (k : Nat) (d : α) (f : α → α) : Map α :=
  m.put k (f (m.get k d)) d

/-- Write several entries, the first first. -/
def Map.putAll {α : Type} [DecidableEq α] (m : Map α) (d : α) (l : List (Nat × α)) : Map α :=
  l.foldl (fun m e => m.put e.1 e.2 d) m

/-- Keys strictly rise from above `lo`, and no value is the unlisted one. -/
def Map.wfFrom {α : Type} [DecidableEq α] (d : α) : Map α → Nat → Bool
  | [], _ => true
  | (k, v) :: m, lo => decide (lo ≤ k) && decide (v ≠ d) && Map.wfFrom d m (k + 1)

/-- The canonical form. -/
def Map.wf {α : Type} [DecidableEq α] (m : Map α) (d : α) : Bool := m.wfFrom d 0

end Sys2Proof.Machine
end

