-- ==== Sys2Proof/Machine/Num.lean ====
section
/-! DEFINITION. Number formats, rounding, Tally values, the stamp generator, the word code and the CRC
(02_arithmetic.md, 05 R147, 07 R209). Every rounding goes through one function over exact dyadic values. -/

namespace Sys2Proof.Machine

/-! ### Flags of TIL_ARITH_FLAGS (02 Table 7), as bits of one byte -/

abbrev AFlags := BitVec 8

def fINX : AFlags := 0x01
def fUNF : AFlags := 0x02
def fOVF : AFlags := 0x04
def fINV : AFlags := 0x08
def fPOISON : AFlags := 0x10
def fGRIDLOSS : AFlags := 0x20
def fNANIN : AFlags := 0x40
def fSPILL : AFlags := 0x80

/-- `f` when `b` holds. -/
def flagIf (b : Bool) (f : AFlags) : AFlags := if b then f else 0

/-! ### Floating-point formats -/

/-- A floating-point format of 02 Table 1; `e4m3` marks the one without infinity (02 R36). -/
structure Fmt where
  ew : Nat
  fw : Nat
  bias : Nat
  e4m3 : Bool
  deriving DecidableEq, Repr

def fp32 : Fmt := ⟨8, 23, 127, false⟩
def fp16 : Fmt := ⟨5, 10, 15, false⟩
def bf16 : Fmt := ⟨8, 7, 127, false⟩
def e4m3 : Fmt := ⟨4, 3, 7, true⟩
def e5m2 : Fmt := ⟨5, 2, 15, false⟩

/-- The value a pattern stands for: `fin neg m e` is (−1)^neg × m × 2^e (02 R35, R36). -/
inductive FVal where
  | nan (signalling : Bool)
  | inf (neg : Bool)
  | fin (neg : Bool) (m : Nat) (e : Int)
  deriving DecidableEq, Repr

/-- The value of bits `x` in format `f` (02 R35, R36). -/
def Fmt.decode (f : Fmt) (x : Nat) : FVal :=
  let neg := (x >>> (f.ew + f.fw)) % 2 == 1
  let ex := (x >>> f.fw) % 2 ^ f.ew
  let fr := x % 2 ^ f.fw
  if f.e4m3 && ex == 2 ^ f.ew - 1 && fr == 2 ^ f.fw - 1 then .nan false
  else if !f.e4m3 && ex == 2 ^ f.ew - 1 then
    if fr = 0 then .inf neg else .nan (decide (fr < 2 ^ (f.fw - 1)))
  else if ex = 0 then .fin neg fr (1 - (f.bias : Int) - f.fw)
  else .fin neg (2 ^ f.fw + fr) ((ex : Int) - f.bias - f.fw)

/-- The sign bit of a format, set when `neg`. -/
def Fmt.sign (f : Fmt) (neg : Bool) : Nat := if neg then 2 ^ (f.ew + f.fw) else 0

/-- The canonical NaN (02 Table 2). -/
def Fmt.canonNaN (f : Fmt) : Nat :=
  if f.e4m3 then 0x7F else (2 ^ f.ew - 1) * 2 ^ f.fw + 2 ^ (f.fw - 1)

/-- The largest finite value of a sign (02 Table 1). -/
def Fmt.largest (f : Fmt) (neg : Bool) : Nat :=
  f.sign neg + (if f.e4m3 then 0x7E else (2 ^ f.ew - 1) * 2 ^ f.fw - 1)

/-- Infinity of a sign; 0x7F in E4M3, which has none (02 R53). -/
def Fmt.infinity (f : Fmt) (neg : Bool) : Nat :=
  if f.e4m3 then 0x7F else f.sign neg + (2 ^ f.ew - 1) * 2 ^ f.fw

/-! ### Rounding (02 R50) -/

/-- A rounding mode; SR carries the 16-bit threshold u of the element's stamp. -/
inductive Rnd where
  | rne
  | rtz
  | sr (u : Nat)
  deriving DecidableEq, Repr

/-- Whether an inexact value moves to the grid value of larger magnitude; the fraction is r / 2^sh (02 R50). -/
def Rnd.up (rm : Rnd) (odd : Bool) (r sh : Nat) : Bool :=
  match rm with
  | .rne => decide (2 ^ sh < 2 * r) || (2 * r == 2 ^ sh && odd)
  | .rtz => false
  | .sr u => decide (u < r * 65536 / 2 ^ sh)

/-- Round m × 2^e to a whole number of steps of 2^g; the second result says whether it was inexact. -/
def gridRound (rm : Rnd) (m : Nat) (e g : Int) : Nat × Bool :=
  if g ≤ e then (m <<< (e - g).toNat, false)
  else
    let sh := (g - e).toNat
    let a := m >>> sh
    let r := m % 2 ^ sh
    if r = 0 then (a, false) else (if rm.up (a % 2 == 1) r sh then a + 1 else a, true)

/-- floor(log2 (m × 2^e)) for m > 0. -/
def expOf (m : Nat) (e : Int) : Int := (Nat.log2 m : Int) + e

/-- Round an exact value into a format, with the flags of 02 Table 4 and the overflow value of R53. -/
def Fmt.round (f : Fmt) (rm : Rnd) (sat neg : Bool) (m : Nat) (e : Int) : Nat × AFlags :=
  if m = 0 then (f.sign neg, 0)
  else
    let emin : Int := 1 - (f.bias : Int)
    let l := expOf m e
    let g := max (l - f.fw) (emin - f.fw)
    let (c, inx) := gridRound rm m e g
    let carry := c == 2 ^ (f.fw + 1)
    let c' := if carry then 2 ^ f.fw else c
    let ex : Int := if c' < 2 ^ f.fw then 0 else (if carry then g + 1 else g) + f.fw + f.bias
    let ovfl := if f.e4m3 then decide (15 < ex) || (ex == 15 && c' == 2 ^ f.fw + 7) else decide ((2 ^ f.ew : Int) - 1 ≤ ex)
    if ovfl then
      ((if sat || rm == .rtz then f.largest neg else f.infinity neg), fOVF ||| fINX)
    else
      (f.sign neg + ex.toNat * 2 ^ f.fw + (if c' < 2 ^ f.fw then c' else c' - 2 ^ f.fw),
        flagIf inx fINX ||| flagIf (inx && decide (l < emin)) fUNF)

/-- A conversion into a floating-point format, 02 Table 4. -/
def Fmt.convert (f : Fmt) (rm : Rnd) (sat : Bool) (v : FVal) : Nat × AFlags :=
  match v with
  | .nan _ => (f.canonNaN, fINV)
  | .inf neg =>
    if sat then (f.largest neg, 0) else (f.infinity neg, flagIf f.e4m3 fINV)
  | .fin neg m e => f.round rm sat neg m e

/-- A conversion into a signed integer of `w` bits, 02 Table 4 and R53. -/
def intConvert (w : Nat) (rm : Rnd) (v : FVal) : Int × AFlags :=
  let hi : Int := 2 ^ (w - 1) - 1
  let lo : Int := -(2 ^ (w - 1))
  match v with
  | .nan _ => (0, fINV)
  | .inf neg => (if neg then lo else hi, fINV)
  | .fin neg m e =>
    let (c, inx) := gridRound rm m e 0
    let i : Int := if neg then -(c : Int) else c
    if i < lo then (lo, fOVF ||| fINX) else if hi < i then (hi, fOVF ||| fINX) else (i, flagIf inx fINX)

/-! ### Vector arithmetic (02 R60, 04 Table 16) -/

def FVal.isNaN : FVal → Bool
  | .nan _ => true
  | .inf _ => false
  | .fin _ _ _ => false

def FVal.isSNaN : FVal → Bool
  | .nan s => s
  | .inf _ => false
  | .fin _ _ _ => false

def FVal.isInf : FVal → Bool
  | .inf _ => true
  | .nan _ => false
  | .fin _ _ _ => false

def FVal.isZero : FVal → Bool
  | .fin _ m _ => m == 0
  | .nan _ => false
  | .inf _ => false

def FVal.neg : FVal → FVal
  | .nan s => .nan s
  | .inf n => .inf (!n)
  | .fin n m e => .fin (!n) m e

/-- The signed integer of a finite value. -/
def signed (neg : Bool) (m : Nat) : Int := if neg then -(m : Int) else m

/-- The exact product of two values that are not NaN and not zero times infinity. -/
def FVal.mul (a b : FVal) : FVal :=
  match a, b with
  | .fin n m e, .fin n' m' e' => .fin (n ^^ n') (m * m') (e + e')
  | .inf n, .fin n' _ _ => .inf (n ^^ n')
  | .fin n _ _, .inf n' => .inf (n ^^ n')
  | .inf n, .inf n' => .inf (n ^^ n')
  | .nan s, _ => .nan s
  | _, .nan s => .nan s

/-- Round a sum of two values neither of which is NaN, by 04 Table 16. -/
def Fmt.addExact (f : Fmt) (rm : Rnd) (a b : FVal) : Nat × AFlags :=
  match a, b with
  | .inf n, .inf n' => if n == n' then (f.infinity n, 0) else (f.canonNaN, fINV)
  | .inf n, _ => (f.infinity n, 0)
  | _, .inf n => (f.infinity n, 0)
  | .fin n m e, .fin n' m' e' =>
    let lo := min e e'
    let s := signed n (m <<< (e - lo).toNat) + signed n' (m' <<< (e' - lo).toNat)
    if s = 0 then (f.sign (m == 0 && m' == 0 && n && n'), 0)
    else f.round rm false (decide (s < 0)) s.natAbs lo
  | _, _ => (f.canonNaN, 0)

/-- a + b. -/
def Fmt.add (f : Fmt) (rm : Rnd) (a b : FVal) : Nat × AFlags :=
  if a.isNaN || b.isNaN then (f.canonNaN, flagIf (a.isSNaN || b.isSNaN) fINV) else f.addExact rm a b

/-- a × b. -/
def Fmt.mul (f : Fmt) (rm : Rnd) (a b : FVal) : Nat × AFlags :=
  if a.isNaN || b.isNaN then (f.canonNaN, flagIf (a.isSNaN || b.isSNaN) fINV)
  else if (a.isZero && b.isInf) || (a.isInf && b.isZero) then (f.canonNaN, fINV)
  else match FVal.mul a b with
    | .inf n => (f.infinity n, 0)
    | .fin n m e => f.round rm false n m e
    | .nan _ => (f.canonNaN, 0)

/-- a × b + c, rounded once. -/
def Fmt.fma (f : Fmt) (rm : Rnd) (a b c : FVal) : Nat × AFlags :=
  if (a.isZero && b.isInf) || (a.isInf && b.isZero) then (f.canonNaN, fINV)
  else if a.isNaN || b.isNaN || c.isNaN then
    (f.canonNaN, flagIf (a.isSNaN || b.isSNaN || c.isSNaN) fINV)
  else f.addExact rm (FVal.mul a b) c

/-- Compare two values that are not NaN: a < b, with −0 equal to +0. -/
def FVal.lt (a b : FVal) : Bool :=
  match a, b with
  | .inf n, .inf n' => n && !n'
  | .inf n, .fin _ _ _ => n
  | .fin _ _ _, .inf n' => !n'
  | .fin n m e, .fin n' m' e' =>
    let lo := min e e'
    decide (signed n (m <<< (e - lo).toNat) < signed n' (m' <<< (e' - lo).toNat))
  | _, _ => false

/-- Equality of two values that are not NaN. -/
def FVal.eqv (a b : FVal) : Bool := !a.isNaN && !b.isNaN && !FVal.lt a b && !FVal.lt b a

/-! ### Tally values (02 R41, R47) -/

/-- A Tally entry: 128 bits and the poison bit. -/
structure TEnt where
  t : BitVec 128
  p : Bool
  deriving DecidableEq, Repr

def TEnt.zero : TEnt := ⟨0, false⟩

/-- The spill marker and the NaN marker. -/
def spillMark : BitVec 128 := BitVec.ofNat 128 (2 ^ 127 - 1)
def nanMark : BitVec 128 := BitVec.ofNat 128 (2 ^ 127)

/-- The pattern outside the range of 02 R41. -/
def oddMark : BitVec 128 := BitVec.ofNat 128 (2 ^ 127 + 1)

/-- What an entry stands for. -/
inductive TVal where
  | int (i : Int)
  | spill
  | nan
  deriving DecidableEq, Repr

/-- Read an entry: its value, its poison and whether it held the pattern outside the range (02 R41). -/
def TEnt.read (x : TEnt) : TVal × Bool × Bool :=
  if x.t = nanMark then (.nan, x.p, false)
  else if x.t = spillMark then (.spill, x.p, false)
  else if x.t = oddMark then (.spill, true, true)
  else (.int x.t.toInt, x.p, false)

/-- An integer lies in the range of 02 R41. -/
def tallyInRange (i : Int) : Bool := decide (-(2 ^ 127 - 2) ≤ i) && decide (i ≤ 2 ^ 127 - 2)

/-- The entry that holds an integer sum; outside the range the spill marker with poison. -/
def TEnt.ofInt (i : Int) (p : Bool) : TEnt :=
  if tallyInRange i then ⟨BitVec.ofInt 128 i, p⟩ else ⟨spillMark, true⟩

/-- The sum of two Tally values (02 R47), and whether a spill must be reported (02 R41, R48). -/
def TEnt.add (x y : TEnt) : TEnt × Bool :=
  let (a, p, o) := x.read
  let (b, q, o') := y.read
  match a, b with
  | .nan, _ => (⟨nanMark, p || q⟩, o || o')
  | _, .nan => (⟨nanMark, p || q⟩, o || o')
  | .spill, _ => (⟨spillMark, p || q⟩, o || o')
  | _, .spill => (⟨spillMark, p || q⟩, o || o')
  | .int i, .int j => (.ofInt (i + j) (p || q), !tallyInRange (i + j))

/-- What one row of products gives one entry (02 R44): markers contributed and the sum of the q. -/
structure Contrib where
  nan : Bool
  poison : Bool
  spill : Bool
  loss : Bool
  sum : Int
  deriving DecidableEq, Repr

def Contrib.zero : Contrib := ⟨false, false, false, false, 0⟩

def Contrib.join (a b : Contrib) : Contrib :=
  ⟨a.nan || b.nan, a.poison || b.poison, a.spill || b.spill, a.loss || b.loss, a.sum + b.sum⟩

/-- An entry after a row's contributions, in the order of 02 R44, and whether a spill is reported. An entry that spilled in an earlier
row and meets a NaN in a later one keeps its poison, as 02 R47 has it of a poisoned operand (DESIGN CHOICE, log entry 40). -/
def TEnt.contribute (x : TEnt) (c : Contrib) : TEnt × Bool :=
  let (a, p, o) := x.read
  if c.nan || a == .nan then (⟨nanMark, p || c.poison⟩, c.spill || o)
  else match a with
    | .int i =>
      if c.spill || !tallyInRange (i + c.sum) then (⟨spillMark, true⟩, true)
      else (⟨BitVec.ofInt 128 (i + c.sum), p || c.poison⟩, false)
    | .spill => (⟨spillMark, p || c.poison || c.spill⟩, c.spill || o)
    | .nan => (⟨nanMark, p⟩, false)

/-! ### Matrix operands (02 R38 to R43) -/

/-- A decoded MXE operand: NaN or infinity, poison, and the exact value m × 2^e. -/
structure MxVal where
  special : Bool
  poison : Bool
  m : Int
  e : Int
  deriving DecidableEq, Repr

def MxVal.zero : MxVal := ⟨false, false, 0, 0⟩

/-- A floating-point operand with its scale exponent (02 R38). -/
def MxVal.ofF (f : Fmt) (x : Nat) (scale : Int) (p : Bool) : MxVal :=
  match f.decode x with
  | .nan _ => ⟨true, p, 0, 0⟩
  | .inf _ => ⟨true, p, 0, 0⟩
  | .fin n m e => ⟨false, p, signed n m, e + scale⟩

/-- One product placed on the grid 2^w (02 R44). -/
def product (a b : MxVal) (w : Int) : Contrib :=
  if a.special || b.special then ⟨true, false, false, false, 0⟩
  else if a.poison || b.poison then ⟨false, true, false, false, 0⟩
  else
    let m := a.m * b.m
    let e := a.e + b.e - w
    if m = 0 then .zero
    else if 87 ≤ expOf m.natAbs e then ⟨false, false, true, false, 0⟩
    else if 0 ≤ e then ⟨false, false, false, false, m * 2 ^ e.toNat⟩
    else
      let q := m.tdiv (2 ^ (-e).toNat)
      ⟨false, false, false, q * 2 ^ (-e).toNat != m, q⟩

/-! ### The stamp generator (02 R57) -/

def rotl (x : Word) (n : Nat) : Word := x.rotateLeft n

/-- One round of 02 R57. -/
def stampRound (x : Word × Word × Word × Word) : Word × Word × Word × Word :=
  let (x0, x1, x2, x3) := x
  let x0 := x0 + x1
  let x1 := rotl x1 12 ^^^ x0
  let x2 := x2 + x3
  let x3 := rotl x3 20 ^^^ x2
  (x0, x3, x2, x1)

/-- Key injection i of 02 R57. -/
def stampKey (k0 k1 k2 : Word) (i : Nat) (x : Word × Word × Word × Word) : Word × Word × Word × Word :=
  let k := fun j => if j % 3 = 0 then k0 else if j % 3 = 1 then k1 else k2
  (x.1 + k i, x.2.1 + k (i + 1), x.2.2.1 + k (i + 2), x.2.2.2 + BitVec.ofNat 32 (i + 1))

/-- The stamp of 02 R57. -/
def stamp (seed step gtile stream index : Nat) : Word :=
  let k0 := BitVec.ofNat 32 seed
  let k1 := BitVec.ofNat 32 (seed >>> 32)
  let k2 := k0 ^^^ k1 ^^^ 0x5AC37E19
  let x := (BitVec.ofNat 32 index, BitVec.ofNat 32 (stream <<< 24 ||| gtile), BitVec.ofNat 32 step,
    BitVec.ofNat 32 (step >>> 32))
  let x := stampRound (stampRound (stampRound (stampKey k0 k1 k2 0 x)))
  let x := stampRound (stampRound (stampRound (stampKey k0 k1 k2 1 x)))
  let x := stampKey k0 k1 k2 2 x
  x.1 ^^^ x.2.2.2

/-! ### The (39,32) code (05 R147 to R149) -/

/-- The check columns, 05 Table 5. -/
def eccCols : List Nat :=
  [0x07, 0x0B, 0x0D, 0x0E, 0x13, 0x15, 0x16, 0x19, 0x1A, 0x1C, 0x23, 0x25, 0x26, 0x29, 0x2A, 0x2C] ++
  [0x31, 0x32, 0x34, 0x38, 0x43, 0x45, 0x46, 0x49, 0x4A, 0x4C, 0x51, 0x52, 0x54, 0x58, 0x61, 0x62]

/-- The check bits of a data word. -/
def eccCheck (d : Word) : BitVec 7 :=
  BitVec.ofNat 7 ((eccCols.zipIdx).foldl (fun a c => if d.getLsbD c.2 then a ^^^ c.1 else a) 0)

/-- A stored word of 40 bits: data [31:0], check [38:32], seal [39] (05 R147). -/
def storeWord (d : Word) (poison sealBit : Bool) : BitVec 40 :=
  (BitVec.ofBool sealBit ++ (if poison then ~~~(eccCheck d) else eccCheck d) ++ d : BitVec 40)

/-- What a read of a stored word finds (05 Table 6). -/
inductive EccResult where
  | good
  | correctable (d : Word)
  | poison
  | uncorrectable
  deriving DecidableEq, Repr

/-- The syndrome of a stored word (05 R148). -/
def syndrome (c : BitVec 40) : BitVec 7 := eccCheck (c.extractLsb' 0 32) ^^^ c.extractLsb' 32 7

/-- The number of set bits. -/
def popCount {w : Nat} (x : BitVec w) : Nat := (List.range w).foldl (fun n i => if x.getLsbD i then n + 1 else n) 0

/-- Check a stored word (05 Table 6). -/
def eccRead (c : BitVec 40) : EccResult :=
  let d := c.extractLsb' 0 32
  let s := syndrome c
  if s = 0 then .good
  else if popCount s = 1 then .correctable d
  else if s = 0x7F then .poison
  else match eccCols.idxOf? s.toNat with
    | some i => .correctable (d ^^^ BitVec.ofNat 32 (2 ^ i))
    | none => .uncorrectable

/-! ### CRC-32C (07 R209) and byte strings -/

/-- One byte of the reflected CRC-32C. -/
def crcByte (c : BitVec 32) (b : Byte) : BitVec 32 :=
  (List.range 8).foldl (fun c _ => if c.getLsbD 0 then (c >>> 1) ^^^ 0x82F63B78 else c >>> 1) (c ^^^ b.zeroExtend 32)

def crc32c (l : List Byte) : BitVec 32 := ~~~(l.foldl crcByte (~~~(0 : BitVec 32)))

/-- `n` bytes of a number, lowest first (00 R8). -/
def leBytes (v : Nat) : Nat → List Byte
  | 0 => []
  | n + 1 => BitVec.ofNat 8 v :: leBytes (v / 256) n

/-- The number of a byte string, lowest byte first. -/
def leNat : List Byte → Nat
  | [] => 0
  | b :: l => b.toNat + 256 * leNat l

/-- The bits [hi:lo] of a number. -/
def bits (v hi lo : Nat) : Nat := (v >>> lo) % 2 ^ (hi + 1 - lo)

end Sys2Proof.Machine
end

