-- ==== Sys2Proof/Machine/Regs.lean ====
section
/-! DEFINITION. The register fields of the part: offset, bits, access code (13 R10) and reset value of each, as the
register tables of the spec give them. The stride is the distance of the next entry of an array of registers. -/

namespace Sys2Proof.Machine

/-- The access codes of 00 R10. -/
inductive AccCode where
  | rw | ro | w1c | w1s | wo | rwl
  deriving DecidableEq, Repr

/-- A field of a register: page offset of the first entry, stride and number of entries, bits, access and reset value. -/
structure Fld where
  off : Nat
  stride : Nat
  count : Nat
  hi : Nat
  lo : Nat
  acc : AccCode
  reset : Nat
  deriving DecidableEq, Repr

/-- The field of entry `i` of an array. -/
def Fld.at (f : Fld) (i : Nat) : Fld := { f with off := f.off + f.stride * i, stride := 0, count := 1 }

/-- The field as part of a block of registers placed at `x`. -/
def Fld.shift (f : Fld) (x : Nat) : Fld := { f with off := f.off + x }

/-- Number of bits. -/
def Fld.width (f : Fld) : Nat := f.hi + 1 - f.lo

namespace Reg

def TIL_ARITH_FLAGS_SPILL : Fld := ⟨0x180, 0x0, 1, 7, 7, .w1c, 0x0⟩ -- R62
def TIL_ARITH_FLAGS_NANIN : Fld := ⟨0x180, 0x0, 1, 6, 6, .w1c, 0x0⟩ -- R62
def TIL_ARITH_FLAGS_GRIDLOSS : Fld := ⟨0x180, 0x0, 1, 5, 5, .w1c, 0x0⟩ -- R62
def TIL_ARITH_FLAGS_POISON : Fld := ⟨0x180, 0x0, 1, 4, 4, .w1c, 0x0⟩ -- R62
def TIL_ARITH_FLAGS_INV : Fld := ⟨0x180, 0x0, 1, 3, 3, .w1c, 0x0⟩ -- R62
def TIL_ARITH_FLAGS_OVF : Fld := ⟨0x180, 0x0, 1, 2, 2, .w1c, 0x0⟩ -- R62
def TIL_ARITH_FLAGS_UNF : Fld := ⟨0x180, 0x0, 1, 1, 1, .w1c, 0x0⟩ -- R62
def TIL_ARITH_FLAGS_INX : Fld := ⟨0x180, 0x0, 1, 0, 0, .w1c, 0x0⟩ -- R62
def TIL_SEQ_STAT_STATE : Fld := ⟨0x100, 0x0, 1, 31, 29, .ro, 0x0⟩ -- R90
def TIL_SEQ_STAT_LOOP_DEPTH : Fld := ⟨0x100, 0x0, 1, 28, 26, .ro, 0x0⟩ -- R90
def TIL_SEQ_STAT_PC : Fld := ⟨0x100, 0x0, 1, 17, 0, .ro, 0x0⟩ -- R90
def TIL_SEQ_BEAT_BEAT : Fld := ⟨0x104, 0x0, 1, 23, 0, .ro, 0x0⟩ -- R90
def TIL_MX_STAT_CKMIS_ROW : Fld := ⟨0x190, 0x0, 1, 6, 1, .ro, 0x0⟩ -- R90
def TIL_MX_STAT_CKMIS : Fld := ⟨0x190, 0x0, 1, 0, 0, .w1c, 0x0⟩ -- R90
def TIL_DISPATCH_DROPS_COUNT : Fld := ⟨0x1A0, 0x0, 1, 31, 0, .rw, 0x0⟩ -- R90
def TIL_CKMIS_CNT_COUNT : Fld := ⟨0x1A4, 0x0, 1, 31, 0, .rw, 0x0⟩ -- R90
def TIL_SEQ_CODE_HANDLE : Fld := ⟨0x160, 0x0, 1, 29, 24, .rw, 0x0⟩ -- R90
def TIL_SEQ_CODE_ENTRY : Fld := ⟨0x160, 0x0, 1, 17, 0, .rw, 0x0⟩ -- R90
def TIL_ILL_STAT_VALID : Fld := ⟨0x108, 0x0, 1, 31, 31, .w1c, 0x0⟩ -- R127
def TIL_ILL_STAT_SLOT : Fld := ⟨0x108, 0x0, 1, 30, 29, .ro, 0x0⟩ -- R127
def TIL_ILL_STAT_REASON : Fld := ⟨0x108, 0x0, 1, 28, 25, .ro, 0x0⟩ -- R127
def TIL_ILL_STAT_PC : Fld := ⟨0x108, 0x0, 1, 17, 0, .ro, 0x0⟩ -- R127
def TIL_ILL_WORD_WORD : Fld := ⟨0x10C, 0x0, 1, 31, 0, .ro, 0x0⟩ -- R127
def TIL_HND_RSUM : Fld := ⟨0x40C, 0x10, 64, 18, 0, .rw, 0x0⟩ -- R132
def TIL_HND_CLASS : Fld := ⟨0x408, 0x10, 64, 31, 31, .rw, 0x0⟩ -- R132
def TIL_HND_RETAIN : Fld := ⟨0x408, 0x10, 64, 30, 30, .rw, 0x0⟩ -- R132
def TIL_HND_ORIENT : Fld := ⟨0x408, 0x10, 64, 29, 29, .rw, 0x0⟩ -- R132
def TIL_HND_STRIDE8 : Fld := ⟨0x408, 0x10, 64, 28, 28, .rw, 0x0⟩ -- R132
def TIL_HND_ECC : Fld := ⟨0x408, 0x10, 64, 27, 26, .rw, 0x0⟩ -- R132
def TIL_HND_OWNER : Fld := ⟨0x408, 0x10, 64, 25, 16, .rw, 0x0⟩ -- R132
def TIL_HND_RIGHTS : Fld := ⟨0x408, 0x10, 64, 15, 8, .rw, 0x0⟩ -- R132
def TIL_HND_BOUND : Fld := ⟨0x404, 0x10, 64, 18, 0, .rw, 0x0⟩ -- R132
def TIL_HND_VALID : Fld := ⟨0x400, 0x10, 64, 31, 31, .rw, 0x0⟩ -- R132
def TIL_HND_CLOSED : Fld := ⟨0x400, 0x10, 64, 30, 30, .ro, 0x0⟩ -- R132
def TIL_HND_BASE : Fld := ⟨0x400, 0x10, 64, 18, 0, .rw, 0x0⟩ -- R132
def TIL_SPD_ERR_RQOVF : Fld := ⟨0x110, 0x0, 1, 6, 6, .w1c, 0x0⟩ -- R159
def TIL_SPD_ERR_UNREP : Fld := ⟨0x110, 0x0, 1, 5, 5, .w1c, 0x0⟩ -- R159
def TIL_SPD_ERR_PATROL : Fld := ⟨0x110, 0x0, 1, 4, 4, .w1c, 0x0⟩ -- R159
def TIL_SPD_ERR_UE : Fld := ⟨0x110, 0x0, 1, 3, 3, .w1c, 0x0⟩ -- R159
def TIL_SPD_ERR_CE : Fld := ⟨0x110, 0x0, 1, 2, 2, .w1c, 0x0⟩ -- R159
def TIL_SPD_ERR_REFUSED : Fld := ⟨0x110, 0x0, 1, 1, 1, .w1c, 0x0⟩ -- R159
def TIL_SPD_ERR_COLL : Fld := ⟨0x110, 0x0, 1, 0, 0, .w1c, 0x0⟩ -- R159
def TIL_SPD_COLL_LOSER : Fld := ⟨0x114, 0x0, 1, 31, 28, .ro, 0x0⟩ -- R159
def TIL_SPD_COLL_WINNER : Fld := ⟨0x114, 0x0, 1, 27, 24, .ro, 0x0⟩ -- R159
def TIL_SPD_COLL_BEAT : Fld := ⟨0x114, 0x0, 1, 23, 0, .ro, 0x0⟩ -- R159
def TIL_SPD_COLLX_TIER : Fld := ⟨0x118, 0x0, 1, 4, 3, .ro, 0x0⟩ -- R159
def TIL_SPD_COLLX_BG : Fld := ⟨0x118, 0x0, 1, 2, 0, .ro, 0x0⟩ -- R159
def TIL_SPD_CECNT_COUNT : Fld := ⟨0x11C, 0x0, 1, 31, 0, .rw, 0x0⟩ -- R159
def TIL_SPD_UECNT_COUNT : Fld := ⟨0x120, 0x0, 1, 31, 0, .rw, 0x0⟩ -- R159
def TIL_SPD_REPCNT_COUNT : Fld := ⟨0x124, 0x0, 1, 31, 0, .rw, 0x0⟩ -- R159
def TIL_SPD_REFCNT_COUNT : Fld := ⟨0x128, 0x0, 1, 31, 0, .rw, 0x0⟩ -- R159
def TIL_SPD_COLLCNT_COUNT : Fld := ⟨0x12C, 0x0, 1, 31, 0, .rw, 0x0⟩ -- R159
def TIL_SPD_UNSEALED_SHEETS : Fld := ⟨0x130, 0x0, 1, 13, 0, .ro, 0x0⟩ -- R159
def TIL_SPD_CLR_BUSY : Fld := ⟨0x134, 0x0, 1, 31, 31, .ro, 0x0⟩ -- R159
def TIL_SPD_CLR_REMAIN : Fld := ⟨0x134, 0x0, 1, 18, 0, .ro, 0x0⟩ -- R159
def TIL_SPD_PATROL_PASSES : Fld := ⟨0x138, 0x0, 1, 31, 0, .ro, 0x0⟩ -- R159
def TIL_WHEEL_ODD_P3 : Fld := ⟨0x200, 0x4, 16, 31, 28, .rw, 0x0⟩ -- R159
def TIL_WHEEL_ODD_P2 : Fld := ⟨0x200, 0x4, 16, 27, 24, .rw, 0x0⟩ -- R159
def TIL_WHEEL_ODD_P1 : Fld := ⟨0x200, 0x4, 16, 23, 20, .rw, 0x0⟩ -- R159
def TIL_WHEEL_ODD_P0 : Fld := ⟨0x200, 0x4, 16, 19, 16, .rw, 0x0⟩ -- R159
def TIL_WHEEL_EVEN_P3 : Fld := ⟨0x200, 0x4, 16, 15, 12, .rw, 0x0⟩ -- R159
def TIL_WHEEL_EVEN_P2 : Fld := ⟨0x200, 0x4, 16, 11, 8, .rw, 0x0⟩ -- R159
def TIL_WHEEL_EVEN_P1 : Fld := ⟨0x200, 0x4, 16, 7, 4, .rw, 0x0⟩ -- R159
def TIL_WHEEL_EVEN_P0 : Fld := ⟨0x200, 0x4, 16, 3, 0, .rw, 0x0⟩ -- R159
def TIL_WSEQ_VALID : Fld := ⟨0x240, 0x4, 16, 31, 31, .rw, 0x0⟩ -- R159
def TIL_WSEQ_WHEEL : Fld := ⟨0x240, 0x4, 16, 22, 21, .rw, 0x0⟩ -- R159
def TIL_WSEQ_START8 : Fld := ⟨0x240, 0x4, 16, 20, 0, .rw, 0x0⟩ -- R159
def ICH_STAT_REGCAP : Fld := ⟨0x100, 0x0, 1, 11, 11, .w1c, 0x0⟩ -- R192
def ICH_STAT_MULTI : Fld := ⟨0x100, 0x0, 1, 10, 10, .w1c, 0x0⟩ -- R192
def ICH_STAT_SWAPERR : Fld := ⟨0x100, 0x0, 1, 9, 9, .w1c, 0x0⟩ -- R192
def ICH_STAT_SPILL : Fld := ⟨0x100, 0x0, 1, 8, 8, .w1c, 0x0⟩ -- R192
def ICH_STAT_CELLOVR : Fld := ⟨0x100, 0x0, 1, 7, 7, .w1c, 0x0⟩ -- R192
def ICH_STAT_LATE : Fld := ⟨0x100, 0x0, 1, 6, 6, .w1c, 0x0⟩ -- R192
def ICH_STAT_GENMIS : Fld := ⟨0x100, 0x0, 1, 5, 5, .w1c, 0x0⟩ -- R192
def ICH_STAT_DEADLETTER : Fld := ⟨0x100, 0x0, 1, 4, 4, .w1c, 0x0⟩ -- R192
def ICH_STAT_LANDMISS : Fld := ⟨0x100, 0x0, 1, 3, 3, .w1c, 0x0⟩ -- R192
def ICH_STAT_SLOTCONF : Fld := ⟨0x100, 0x0, 1, 2, 2, .w1c, 0x0⟩ -- R192
def ICH_STAT_PASTEND : Fld := ⟨0x100, 0x0, 1, 1, 1, .w1c, 0x0⟩ -- R192
def ICH_STAT_UNLEASED : Fld := ⟨0x100, 0x0, 1, 0, 0, .w1c, 0x0⟩ -- R192
def ICH_DEADLETTER_COUNT : Fld := ⟨0x104, 0x0, 1, 31, 0, .rw, 0x0⟩ -- R192
def ICH_LANDMISS_COUNT : Fld := ⟨0x108, 0x0, 1, 31, 0, .rw, 0x0⟩ -- R192
def ICH_LATE_COUNT : Fld := ⟨0x10C, 0x0, 1, 31, 0, .rw, 0x0⟩ -- R192
def ICH_GENMIS_COUNT : Fld := ⟨0x110, 0x0, 1, 31, 0, .rw, 0x0⟩ -- R192
def ICH_POISONOUT_COUNT : Fld := ⟨0x114, 0x0, 1, 31, 0, .rw, 0x0⟩ -- R192
def ICH_CELLOVR_COUNT : Fld := ⟨0x118, 0x0, 1, 31, 0, .rw, 0x0⟩ -- R192
def ICH_SUPPRESS_COUNT : Fld := ⟨0x11C, 0x0, 1, 31, 0, .rw, 0x0⟩ -- R192
def ICH_DRAIN_NS_NS : Fld := ⟨0x120, 0x0, 1, 31, 0, .rw, 0x800⟩ -- R192
def ICH_TT_SWAP_LO : Fld := ⟨0x140, 0x10, 4, 31, 0, .rw, 0x0⟩ -- R192
def ICH_TT_SWAP_HI : Fld := ⟨0x144, 0x10, 4, 31, 0, .rw, 0x0⟩ -- R192
def ICH_SWAP_ARM : Fld := ⟨0x148, 0x10, 4, 31, 31, .rw, 0x0⟩ -- R192
def ICH_SWAP_HELD : Fld := ⟨0x148, 0x10, 4, 3, 3, .ro, 0x0⟩ -- R192
def ICH_SWAP_ERR : Fld := ⟨0x148, 0x10, 4, 2, 2, .w1c, 0x0⟩ -- R192
def ICH_SWAP_DRAINING : Fld := ⟨0x148, 0x10, 4, 1, 1, .ro, 0x0⟩ -- R192
def ICH_SWAP_GEN : Fld := ⟨0x148, 0x10, 4, 0, 0, .ro, 0x0⟩ -- R192
def ICH_CAPT_SLOT_PART : Fld := ⟨0x180, 0x0, 1, 31, 30, .ro, 0x0⟩ -- R192
def ICH_CAPT_SLOT_PORT : Fld := ⟨0x180, 0x0, 1, 29, 24, .ro, 0x0⟩ -- R192
def ICH_CAPT_SLOT_SLOT : Fld := ⟨0x180, 0x0, 1, 23, 0, .ro, 0x0⟩ -- R192
def ICH_CAPT_ROUND_ROUND : Fld := ⟨0x184, 0x0, 1, 31, 0, .ro, 0x0⟩ -- R192
def ICH_CAPT_CODE_BIT : Fld := ⟨0x188, 0x0, 1, 3, 0, .ro, 0x0⟩ -- R192
def ICH_TBL_ADDR_TABLE : Fld := ⟨0x100, 0x0, 1, 31, 30, .rw, 0x0⟩ -- R193
def ICH_TBL_ADDR_BANK : Fld := ⟨0x100, 0x0, 1, 29, 29, .rw, 0x0⟩ -- R193
def ICH_TBL_ADDR_PORT : Fld := ⟨0x100, 0x0, 1, 28, 23, .rw, 0x0⟩ -- R193
def ICH_TBL_ADDR_INDEX : Fld := ⟨0x100, 0x0, 1, 14, 0, .rw, 0x0⟩ -- R193
def ICH_TBL_DATA_WORD : Fld := ⟨0x104, 0x4, 4, 31, 0, .rw, 0x0⟩ -- R193
def ICH_TBL_CMD_OP : Fld := ⟨0x114, 0x0, 1, 1, 0, .wo, 0x0⟩ -- R193
def ICH_TBL_STAT_REFUSED : Fld := ⟨0x118, 0x0, 1, 1, 1, .ro, 0x0⟩ -- R193
def ICH_TBL_STAT_DONE : Fld := ⟨0x118, 0x0, 1, 0, 0, .ro, 0x1⟩ -- R193
def ICH_SDS0_PORTS : Fld := ⟨0x300, 0x0, 1, 31, 0, .rw, 0x0⟩ -- R193
def ICH_SDS1_PORTS : Fld := ⟨0x304, 0x0, 1, 14, 0, .rw, 0x0⟩ -- R193
def ICH_PH_BASE_CELL : Fld := ⟨0x100, 0x8, 4, 16, 0, .rw, 0x0⟩ -- R193
def ICH_PH_LIMIT_CELL : Fld := ⟨0x104, 0x8, 4, 16, 0, .rw, 0x0⟩ -- R193
def RWT_EXPIRY_HI : Fld := ⟨0x21C, 0x20, 32, 31, 0, .rw, 0x0⟩ -- R195
def RWT_EXPIRY_LO : Fld := ⟨0x218, 0x20, 32, 31, 0, .rw, 0x0⟩ -- R195
def RWT_SIZE : Fld := ⟨0x214, 0x20, 32, 21, 0, .rw, 0x0⟩ -- R195
def RWT_OFF : Fld := ⟨0x210, 0x20, 32, 18, 0, .rw, 0x0⟩ -- R195
def RWT_SRC : Fld := ⟨0x20C, 0x20, 32, 31, 16, .rw, 0x0⟩ -- R195
def RWT_SMASK : Fld := ⟨0x20C, 0x20, 32, 15, 0, .rw, 0x0⟩ -- R195
def RWT_TMASK : Fld := ⟨0x208, 0x20, 32, 31, 0, .rw, 0x0⟩ -- R195
def RWT_TARGET : Fld := ⟨0x204, 0x20, 32, 31, 0, .rw, 0x0⟩ -- R195
def RWT_VALID : Fld := ⟨0x200, 0x20, 32, 31, 31, .rw, 0x0⟩ -- R195
def RWT_PART : Fld := ⟨0x200, 0x20, 32, 30, 29, .rw, 0x0⟩ -- R195
def RWT_RD : Fld := ⟨0x200, 0x20, 32, 28, 28, .rw, 0x0⟩ -- R195
def RWT_WR : Fld := ⟨0x200, 0x20, 32, 27, 27, .rw, 0x0⟩ -- R195
def RWT_PRIO : Fld := ⟨0x200, 0x20, 32, 26, 25, .rw, 0x0⟩ -- R195
def RWT_TILE : Fld := ⟨0x200, 0x20, 32, 24, 17, .rw, 0x0⟩ -- R195
def RWT_HANDLE : Fld := ⟨0x200, 0x20, 32, 16, 11, .rw, 0x0⟩ -- R195
def RWT_STAT_WINNER : Fld := ⟨0x140, 0x0, 1, 12, 8, .ro, 0x0⟩ -- R199
def RWT_STAT_MISS : Fld := ⟨0x140, 0x0, 1, 1, 1, .w1c, 0x0⟩ -- R199
def RWT_STAT_MULTI_HIT : Fld := ⟨0x140, 0x0, 1, 0, 0, .w1c, 0x0⟩ -- R199
def RWT_MISS_COUNT : Fld := ⟨0x144, 0x0, 1, 31, 0, .rw, 0x0⟩ -- R199
def RWT_SERVED_COUNT : Fld := ⟨0x148, 0x0, 1, 31, 0, .rw, 0x0⟩ -- R199
def ICL_CTL_EN : Fld := ⟨0x0, 0x0, 1, 31, 31, .rw, 0x1⟩ -- R230
def ICL_CTL_RETRAIN : Fld := ⟨0x0, 0x0, 1, 30, 30, .wo, 0x0⟩ -- R230
def ICL_CTL_HOLDREQ : Fld := ⟨0x0, 0x0, 1, 29, 29, .wo, 0x0⟩ -- R230
def ICL_DOWN_MODE_MODE : Fld := ⟨0x4, 0x0, 1, 0, 0, .rw, 0x0⟩ -- R230
def ICL_GRACE_NS_NS : Fld := ⟨0x8, 0x0, 1, 31, 0, .rw, 0xF4240⟩ -- R230
def ICL_LOSS_NS_NS : Fld := ⟨0xC, 0x0, 1, 15, 0, .rw, 0x2710⟩ -- R230
def ICL_ELASTIC_MAX_SLOTS : Fld := ⟨0x1C, 0x0, 1, 6, 0, .rw, 0x20⟩ -- R230
def ICL_STATE_STATE : Fld := ⟨0x10, 0x0, 1, 31, 29, .ro, 0x0⟩ -- R230
def ICL_STATE_SCHED : Fld := ⟨0x10, 0x0, 1, 28, 28, .ro, 0x0⟩ -- R230
def ICL_STATE_CAUSE : Fld := ⟨0x10, 0x0, 1, 27, 24, .ro, 0x0⟩ -- R230
def ICL_STATE_ATTEMPTS : Fld := ⟨0x10, 0x0, 1, 23, 20, .ro, 0x0⟩ -- R230
def ICL_LEDGER0_PEER_CHIP : Fld := ⟨0x14, 0x0, 1, 31, 16, .ro, 0x0⟩ -- R230
def ICL_LEDGER0_PEER_PORT : Fld := ⟨0x14, 0x0, 1, 15, 10, .ro, 0x0⟩ -- R230
def ICL_LEDGER1_RPL_NS : Fld := ⟨0x18, 0x0, 1, 31, 16, .ro, 0x0⟩ -- R230
def ICL_LEDGER1_LAT_NS : Fld := ⟨0x18, 0x0, 1, 15, 0, .ro, 0x0⟩ -- R230
def ICL_VC_MAX : Fld := ⟨0x20, 0x4, 4, 28, 16, .rw, 0x800⟩ -- R230
def ICL_VC_MIN : Fld := ⟨0x20, 0x4, 4, 12, 0, .rw, 0x80⟩ -- R230
def ICL_CRCERR_COUNT : Fld := ⟨0x40, 0x0, 1, 31, 0, .rw, 0x0⟩ -- R230
def ICL_NAKTX_COUNT : Fld := ⟨0x44, 0x0, 1, 31, 0, .rw, 0x0⟩ -- R230
def ICL_NAKRX_COUNT : Fld := ⟨0x48, 0x0, 1, 31, 0, .rw, 0x0⟩ -- R230
def ICL_RPLTX_COUNT : Fld := ⟨0x4C, 0x0, 1, 31, 0, .rw, 0x0⟩ -- R230
def ICL_FECCORR_COUNT : Fld := ⟨0x50, 0x0, 1, 31, 0, .rw, 0x0⟩ -- R230
def ICL_FECUNC_COUNT : Fld := ⟨0x54, 0x0, 1, 31, 0, .rw, 0x0⟩ -- R230
def ICL_MALFORMED_COUNT : Fld := ⟨0x58, 0x0, 1, 31, 0, .rw, 0x0⟩ -- R230
def ICL_DUP_COUNT : Fld := ⟨0x5C, 0x0, 1, 31, 0, .rw, 0x0⟩ -- R230
def ICL_RPLOVF_COUNT : Fld := ⟨0x60, 0x0, 1, 31, 0, .rw, 0x0⟩ -- R230
def ICL_NAKSTALE_COUNT : Fld := ⟨0x64, 0x0, 1, 31, 0, .rw, 0x0⟩ -- R230
def ICL_ELDROP_COUNT : Fld := ⟨0x68, 0x0, 1, 31, 0, .rw, 0x0⟩ -- R230
def ICL_CREDOVF_COUNT : Fld := ⟨0x6C, 0x0, 1, 31, 0, .rw, 0x0⟩ -- R230
def ICL_ERR_CREDOVF : Fld := ⟨0x80, 0x0, 1, 8, 8, .w1c, 0x0⟩ -- R230
def ICL_ERR_ELDROP : Fld := ⟨0x80, 0x0, 1, 7, 7, .w1c, 0x0⟩ -- R230
def ICL_ERR_NAKSTALE : Fld := ⟨0x80, 0x0, 1, 6, 6, .w1c, 0x0⟩ -- R230
def ICL_ERR_RPLOVF : Fld := ⟨0x80, 0x0, 1, 5, 5, .w1c, 0x0⟩ -- R230
def ICL_ERR_MALFORMED : Fld := ⟨0x80, 0x0, 1, 4, 4, .w1c, 0x0⟩ -- R230
def ICL_ERR_FECUNC : Fld := ⟨0x80, 0x0, 1, 3, 3, .w1c, 0x0⟩ -- R230
def ICL_ERR_CRCERR : Fld := ⟨0x80, 0x0, 1, 2, 2, .w1c, 0x0⟩ -- R230
def ICL_ERR_LEDGER : Fld := ⟨0x80, 0x0, 1, 1, 1, .w1c, 0x0⟩ -- R230
def ICL_ERR_LOSS : Fld := ⟨0x80, 0x0, 1, 0, 0, .w1c, 0x0⟩ -- R230
def ICL_EXR_CTL_MODE : Fld := ⟨0xC0, 0x0, 1, 31, 28, .rw, 0x0⟩ -- R230
def ICL_EXR_CTL_PAT : Fld := ⟨0xC0, 0x0, 1, 27, 24, .rw, 0x0⟩ -- R230
def ICL_EXR_CTL_INJ : Fld := ⟨0xC0, 0x0, 1, 23, 20, .rw, 0x0⟩ -- R230
def ICL_EXR_CTL_INJ_EVERY : Fld := ⟨0xC0, 0x0, 1, 19, 8, .rw, 0x0⟩ -- R230
def ICL_EXR_SLOTS_PERIOD : Fld := ⟨0xC4, 0x0, 1, 31, 24, .rw, 0x1⟩ -- R230
def ICL_EXR_SLOTS_FIRST : Fld := ⟨0xC4, 0x0, 1, 23, 0, .rw, 0x0⟩ -- R230
def ICL_EXR_SEED_SEED : Fld := ⟨0xC8, 0x0, 1, 30, 0, .rw, 0x1⟩ -- R230
def ICL_EXR_TX_COUNT : Fld := ⟨0xCC, 0x0, 1, 31, 0, .rw, 0x0⟩ -- R230
def ICL_EXR_RX_COUNT : Fld := ⟨0xD0, 0x0, 1, 31, 0, .rw, 0x0⟩ -- R230
def ICL_EXR_ERR_COUNT : Fld := ⟨0xD4, 0x0, 1, 31, 0, .rw, 0x0⟩ -- R230
def ICL_EXR_LATMIN_NS : Fld := ⟨0xD8, 0x0, 1, 31, 0, .ro, 0xFFFFFFFF⟩ -- R230
def ICL_EXR_LATMAX_NS : Fld := ⟨0xDC, 0x0, 1, 31, 0, .ro, 0x0⟩ -- R230
def ICL_EXR_FECH_COUNT : Fld := ⟨0xE0, 0x4, 17, 31, 0, .rw, 0x0⟩ -- R230
def ICL_TXFFE_FIXED : Fld := ⟨0x0, 0x4, 8, 31, 31, .rwl, 0x0⟩ -- R231
def ICL_TXFFE_PRE2 : Fld := ⟨0x0, 0x4, 8, 29, 24, .rwl, 0x0⟩ -- R231
def ICL_TXFFE_PRE1 : Fld := ⟨0x0, 0x4, 8, 23, 18, .rwl, 0x0⟩ -- R231
def ICL_TXFFE_MAIN : Fld := ⟨0x0, 0x4, 8, 17, 12, .rwl, 0x0⟩ -- R231
def ICL_TXFFE_POST1 : Fld := ⟨0x0, 0x4, 8, 11, 6, .rwl, 0x0⟩ -- R231
def ICL_TXFFE_POST2 : Fld := ⟨0x0, 0x4, 8, 5, 0, .rwl, 0x0⟩ -- R231
def TMB_CTL_MASTER_A : Fld := ⟨0x120, 0x0, 1, 31, 31, .rw, 0x0⟩ -- R258
def TMB_CTL_MASTER_B : Fld := ⟨0x120, 0x0, 1, 30, 30, .rw, 0x0⟩ -- R258
def TMB_CTL_USE_A : Fld := ⟨0x120, 0x0, 1, 29, 29, .wo, 0x0⟩ -- R258
def TMB_STAT_SEL : Fld := ⟨0x124, 0x0, 1, 31, 31, .ro, 0x0⟩ -- R258
def TMB_STAT_STATE_A : Fld := ⟨0x124, 0x0, 1, 30, 28, .ro, 0x0⟩ -- R258
def TMB_STAT_STATE_B : Fld := ⟨0x124, 0x0, 1, 27, 25, .ro, 0x0⟩ -- R258
def TMB_STAT_HOLDOVER : Fld := ⟨0x124, 0x0, 1, 24, 24, .ro, 0x0⟩ -- R258
def TMB_STAT_OOT : Fld := ⟨0x124, 0x0, 1, 23, 23, .w1c, 0x0⟩ -- R258
def TMB_STAT_SWITCHED : Fld := ⟨0x124, 0x0, 1, 22, 22, .w1c, 0x0⟩ -- R258
def TMB_POSTMARK_NT : Fld := ⟨0x100, 0x0, 1, 31, 0, .ro, 0x0⟩ -- R258
def TMB_EPOCH_NT : Fld := ⟨0x104, 0x0, 1, 31, 0, .ro, 0x0⟩ -- R258
def TMB_NT_FRAC_FRAC : Fld := ⟨0x108, 0x0, 1, 7, 0, .ro, 0x0⟩ -- R258
def TMB_LTB_LO : Fld := ⟨0x110, 0x0, 1, 31, 0, .ro, 0x0⟩ -- R258
def TMB_LTB_HI : Fld := ⟨0x114, 0x0, 1, 31, 0, .ro, 0x0⟩ -- R258
def TMB_OFF_A_NS : Fld := ⟨0x128, 0x0, 1, 31, 0, .ro, 0x0⟩ -- R258
def TMB_OFF_B_NS : Fld := ⟨0x12C, 0x0, 1, 31, 0, .ro, 0x0⟩ -- R258
def TMB_DAB_NS : Fld := ⟨0x130, 0x0, 1, 31, 0, .ro, 0x0⟩ -- R258
def TMB_RATE_RATE : Fld := ⟨0x134, 0x0, 1, 31, 0, .ro, 0x0⟩ -- R258
def TMB_TOL_NS_NS : Fld := ⟨0x138, 0x0, 1, 7, 0, .rw, 0x4⟩ -- R258
def TMB_HOLD_NS_NS : Fld := ⟨0x13C, 0x0, 1, 31, 0, .rw, 0xF4240⟩ -- R258
def TMB_PARENT_PORT_A : Fld := ⟨0x140, 0x0, 1, 29, 24, .ro, 0x3F⟩ -- R258
def TMB_PARENT_DIST_A : Fld := ⟨0x140, 0x0, 1, 23, 16, .ro, 0xFF⟩ -- R258
def TMB_PARENT_PORT_B : Fld := ⟨0x140, 0x0, 1, 13, 8, .ro, 0x3F⟩ -- R258
def TMB_PARENT_DIST_B : Fld := ⟨0x140, 0x0, 1, 7, 0, .ro, 0xFF⟩ -- R258
def TMB_MASTER_MASTER_A : Fld := ⟨0x144, 0x0, 1, 31, 16, .ro, 0x0⟩ -- R258
def TMB_MASTER_MASTER_B : Fld := ⟨0x144, 0x0, 1, 15, 0, .ro, 0x0⟩ -- R258
def TMB_NT_SET_LO : Fld := ⟨0x148, 0x0, 1, 31, 0, .rw, 0x0⟩ -- R258
def TMB_NT_SET_HI : Fld := ⟨0x14C, 0x0, 1, 31, 0, .rw, 0x0⟩ -- R258
def TMB_GEAR_ARM : Fld := ⟨0x160, 0x0, 1, 31, 31, .rw, 0x0⟩ -- R258
def TMB_GEAR_NEXT : Fld := ⟨0x160, 0x0, 1, 30, 28, .rw, 0x0⟩ -- R258
def TMB_GEAR_CUR : Fld := ⟨0x160, 0x0, 1, 26, 24, .ro, 0x0⟩ -- R258
def TMB_GEAR_TOP : Fld := ⟨0x160, 0x0, 1, 22, 20, .ro, 0x0⟩ -- R258
def TMB_GEAR_AT_LO : Fld := ⟨0x168, 0x0, 1, 31, 0, .rw, 0x0⟩ -- R258
def TMB_GEAR_AT_HI : Fld := ⟨0x16C, 0x0, 1, 31, 0, .rw, 0x0⟩ -- R258
def TMB_HOST_T_LO : Fld := ⟨0x180, 0x0, 1, 31, 0, .ro, 0x0⟩ -- R258
def TMB_HOST_T_HI : Fld := ⟨0x184, 0x0, 1, 31, 0, .ro, 0x0⟩ -- R258
def TMB_HOST_NT_LO : Fld := ⟨0x188, 0x0, 1, 31, 0, .ro, 0x0⟩ -- R258
def TMB_HOST_NT_HI : Fld := ⟨0x18C, 0x0, 1, 31, 0, .ro, 0x0⟩ -- R258
def TMB_PTM_CTL_EN : Fld := ⟨0x190, 0x0, 1, 31, 31, .rw, 0x0⟩ -- R258
def TMB_PTM_CTL_PERIOD_MS : Fld := ⟨0x190, 0x0, 1, 15, 0, .rw, 0xA⟩ -- R258
def RGN_STAT_EMERG : Fld := ⟨0x100, 0x0, 1, 31, 31, .w1c, 0x0⟩ -- R259
def RGN_STAT_WARN : Fld := ⟨0x100, 0x0, 1, 30, 30, .w1c, 0x0⟩ -- R259
def RGN_STAT_HEADROOM : Fld := ⟨0x100, 0x0, 1, 29, 29, .ro, 0x0⟩ -- R259
def RGN_STAT_RECAL : Fld := ⟨0x100, 0x0, 1, 28, 28, .w1c, 0x0⟩ -- R259
def RGN_STAT_SKEW : Fld := ⟨0x100, 0x0, 1, 27, 27, .w1c, 0x0⟩ -- R259
def RGN_STAT_CAL_OK : Fld := ⟨0x100, 0x0, 1, 26, 26, .ro, 0x0⟩ -- R259
def RGN_STAT_SLACK : Fld := ⟨0x100, 0x0, 1, 15, 0, .ro, 0x0⟩ -- R259
def RGN_VOLT_MV : Fld := ⟨0x104, 0x0, 1, 11, 0, .ro, 0x0⟩ -- R259
def RGN_TEMP_T : Fld := ⟨0x108, 0x0, 1, 15, 0, .ro, 0x0⟩ -- R259
def RGN_DROOP_EMERG_MV : Fld := ⟨0x10C, 0x0, 1, 23, 16, .rw, 0x3C⟩ -- R259
def RGN_DROOP_WARN_MV : Fld := ⟨0x10C, 0x0, 1, 7, 0, .rw, 0x1E⟩ -- R259
def RGN_VMAX_MV : Fld := ⟨0x110, 0x0, 1, 11, 0, .rwl, 0x0⟩ -- R259
def RGN_GUARD_MIN_PS : Fld := ⟨0x114, 0x0, 1, 15, 0, .rw, 0x14⟩ -- R259
def RGN_SKEW_PS : Fld := ⟨0x118, 0x0, 1, 15, 0, .ro, 0x0⟩ -- R259
def RGN_VF_VALID : Fld := ⟨0x120, 0x4, 6, 31, 31, .ro, 0x0⟩ -- R259
def RGN_VF_MV : Fld := ⟨0x120, 0x4, 6, 11, 0, .ro, 0x0⟩ -- R259
def RGN_CAL_GUARD_MV : Fld := ⟨0x140, 0x0, 1, 7, 0, .rwl, 0x19⟩ -- R259
def SNP_CTL_NOW : Fld := ⟨0x100, 0x0, 1, 31, 31, .wo, 0x0⟩ -- R283
def SNP_CTL_RELEASE : Fld := ⟨0x100, 0x0, 1, 30, 30, .wo, 0x0⟩ -- R283
def SNP_CTL_ARM : Fld := ⟨0x100, 0x0, 1, 29, 29, .rw, 0x0⟩ -- R283
def SNP_CTL_AT_ROUND : Fld := ⟨0x100, 0x0, 1, 28, 28, .rw, 0x0⟩ -- R283
def SNP_CTL_AT_PART : Fld := ⟨0x100, 0x0, 1, 27, 26, .rw, 0x0⟩ -- R283
def SNP_CTL_PIN_IN : Fld := ⟨0x100, 0x0, 1, 25, 25, .rw, 0x0⟩ -- R283
def SNP_CTL_PIN_OUT : Fld := ⟨0x100, 0x0, 1, 24, 24, .rw, 0x0⟩ -- R283
def SNP_CTL_ERR_DATA : Fld := ⟨0x100, 0x0, 1, 23, 23, .rw, 0x0⟩ -- R283
def SNP_CTL_ERR_CTL : Fld := ⟨0x100, 0x0, 1, 22, 22, .rw, 0x0⟩ -- R283
def SNP_CTL_FENCE : Fld := ⟨0x100, 0x0, 1, 21, 21, .rw, 0x0⟩ -- R283
def SNP_CTL_OVERWRITE : Fld := ⟨0x100, 0x0, 1, 20, 20, .rw, 0x0⟩ -- R283
def SNP_AT_LO : Fld := ⟨0x104, 0x0, 1, 31, 0, .rw, 0x0⟩ -- R283
def SNP_AT_HI : Fld := ⟨0x108, 0x0, 1, 31, 0, .rw, 0x0⟩ -- R283
def SNP_STAT_HELD : Fld := ⟨0x10C, 0x0, 1, 31, 31, .ro, 0x0⟩ -- R283
def SNP_STAT_CAUSE : Fld := ⟨0x10C, 0x0, 1, 30, 26, .ro, 0x0⟩ -- R283
def SNP_SEQ_COUNT : Fld := ⟨0x110, 0x0, 1, 31, 0, .ro, 0x0⟩ -- R283
def SNP_MISSED_COUNT : Fld := ⟨0x114, 0x0, 1, 31, 0, .rw, 0x0⟩ -- R283
def SNP_NT_LO : Fld := ⟨0x118, 0x0, 1, 31, 0, .ro, 0x0⟩ -- R283
def SNP_NT_HI : Fld := ⟨0x11C, 0x0, 1, 31, 0, .ro, 0x0⟩ -- R283
def HIF_LB_CTL_EN : Fld := ⟨0x700, 0x0, 1, 31, 31, .rw, 0x0⟩ -- R284
def HIF_LB_CTL_MODE : Fld := ⟨0x700, 0x0, 1, 30, 30, .rw, 0x0⟩ -- R284
def HIF_LB_CTL_PARTS : Fld := ⟨0x700, 0x0, 1, 29, 26, .rw, 0x0⟩ -- R284
def HIF_LB_STAT_LOST : Fld := ⟨0x704, 0x0, 1, 31, 31, .w1c, 0x0⟩ -- R284
def HIF_LB_BASE_LO : Fld := ⟨0x708, 0x0, 1, 31, 0, .rw, 0x0⟩ -- R284
def HIF_LB_BASE_HI : Fld := ⟨0x70C, 0x0, 1, 31, 0, .rw, 0x0⟩ -- R284
def HIF_LB_SIZE_LOG2 : Fld := ⟨0x710, 0x0, 1, 4, 0, .rw, 0x10⟩ -- R284
def HIF_LB_HEAD_BYTES : Fld := ⟨0x714, 0x0, 1, 31, 0, .ro, 0x0⟩ -- R284
def HIF_LB_TAIL_BYTES : Fld := ⟨0x718, 0x0, 1, 31, 0, .rw, 0x0⟩ -- R284
def HIF_LB_LOSTCNT_COUNT : Fld := ⟨0x71C, 0x0, 1, 31, 0, .rw, 0x0⟩ -- R284
def HIF_RP_CTL_EN : Fld := ⟨0x740, 0x20, 4, 31, 31, .rw, 0x0⟩ -- R284
def HIF_RP_CTL_UNDERRUN : Fld := ⟨0x740, 0x20, 4, 30, 30, .w1c, 0x0⟩ -- R284
def HIF_RP_BASE_LO : Fld := ⟨0x744, 0x20, 4, 31, 0, .rw, 0x0⟩ -- R284
def HIF_RP_BASE_HI : Fld := ⟨0x748, 0x20, 4, 31, 0, .rw, 0x0⟩ -- R284
def HIF_RP_SIZE_LOG2 : Fld := ⟨0x74C, 0x20, 4, 4, 0, .rw, 0x10⟩ -- R284
def HIF_RP_HEAD_BYTES : Fld := ⟨0x750, 0x20, 4, 31, 0, .rw, 0x0⟩ -- R284
def HIF_RP_TAIL_BYTES : Fld := ⟨0x754, 0x20, 4, 31, 0, .ro, 0x0⟩ -- R284
def HIF_RP_IGN_COUNT : Fld := ⟨0x758, 0x20, 4, 31, 0, .rw, 0x0⟩ -- R284
def ETU_CTL_EN : Fld := ⟨0x100, 0x0, 1, 31, 31, .rw, 0x0⟩ -- R314
def ETU_STAT_LOST : Fld := ⟨0x104, 0x0, 1, 0, 0, .w1c, 0x0⟩ -- R314
def ETU_RING_BASE_LO : Fld := ⟨0x108, 0x0, 1, 31, 0, .rw, 0x0⟩ -- R314
def ETU_RING_BASE_HI : Fld := ⟨0x10C, 0x0, 1, 31, 0, .rw, 0x0⟩ -- R314
def ETU_RING_SIZE_LOG2 : Fld := ⟨0x110, 0x0, 1, 4, 0, .rw, 0xC⟩ -- R314
def ETU_RING_HEAD_RECORDS : Fld := ⟨0x114, 0x0, 1, 31, 0, .ro, 0x0⟩ -- R314
def ETU_RING_TAIL_RECORDS : Fld := ⟨0x118, 0x0, 1, 31, 0, .rw, 0x0⟩ -- R314
def ETU_LOSTCNT_COUNT : Fld := ⟨0x11C, 0x0, 1, 31, 0, .rw, 0x0⟩ -- R314
def ETU_SUPPCNT_COUNT : Fld := ⟨0x120, 0x0, 1, 31, 0, .rw, 0x0⟩ -- R314
def ETU_SEQ_NEXT : Fld := ⟨0x124, 0x0, 1, 31, 0, .ro, 0x0⟩ -- R314
def ETU_TRANSIENT_COUNT : Fld := ⟨0x128, 0x0, 1, 31, 0, .rw, 0x0⟩ -- R314
def ETU_PERMANENT_COUNT : Fld := ⟨0x12C, 0x0, 1, 31, 0, .rw, 0x0⟩ -- R314
def ETU_CORRCNT_COUNT : Fld := ⟨0x130, 0x0, 1, 31, 0, .rw, 0x0⟩ -- R314
def ETU_RCV_STATE : Fld := ⟨0x140, 0x10, 4, 31, 30, .ro, 0x0⟩ -- R314
def ETU_RCV_CAUSE : Fld := ⟨0x140, 0x10, 4, 29, 28, .ro, 0x0⟩ -- R314
def ETU_RCV_EPOCH : Fld := ⟨0x140, 0x10, 4, 15, 0, .ro, 0x0⟩ -- R314
def ETU_RCV_ABORT_ROUND : Fld := ⟨0x144, 0x10, 4, 31, 0, .ro, 0x0⟩ -- R314
def ETU_RCV_ATTEMPTS : Fld := ⟨0x148, 0x10, 4, 7, 0, .ro, 0x0⟩ -- R314
def ETU_RCV_ABORTS : Fld := ⟨0x14C, 0x10, 4, 31, 0, .rw, 0x0⟩ -- R314
def TIL_INSP_MODE : Fld := ⟨0x140, 0x4, 4, 31, 0, .rw, 0x0⟩ -- R315
def TIL_INSP_STAT_VALID : Fld := ⟨0x150, 0x0, 1, 31, 31, .w1c, 0x0⟩ -- R315
def TIL_INSP_STAT_KIND : Fld := ⟨0x150, 0x0, 1, 30, 30, .ro, 0x0⟩ -- R315
def TIL_INSP_STAT_HANDLE : Fld := ⟨0x150, 0x0, 1, 29, 24, .ro, 0x0⟩ -- R315
def TIL_INSP_STAT_BEAT : Fld := ⟨0x150, 0x0, 1, 23, 0, .ro, 0x0⟩ -- R315
def TIL_INSP_UNIT_UNIT : Fld := ⟨0x154, 0x0, 1, 18, 0, .ro, 0x0⟩ -- R315
def VF_ID_TENANT : Fld := ⟨0x0, 0x0, 1, 25, 16, .ro, 0x0⟩ -- R338
def VF_ID_PART : Fld := ⟨0x0, 0x0, 1, 9, 8, .ro, 0x0⟩ -- R338
def VF_IGQ_STAT_READY : Fld := ⟨0x4, 0x0, 1, 31, 31, .ro, 0x1⟩ -- R338
def VF_IGQ_STAT_OVR : Fld := ⟨0x4, 0x0, 1, 30, 30, .w1c, 0x0⟩ -- R338
def VF_IGQ_STAT_UNDR : Fld := ⟨0x4, 0x0, 1, 29, 29, .w1c, 0x0⟩ -- R338
def VF_IGQ_STAT_QRST : Fld := ⟨0x4, 0x0, 1, 28, 28, .w1c, 0x0⟩ -- R338
def VF_IGQ_STAT_TEARDOWN : Fld := ⟨0x4, 0x0, 1, 27, 27, .ro, 0x0⟩ -- R338
def VF_IGQ_STAT_OCC : Fld := ⟨0x4, 0x0, 1, 6, 0, .ro, 0x0⟩ -- R338
def VF_IGQ_WM_HWM : Fld := ⟨0x8, 0x0, 1, 14, 8, .ro, 0x30⟩ -- R338
def VF_IGQ_WM_LWM : Fld := ⟨0x8, 0x0, 1, 6, 0, .ro, 0x10⟩ -- R338
def VF_IGQ_MAXLEN_BYTES : Fld := ⟨0xC, 0x0, 1, 16, 0, .ro, 0x0⟩ -- R338
def VF_LEASE_LO : Fld := ⟨0x10, 0x0, 1, 31, 0, .ro, 0x0⟩ -- R338
def VF_LEASE_HI : Fld := ⟨0x14, 0x0, 1, 31, 0, .ro, 0x0⟩ -- R338
def VF_LEASE_SLOTS_COUNT : Fld := ⟨0x18, 0x0, 1, 15, 0, .ro, 0x0⟩ -- R338
def VF_IGQ_OVRCNT_COUNT : Fld := ⟨0x1C, 0x0, 1, 31, 0, .rw, 0x0⟩ -- R338
def VF_IGQ_BADWR_COUNT : Fld := ⟨0x20, 0x0, 1, 31, 0, .rw, 0x0⟩ -- R338
def VF_RR_BASE_LO : Fld := ⟨0x40, 0x0, 1, 31, 0, .rw, 0x0⟩ -- R338
def VF_RR_BASE_HI : Fld := ⟨0x44, 0x0, 1, 31, 0, .rw, 0x0⟩ -- R338
def VF_RR_SIZE_LOG2 : Fld := ⟨0x48, 0x0, 1, 3, 0, .rw, 0x4⟩ -- R338
def VF_RR_CTL_EN : Fld := ⟨0x4C, 0x0, 1, 31, 31, .rw, 0x0⟩ -- R338
def VF_RR_TAIL_COUNT : Fld := ⟨0x50, 0x0, 1, 31, 0, .rw, 0x0⟩ -- R338
def VF_RR_HEAD_COUNT : Fld := ⟨0x54, 0x0, 1, 31, 0, .ro, 0x0⟩ -- R338
def VF_RR_STAT_STOPPED : Fld := ⟨0x58, 0x0, 1, 1, 1, .ro, 0x0⟩ -- R338
def VF_RR_STAT_ERR : Fld := ⟨0x58, 0x0, 1, 0, 0, .ro, 0x0⟩ -- R338
def VF_RR_LOST_COUNT : Fld := ⟨0x5C, 0x0, 1, 31, 0, .rw, 0x0⟩ -- R338
def VF_INT_STAT_CAUSE : Fld := ⟨0x80, 0x0, 1, 7, 0, .w1c, 0x0⟩ -- R338
def VF_INT_EN_CAUSE : Fld := ⟨0x84, 0x0, 1, 7, 0, .rw, 0x0⟩ -- R338
def VF_INT_MAP_VEC : Fld := ⟨0x88, 0x0, 1, 23, 0, .rw, 0x0⟩ -- R338
def IGQ_SEL_TENANT : Fld := ⟨0x100, 0x0, 1, 8, 0, .rw, 0x0⟩ -- R339
def IGQ_T_CFG_EN : Fld := ⟨0x104, 0x0, 1, 31, 31, .rw, 0x0⟩ -- R339
def IGQ_T_CFG_PART : Fld := ⟨0x104, 0x0, 1, 29, 28, .rw, 0x0⟩ -- R339
def IGQ_T_CFG_GROUP : Fld := ⟨0x104, 0x0, 1, 25, 24, .rw, 0x0⟩ -- R339
def IGQ_T_CFG_CLASS : Fld := ⟨0x104, 0x0, 1, 21, 20, .rw, 0x0⟩ -- R339
def IGQ_T_CFG_HWM : Fld := ⟨0x104, 0x0, 1, 14, 8, .rw, 0x30⟩ -- R339
def IGQ_T_CFG_LWM : Fld := ⟨0x104, 0x0, 1, 6, 0, .rw, 0x10⟩ -- R339
def IGQ_T_LEASE_LO : Fld := ⟨0x108, 0x0, 1, 31, 0, .rw, 0x0⟩ -- R339
def IGQ_T_LEASE_HI : Fld := ⟨0x10C, 0x0, 1, 31, 0, .rw, 0x0⟩ -- R339
def IGQ_T_QUOTA_CELLS : Fld := ⟨0x110, 0x0, 1, 16, 0, .rw, 0x0⟩ -- R339
def IGQ_T_STAT_TEARDOWN : Fld := ⟨0x114, 0x0, 1, 31, 31, .ro, 0x0⟩ -- R339
def IGQ_T_STAT_FULL : Fld := ⟨0x114, 0x0, 1, 30, 30, .ro, 0x0⟩ -- R339
def IGQ_T_STAT_OCC : Fld := ⟨0x114, 0x0, 1, 6, 0, .ro, 0x0⟩ -- R339
def IGQ_T_MAXLEN_BYTES : Fld := ⟨0x118, 0x0, 1, 16, 0, .ro, 0x0⟩ -- R339
def IGQ_T_SLOTS_COUNT : Fld := ⟨0x11C, 0x0, 1, 15, 0, .ro, 0x0⟩ -- R339
def IGQ_PINS_INGRDY : Fld := ⟨0x120, 0x0, 1, 3, 0, .ro, 0x0⟩ -- R339
def IGQ_TD_PENDING : Fld := ⟨0x124, 0x0, 1, 9, 0, .ro, 0x0⟩ -- R339
def HIF_STAT_LINKUP : Fld := ⟨0x100, 0x0, 1, 31, 31, .ro, 0x0⟩ -- R340
def HIF_STAT_WIDTH : Fld := ⟨0x100, 0x0, 1, 7, 4, .ro, 0x0⟩ -- R340
def HIF_STAT_RATE : Fld := ⟨0x100, 0x0, 1, 3, 0, .ro, 0x0⟩ -- R340
def HIF_HA_BASE_CELL : Fld := ⟨0x104, 0x0, 1, 16, 0, .rw, 0x0⟩ -- R340
def HIF_HA_LIMIT_CELL : Fld := ⟨0x108, 0x0, 1, 16, 0, .rw, 0x0⟩ -- R340
def HIF_QOS_WEIGHT : Fld := ⟨0x110, 0x4, 4, 31, 24, .rw, 0x10⟩ -- R340
def HIF_QOS_COUNT : Fld := ⟨0x110, 0x4, 4, 23, 16, .rw, 0x1⟩ -- R340
def HIF_QOS_HOLDOFF : Fld := ⟨0x110, 0x4, 4, 15, 0, .rw, 0x0⟩ -- R340
def HIF_DMA_PFWT_WEIGHT : Fld := ⟨0x120, 0x0, 1, 7, 0, .rw, 0x40⟩ -- R340
def HIF_TD_STAT_DONE : Fld := ⟨0x124, 0x0, 1, 31, 31, .w1c, 0x0⟩ -- R340
def HIF_TD_STAT_LAST : Fld := ⟨0x124, 0x0, 1, 8, 0, .ro, 0x0⟩ -- R340
def HIF_RES_DROP_COUNT : Fld := ⟨0x130, 0x0, 1, 31, 0, .rw, 0x0⟩ -- R340
def HIF_RES_POISON_COUNT : Fld := ⟨0x134, 0x0, 1, 31, 0, .rw, 0x0⟩ -- R340
def HIF_RES_DUP_COUNT : Fld := ⟨0x138, 0x0, 1, 31, 0, .rw, 0x0⟩ -- R340
def MGT_CMD_GO : Fld := ⟨0x100, 0x0, 1, 31, 31, .w1s, 0x0⟩ -- R369
def MGT_CMD_OP : Fld := ⟨0x100, 0x0, 1, 23, 16, .rw, 0x0⟩ -- R369
def MGT_CMD_TAG : Fld := ⟨0x100, 0x0, 1, 15, 0, .rw, 0x0⟩ -- R369
def MGT_RSP_DONE : Fld := ⟨0x140, 0x0, 1, 31, 31, .w1c, 0x0⟩ -- R369
def MGT_RSP_BUSY : Fld := ⟨0x140, 0x0, 1, 30, 30, .ro, 0x0⟩ -- R369
def MGT_RSP_IGNORED : Fld := ⟨0x140, 0x0, 1, 29, 29, .w1c, 0x0⟩ -- R369
def MGT_RSP_STATUS : Fld := ⟨0x140, 0x0, 1, 23, 16, .ro, 0x0⟩ -- R369
def MGT_RSP_TAG : Fld := ⟨0x140, 0x0, 1, 15, 0, .ro, 0x0⟩ -- R369
def MGT_BOOT_READY : Fld := ⟨0x180, 0x0, 1, 31, 31, .ro, 0x0⟩ -- R369
def MGT_BOOT_FAILED : Fld := ⟨0x180, 0x0, 1, 30, 30, .ro, 0x0⟩ -- R369
def MGT_BOOT_STAGE : Fld := ⟨0x180, 0x0, 1, 29, 26, .ro, 0x0⟩ -- R369
def MGT_BOOT_LINKS : Fld := ⟨0x180, 0x0, 1, 25, 25, .ro, 0x0⟩ -- R369
def MGT_BOOT_TIME : Fld := ⟨0x180, 0x0, 1, 24, 24, .ro, 0x0⟩ -- R369
def MGT_BOOT_FAIL_CODE : Fld := ⟨0x180, 0x0, 1, 23, 16, .ro, 0x0⟩ -- R369
def MGT_BOOT_CAL_OK : Fld := ⟨0x180, 0x0, 1, 15, 0, .ro, 0x0⟩ -- R369
def MGT_ARG_WORD : Fld := ⟨0x104, 0x4, 8, 31, 0, .rw, 0x0⟩ -- R369
def MGT_RES_WORD : Fld := ⟨0x144, 0x4, 8, 31, 0, .ro, 0x0⟩ -- R369
def MGT_NONCE_LO : Fld := ⟨0x184, 0x0, 1, 31, 0, .ro, 0x0⟩ -- R369
def MGT_NONCE_HI : Fld := ⟨0x188, 0x0, 1, 31, 0, .ro, 0x0⟩ -- R369
def MGT_SPARE_D : Fld := ⟨0x18C, 0x4, 3, 31, 0, .ro, 0x0⟩ -- R369
def MGT_RSTDISC_COUNT : Fld := ⟨0x198, 0x0, 1, 31, 0, .rw, 0x0⟩ -- R369
def MGT_CLERKRST_COUNT : Fld := ⟨0x19C, 0x0, 1, 31, 0, .rw, 0x0⟩ -- R369
def FSC_STAT_BUSY : Fld := ⟨0x100, 0x0, 1, 31, 31, .ro, 0x0⟩ -- R370
def FSC_STAT_PENDING : Fld := ⟨0x100, 0x0, 1, 15, 0, .ro, 0x0⟩ -- R370
def FSC_RESULT_VAULT : Fld := ⟨0x104, 0x4, 16, 17, 17, .ro, 0x0⟩ -- R370
def FSC_RESULT_TILES : Fld := ⟨0x104, 0x4, 16, 16, 0, .ro, 0x0⟩ -- R370
def BLK_ID_TYPE : Fld := ⟨0x0, 0x0, 1, 31, 16, .ro, 0x0⟩ -- R374
def BLK_ID_INSTANCE : Fld := ⟨0x0, 0x0, 1, 7, 0, .ro, 0x0⟩ -- R374
def BLK_REV_MAJOR : Fld := ⟨0x4, 0x0, 1, 15, 8, .ro, 0x0⟩ -- R374
def BLK_REV_MINOR : Fld := ⟨0x4, 0x0, 1, 7, 0, .ro, 0x0⟩ -- R374
def BLK_CTRL_SNAP_EN : Fld := ⟨0x8, 0x0, 1, 31, 31, .rw, 0x1⟩ -- R374
def BLK_CTRL_ALERT_EN : Fld := ⟨0x8, 0x0, 1, 30, 30, .rw, 0x1⟩ -- R374
def BLK_STAT_PRESENT : Fld := ⟨0xC, 0x0, 1, 31, 31, .ro, 0x1⟩ -- R374
def BLK_STAT_CLKON : Fld := ⟨0xC, 0x0, 1, 30, 30, .ro, 0x0⟩ -- R374
def BLK_STAT_INJPEND : Fld := ⟨0xC, 0x0, 1, 29, 29, .ro, 0x0⟩ -- R374
def BLK_STAT_OWNED : Fld := ⟨0xC, 0x0, 1, 2, 2, .ro, 0x0⟩ -- R374
def BLK_STAT_PART : Fld := ⟨0xC, 0x0, 1, 1, 0, .ro, 0x0⟩ -- R374
def BLK_ERR_INJ : Fld := ⟨0x10, 0x0, 1, 3, 3, .w1c, 0x0⟩ -- R374
def BLK_ERR_CONTROL : Fld := ⟨0x10, 0x0, 1, 2, 2, .w1c, 0x0⟩ -- R374
def BLK_ERR_DATA : Fld := ⟨0x10, 0x0, 1, 1, 1, .w1c, 0x0⟩ -- R374
def BLK_ERR_INFO : Fld := ⟨0x10, 0x0, 1, 0, 0, .w1c, 0x0⟩ -- R374
def BLK_ERR_MASK_MASK : Fld := ⟨0x14, 0x0, 1, 3, 0, .rw, 0x1⟩ -- R374
def BLK_ERR_INJ_ARM : Fld := ⟨0x18, 0x0, 1, 31, 31, .rw, 0x0⟩ -- R374
def BLK_ERR_INJ_KIND : Fld := ⟨0x18, 0x0, 1, 30, 28, .rw, 0x0⟩ -- R374
def BLK_ERR_INJ_LINK : Fld := ⟨0x18, 0x0, 1, 27, 24, .rw, 0x0⟩ -- R374
def BLK_ERR_INJ_BIT1 : Fld := ⟨0x18, 0x0, 1, 21, 16, .rw, 0x0⟩ -- R374
def BLK_ERR_INJ_BIT0 : Fld := ⟨0x18, 0x0, 1, 13, 8, .rw, 0x0⟩ -- R374
def BLK_EXPERT_KEY_OPEN : Fld := ⟨0x1C, 0x0, 1, 31, 31, .ro, 0x0⟩ -- R374
def BLK_EXPERT_KEY_KEY : Fld := ⟨0x1C, 0x0, 1, 15, 0, .wo, 0x0⟩ -- R374
def DEV_ID_FAMILY : Fld := ⟨0x100, 0x0, 1, 31, 24, .ro, 0x4E⟩ -- R384
def DEV_ID_MEMBER : Fld := ⟨0x100, 0x0, 1, 23, 16, .ro, 0x2⟩ -- R384
def DEV_ID_STEPPING : Fld := ⟨0x100, 0x0, 1, 15, 8, .ro, 0x0⟩ -- R384
def DEV_ID_METAL : Fld := ⟨0x100, 0x0, 1, 7, 0, .ro, 0x0⟩ -- R384
def DEV_CHIP_ID_SET : Fld := ⟨0x104, 0x0, 1, 31, 31, .ro, 0x0⟩ -- R384
def DEV_CHIP_ID_RACK : Fld := ⟨0x104, 0x0, 1, 15, 7, .rw, 0x0⟩ -- R384
def DEV_CHIP_ID_BOARD : Fld := ⟨0x104, 0x0, 1, 6, 4, .ro, 0x0⟩ -- R384
def DEV_CHIP_ID_POSITION : Fld := ⟨0x104, 0x0, 1, 3, 0, .ro, 0x0⟩ -- R384
def DEV_CAPS_GRADE : Fld := ⟨0x108, 0x0, 1, 31, 28, .ro, 0x0⟩ -- R384
def DEV_CAPS_TOPGEAR : Fld := ⟨0x108, 0x0, 1, 27, 25, .ro, 0x0⟩ -- R384
def DEV_CAPS_TILES : Fld := ⟨0x108, 0x0, 1, 24, 16, .ro, 0x0⟩ -- R384
def DEV_CAPS_REGIONS : Fld := ⟨0x108, 0x0, 1, 12, 8, .ro, 0x0⟩ -- R384
def DEV_CAPS_PARTS : Fld := ⟨0x108, 0x0, 1, 2, 0, .ro, 0x4⟩ -- R384
def DEV_SERIAL_LO : Fld := ⟨0x10C, 0x0, 1, 31, 0, .ro, 0x0⟩ -- R384
def DEV_SERIAL_HI : Fld := ⟨0x110, 0x0, 1, 31, 0, .ro, 0x0⟩ -- R384
def DEV_ERRSUM_GROUPS : Fld := ⟨0x114, 0x0, 1, 7, 0, .ro, 0x0⟩ -- R384
def FUSE_SEC_SEALED : Fld := ⟨0x100, 0x0, 1, 31, 31, .ro, 0x0⟩ -- R385
def FUSE_SEC_IMG_SIGN_REQ : Fld := ⟨0x100, 0x0, 1, 30, 30, .ro, 0x0⟩ -- R385
def FUSE_SEC_FACTORY_LOCK : Fld := ⟨0x100, 0x0, 1, 29, 29, .ro, 0x0⟩ -- R385
def FUSE_SEC_SVN : Fld := ⟨0x100, 0x0, 1, 22, 16, .ro, 0x0⟩ -- R385
def FUSE_SEC_KEYREV : Fld := ⟨0x100, 0x0, 1, 13, 8, .ro, 0x0⟩ -- R385
def FUSE_SEC_SEAL : Fld := ⟨0x100, 0x0, 1, 7, 0, .ro, 0x0⟩ -- R385
def FUSE_GRADE_GRADE : Fld := ⟨0x104, 0x0, 1, 31, 28, .ro, 0x0⟩ -- R385
def FUSE_GRADE_TOPGEAR : Fld := ⟨0x104, 0x0, 1, 26, 24, .ro, 0x0⟩ -- R385
def FUSE_GRADE_DISREGION : Fld := ⟨0x104, 0x0, 1, 20, 16, .ro, 0x0⟩ -- R385
def FUSE_SPARE_WORD : Fld := ⟨0x108, 0x4, 3, 31, 0, .ro, 0x0⟩ -- R385
def PRT_STAT_STATE : Fld := ⟨0x100, 0x0, 1, 31, 29, .ro, 0x0⟩ -- R386
def PRT_STAT_MODE : Fld := ⟨0x100, 0x0, 1, 28, 28, .ro, 0x0⟩ -- R386
def PRT_STAT_POLICY : Fld := ⟨0x100, 0x0, 1, 27, 27, .ro, 0x0⟩ -- R386
def PRT_STAT_SKIPPED : Fld := ⟨0x100, 0x0, 1, 26, 26, .ro, 0x0⟩ -- R386
def PRT_STAT_REPLAY : Fld := ⟨0x100, 0x0, 1, 25, 25, .ro, 0x0⟩ -- R386
def PRT_STAT_REGIONS : Fld := ⟨0x100, 0x0, 1, 15, 0, .ro, 0x0⟩ -- R386
def PRT_ROUND_ROUND : Fld := ⟨0x104, 0x0, 1, 31, 0, .ro, 0x0⟩ -- R386
def PRT_BEAT_BEAT : Fld := ⟨0x108, 0x0, 1, 23, 0, .ro, 0x0⟩ -- R386
def PRT_ROUND_LEN_BT : Fld := ⟨0x10C, 0x0, 1, 23, 0, .ro, 0x0⟩ -- R386
def PRT_STEP_LO : Fld := ⟨0x110, 0x0, 1, 31, 0, .ro, 0x0⟩ -- R386
def PRT_STEP_HI : Fld := ⟨0x114, 0x0, 1, 31, 0, .ro, 0x0⟩ -- R386
def PRT_LAUNCH_LO : Fld := ⟨0x118, 0x0, 1, 31, 0, .ro, 0x0⟩ -- R386
def PRT_LAUNCH_HI : Fld := ⟨0x11C, 0x0, 1, 31, 0, .ro, 0x0⟩ -- R386
def PRT_SEED_LO : Fld := ⟨0x120, 0x0, 1, 31, 0, .ro, 0x0⟩ -- R386
def PRT_SEED_HI : Fld := ⟨0x124, 0x0, 1, 31, 0, .ro, 0x0⟩ -- R386
def PRT_TAG_LO : Fld := ⟨0x128, 0x0, 1, 31, 0, .ro, 0x0⟩ -- R386
def PRT_TAG_HI : Fld := ⟨0x12C, 0x0, 1, 31, 0, .ro, 0x0⟩ -- R386
def PRT_GOV_GOVERNOR : Fld := ⟨0x130, 0x0, 1, 31, 16, .ro, 0x0⟩ -- R386
def PRT_GOV_DEPUTY : Fld := ⟨0x130, 0x0, 1, 15, 0, .ro, 0x0⟩ -- R386
def PRT_GEARS_FAST : Fld := ⟨0x134, 0x0, 1, 6, 4, .ro, 0x0⟩ -- R386
def PRT_GEARS_SLOW : Fld := ⟨0x134, 0x0, 1, 2, 0, .ro, 0x0⟩ -- R386
def PRT_RUNCNT_COUNT : Fld := ⟨0x138, 0x0, 1, 31, 0, .rw, 0x0⟩ -- R386
def PRT_SKIPCNT_COUNT : Fld := ⟨0x13C, 0x0, 1, 31, 0, .rw, 0x0⟩ -- R386
def ICH_URT_ADDR_RACK : Fld := ⟨0x120, 0x0, 1, 8, 0, .rw, 0x0⟩ -- R429
def ICH_URT_DATA_VALID : Fld := ⟨0x124, 0x0, 1, 7, 7, .rw, 0x0⟩ -- R429
def ICH_URT_DATA_PORT : Fld := ⟨0x124, 0x0, 1, 5, 0, .rw, 0x0⟩ -- R429
def ICH_URT_MISS_COUNT : Fld := ⟨0x128, 0x0, 1, 31, 0, .rw, 0x0⟩ -- R429

/-- The fields of a page of kind til. -/
def tilFields : List Fld :=
  [TIL_ARITH_FLAGS_SPILL, TIL_ARITH_FLAGS_NANIN, TIL_ARITH_FLAGS_GRIDLOSS, TIL_ARITH_FLAGS_POISON, TIL_ARITH_FLAGS_INV, TIL_ARITH_FLAGS_OVF, TIL_ARITH_FLAGS_UNF, TIL_ARITH_FLAGS_INX, TIL_SEQ_STAT_STATE, TIL_SEQ_STAT_LOOP_DEPTH, TIL_SEQ_STAT_PC, TIL_SEQ_BEAT_BEAT, TIL_MX_STAT_CKMIS_ROW, TIL_MX_STAT_CKMIS, TIL_DISPATCH_DROPS_COUNT, TIL_CKMIS_CNT_COUNT, TIL_SEQ_CODE_HANDLE, TIL_SEQ_CODE_ENTRY, TIL_ILL_STAT_VALID, TIL_ILL_STAT_SLOT, TIL_ILL_STAT_REASON, TIL_ILL_STAT_PC, TIL_ILL_WORD_WORD, TIL_HND_RSUM] ++
  [TIL_HND_CLASS, TIL_HND_RETAIN, TIL_HND_ORIENT, TIL_HND_STRIDE8, TIL_HND_ECC, TIL_HND_OWNER, TIL_HND_RIGHTS, TIL_HND_BOUND, TIL_HND_VALID, TIL_HND_CLOSED, TIL_HND_BASE, TIL_SPD_ERR_RQOVF, TIL_SPD_ERR_UNREP, TIL_SPD_ERR_PATROL, TIL_SPD_ERR_UE, TIL_SPD_ERR_CE, TIL_SPD_ERR_REFUSED, TIL_SPD_ERR_COLL, TIL_SPD_COLL_LOSER, TIL_SPD_COLL_WINNER, TIL_SPD_COLL_BEAT, TIL_SPD_COLLX_TIER, TIL_SPD_COLLX_BG, TIL_SPD_CECNT_COUNT] ++
  [TIL_SPD_UECNT_COUNT, TIL_SPD_REPCNT_COUNT, TIL_SPD_REFCNT_COUNT, TIL_SPD_COLLCNT_COUNT, TIL_SPD_UNSEALED_SHEETS, TIL_SPD_CLR_BUSY, TIL_SPD_CLR_REMAIN, TIL_SPD_PATROL_PASSES, TIL_WHEEL_ODD_P3, TIL_WHEEL_ODD_P2, TIL_WHEEL_ODD_P1, TIL_WHEEL_ODD_P0, TIL_WHEEL_EVEN_P3, TIL_WHEEL_EVEN_P2, TIL_WHEEL_EVEN_P1, TIL_WHEEL_EVEN_P0, TIL_WSEQ_VALID, TIL_WSEQ_WHEEL, TIL_WSEQ_START8, TIL_INSP_MODE, TIL_INSP_STAT_VALID, TIL_INSP_STAT_KIND, TIL_INSP_STAT_HANDLE, TIL_INSP_STAT_BEAT] ++
  [TIL_INSP_UNIT_UNIT]

/-- The fields of a page of kind ich0. -/
def ich0Fields : List Fld :=
  [ICH_STAT_REGCAP, ICH_STAT_MULTI, ICH_STAT_SWAPERR, ICH_STAT_SPILL, ICH_STAT_CELLOVR, ICH_STAT_LATE, ICH_STAT_GENMIS, ICH_STAT_DEADLETTER, ICH_STAT_LANDMISS, ICH_STAT_SLOTCONF, ICH_STAT_PASTEND, ICH_STAT_UNLEASED, ICH_DEADLETTER_COUNT, ICH_LANDMISS_COUNT, ICH_LATE_COUNT, ICH_GENMIS_COUNT, ICH_POISONOUT_COUNT, ICH_CELLOVR_COUNT, ICH_SUPPRESS_COUNT, ICH_DRAIN_NS_NS, ICH_TT_SWAP_LO, ICH_TT_SWAP_HI, ICH_SWAP_ARM, ICH_SWAP_HELD] ++
  [ICH_SWAP_ERR, ICH_SWAP_DRAINING, ICH_SWAP_GEN, ICH_CAPT_SLOT_PART, ICH_CAPT_SLOT_PORT, ICH_CAPT_SLOT_SLOT, ICH_CAPT_ROUND_ROUND, ICH_CAPT_CODE_BIT]

/-- The fields of a page of kind ich1. -/
def ich1Fields : List Fld :=
  [ICH_TBL_ADDR_TABLE, ICH_TBL_ADDR_BANK, ICH_TBL_ADDR_PORT, ICH_TBL_ADDR_INDEX, ICH_TBL_DATA_WORD, ICH_TBL_CMD_OP, ICH_TBL_STAT_REFUSED, ICH_TBL_STAT_DONE]

/-- The fields of a page of kind ich2. -/
def ich2Fields : List Fld :=
  [ICH_SDS0_PORTS, ICH_SDS1_PORTS]

/-- The fields of a page of kind ich3. -/
def ich3Fields : List Fld :=
  [ICH_PH_BASE_CELL, ICH_PH_LIMIT_CELL, RWT_EXPIRY_HI, RWT_EXPIRY_LO, RWT_SIZE, RWT_OFF, RWT_SRC, RWT_SMASK, RWT_TMASK, RWT_TARGET, RWT_VALID, RWT_PART, RWT_RD, RWT_WR, RWT_PRIO, RWT_TILE, RWT_HANDLE, RWT_STAT_WINNER, RWT_STAT_MISS, RWT_STAT_MULTI_HIT, RWT_MISS_COUNT, RWT_SERVED_COUNT, ICH_URT_ADDR_RACK, ICH_URT_DATA_VALID] ++
  [ICH_URT_DATA_PORT, ICH_URT_MISS_COUNT]

/-- The fields of a page of kind lnk. -/
def lnkFields : List Fld :=
  [ICL_CTL_EN, ICL_CTL_RETRAIN, ICL_CTL_HOLDREQ, ICL_DOWN_MODE_MODE, ICL_GRACE_NS_NS, ICL_LOSS_NS_NS, ICL_ELASTIC_MAX_SLOTS, ICL_STATE_STATE, ICL_STATE_SCHED, ICL_STATE_CAUSE, ICL_STATE_ATTEMPTS, ICL_LEDGER0_PEER_CHIP, ICL_LEDGER0_PEER_PORT, ICL_LEDGER1_RPL_NS, ICL_LEDGER1_LAT_NS, ICL_VC_MAX, ICL_VC_MIN, ICL_CRCERR_COUNT, ICL_NAKTX_COUNT, ICL_NAKRX_COUNT, ICL_RPLTX_COUNT, ICL_FECCORR_COUNT, ICL_FECUNC_COUNT, ICL_MALFORMED_COUNT] ++
  [ICL_DUP_COUNT, ICL_RPLOVF_COUNT, ICL_NAKSTALE_COUNT, ICL_ELDROP_COUNT, ICL_CREDOVF_COUNT, ICL_ERR_CREDOVF, ICL_ERR_ELDROP, ICL_ERR_NAKSTALE, ICL_ERR_RPLOVF, ICL_ERR_MALFORMED, ICL_ERR_FECUNC, ICL_ERR_CRCERR, ICL_ERR_LEDGER, ICL_ERR_LOSS, ICL_EXR_CTL_MODE, ICL_EXR_CTL_PAT, ICL_EXR_CTL_INJ, ICL_EXR_CTL_INJ_EVERY, ICL_EXR_SLOTS_PERIOD, ICL_EXR_SLOTS_FIRST, ICL_EXR_SEED_SEED, ICL_EXR_TX_COUNT, ICL_EXR_RX_COUNT, ICL_EXR_ERR_COUNT] ++
  [ICL_EXR_LATMIN_NS, ICL_EXR_LATMAX_NS, ICL_EXR_FECH_COUNT]

/-- The fields of a page of kind txffe. -/
def txffeFields : List Fld :=
  [ICL_TXFFE_FIXED, ICL_TXFFE_PRE2, ICL_TXFFE_PRE1, ICL_TXFFE_MAIN, ICL_TXFFE_POST1, ICL_TXFFE_POST2]

/-- The fields of a page of kind tmb. -/
def tmbFields : List Fld :=
  [TMB_CTL_MASTER_A, TMB_CTL_MASTER_B, TMB_CTL_USE_A, TMB_STAT_SEL, TMB_STAT_STATE_A, TMB_STAT_STATE_B, TMB_STAT_HOLDOVER, TMB_STAT_OOT, TMB_STAT_SWITCHED, TMB_POSTMARK_NT, TMB_EPOCH_NT, TMB_NT_FRAC_FRAC, TMB_LTB_LO, TMB_LTB_HI, TMB_OFF_A_NS, TMB_OFF_B_NS, TMB_DAB_NS, TMB_RATE_RATE, TMB_TOL_NS_NS, TMB_HOLD_NS_NS, TMB_PARENT_PORT_A, TMB_PARENT_DIST_A, TMB_PARENT_PORT_B, TMB_PARENT_DIST_B] ++
  [TMB_MASTER_MASTER_A, TMB_MASTER_MASTER_B, TMB_NT_SET_LO, TMB_NT_SET_HI, TMB_GEAR_ARM, TMB_GEAR_NEXT, TMB_GEAR_CUR, TMB_GEAR_TOP, TMB_GEAR_AT_LO, TMB_GEAR_AT_HI, TMB_HOST_T_LO, TMB_HOST_T_HI, TMB_HOST_NT_LO, TMB_HOST_NT_HI, TMB_PTM_CTL_EN, TMB_PTM_CTL_PERIOD_MS]

/-- The fields of a page of kind rgn. -/
def rgnFields : List Fld :=
  [RGN_STAT_EMERG, RGN_STAT_WARN, RGN_STAT_HEADROOM, RGN_STAT_RECAL, RGN_STAT_SKEW, RGN_STAT_CAL_OK, RGN_STAT_SLACK, RGN_VOLT_MV, RGN_TEMP_T, RGN_DROOP_EMERG_MV, RGN_DROOP_WARN_MV, RGN_VMAX_MV, RGN_GUARD_MIN_PS, RGN_SKEW_PS, RGN_VF_VALID, RGN_VF_MV, RGN_CAL_GUARD_MV]

/-- The fields of a page of kind snp. -/
def snpFields : List Fld :=
  [SNP_CTL_NOW, SNP_CTL_RELEASE, SNP_CTL_ARM, SNP_CTL_AT_ROUND, SNP_CTL_AT_PART, SNP_CTL_PIN_IN, SNP_CTL_PIN_OUT, SNP_CTL_ERR_DATA, SNP_CTL_ERR_CTL, SNP_CTL_FENCE, SNP_CTL_OVERWRITE, SNP_AT_LO, SNP_AT_HI, SNP_STAT_HELD, SNP_STAT_CAUSE, SNP_SEQ_COUNT, SNP_MISSED_COUNT, SNP_NT_LO, SNP_NT_HI]

/-- The fields of a page of kind hif. -/
def hifFields : List Fld :=
  [HIF_LB_CTL_EN, HIF_LB_CTL_MODE, HIF_LB_CTL_PARTS, HIF_LB_STAT_LOST, HIF_LB_BASE_LO, HIF_LB_BASE_HI, HIF_LB_SIZE_LOG2, HIF_LB_HEAD_BYTES, HIF_LB_TAIL_BYTES, HIF_LB_LOSTCNT_COUNT, HIF_RP_CTL_EN, HIF_RP_CTL_UNDERRUN, HIF_RP_BASE_LO, HIF_RP_BASE_HI, HIF_RP_SIZE_LOG2, HIF_RP_HEAD_BYTES, HIF_RP_TAIL_BYTES, HIF_RP_IGN_COUNT, HIF_STAT_LINKUP, HIF_STAT_WIDTH, HIF_STAT_RATE, HIF_HA_BASE_CELL, HIF_HA_LIMIT_CELL, HIF_QOS_WEIGHT] ++
  [HIF_QOS_COUNT, HIF_QOS_HOLDOFF, HIF_DMA_PFWT_WEIGHT, HIF_TD_STAT_DONE, HIF_TD_STAT_LAST, HIF_RES_DROP_COUNT, HIF_RES_POISON_COUNT, HIF_RES_DUP_COUNT]

/-- The fields of a page of kind etu. -/
def etuFields : List Fld :=
  [ETU_CTL_EN, ETU_STAT_LOST, ETU_RING_BASE_LO, ETU_RING_BASE_HI, ETU_RING_SIZE_LOG2, ETU_RING_HEAD_RECORDS, ETU_RING_TAIL_RECORDS, ETU_LOSTCNT_COUNT, ETU_SUPPCNT_COUNT, ETU_SEQ_NEXT, ETU_TRANSIENT_COUNT, ETU_PERMANENT_COUNT, ETU_CORRCNT_COUNT, ETU_RCV_STATE, ETU_RCV_CAUSE, ETU_RCV_EPOCH, ETU_RCV_ABORT_ROUND, ETU_RCV_ATTEMPTS, ETU_RCV_ABORTS]

/-- The fields of a page of kind vf. -/
def vfFields : List Fld :=
  [VF_ID_TENANT, VF_ID_PART, VF_IGQ_STAT_READY, VF_IGQ_STAT_OVR, VF_IGQ_STAT_UNDR, VF_IGQ_STAT_QRST, VF_IGQ_STAT_TEARDOWN, VF_IGQ_STAT_OCC, VF_IGQ_WM_HWM, VF_IGQ_WM_LWM, VF_IGQ_MAXLEN_BYTES, VF_LEASE_LO, VF_LEASE_HI, VF_LEASE_SLOTS_COUNT, VF_IGQ_OVRCNT_COUNT, VF_IGQ_BADWR_COUNT, VF_RR_BASE_LO, VF_RR_BASE_HI, VF_RR_SIZE_LOG2, VF_RR_CTL_EN, VF_RR_TAIL_COUNT, VF_RR_HEAD_COUNT, VF_RR_STAT_STOPPED, VF_RR_STAT_ERR] ++
  [VF_RR_LOST_COUNT, VF_INT_STAT_CAUSE, VF_INT_EN_CAUSE, VF_INT_MAP_VEC]

/-- The fields of a page of kind igq. -/
def igqFields : List Fld :=
  [IGQ_SEL_TENANT, IGQ_PINS_INGRDY, IGQ_TD_PENDING]

/-- The fields of a page of kind igqt. -/
def igqtFields : List Fld :=
  [IGQ_T_CFG_EN, IGQ_T_CFG_PART, IGQ_T_CFG_GROUP, IGQ_T_CFG_CLASS, IGQ_T_CFG_HWM, IGQ_T_CFG_LWM, IGQ_T_LEASE_LO, IGQ_T_LEASE_HI, IGQ_T_QUOTA_CELLS, IGQ_T_STAT_TEARDOWN, IGQ_T_STAT_FULL, IGQ_T_STAT_OCC, IGQ_T_MAXLEN_BYTES, IGQ_T_SLOTS_COUNT]

/-- The fields of a page of kind mgt. -/
def mgtFields : List Fld :=
  [MGT_CMD_GO, MGT_CMD_OP, MGT_CMD_TAG, MGT_RSP_DONE, MGT_RSP_BUSY, MGT_RSP_IGNORED, MGT_RSP_STATUS, MGT_RSP_TAG, MGT_BOOT_READY, MGT_BOOT_FAILED, MGT_BOOT_STAGE, MGT_BOOT_LINKS, MGT_BOOT_TIME, MGT_BOOT_FAIL_CODE, MGT_BOOT_CAL_OK, MGT_ARG_WORD, MGT_RES_WORD, MGT_NONCE_LO, MGT_NONCE_HI, MGT_SPARE_D, MGT_RSTDISC_COUNT, MGT_CLERKRST_COUNT]

/-- The fields of a page of kind fsc. -/
def fscFields : List Fld :=
  [FSC_STAT_BUSY, FSC_STAT_PENDING, FSC_RESULT_VAULT, FSC_RESULT_TILES]

/-- The fields of a page of kind hdr. -/
def hdrFields : List Fld :=
  [BLK_ID_TYPE, BLK_ID_INSTANCE, BLK_REV_MAJOR, BLK_REV_MINOR, BLK_CTRL_SNAP_EN, BLK_CTRL_ALERT_EN, BLK_STAT_PRESENT, BLK_STAT_CLKON, BLK_STAT_INJPEND, BLK_STAT_OWNED, BLK_STAT_PART, BLK_ERR_INJ, BLK_ERR_CONTROL, BLK_ERR_DATA, BLK_ERR_INFO, BLK_ERR_MASK_MASK, BLK_ERR_INJ_ARM, BLK_ERR_INJ_KIND, BLK_ERR_INJ_LINK, BLK_ERR_INJ_BIT1, BLK_ERR_INJ_BIT0, BLK_EXPERT_KEY_OPEN, BLK_EXPERT_KEY_KEY]

/-- The fields of a page of kind dev. -/
def devFields : List Fld :=
  [DEV_ID_FAMILY, DEV_ID_MEMBER, DEV_ID_STEPPING, DEV_ID_METAL, DEV_CHIP_ID_SET, DEV_CHIP_ID_RACK, DEV_CHIP_ID_BOARD, DEV_CHIP_ID_POSITION, DEV_CAPS_GRADE, DEV_CAPS_TOPGEAR, DEV_CAPS_TILES, DEV_CAPS_REGIONS, DEV_CAPS_PARTS, DEV_SERIAL_LO, DEV_SERIAL_HI, DEV_ERRSUM_GROUPS]

/-- The fields of a page of kind fuse. -/
def fuseFields : List Fld :=
  [FUSE_SEC_SEALED, FUSE_SEC_IMG_SIGN_REQ, FUSE_SEC_FACTORY_LOCK, FUSE_SEC_SVN, FUSE_SEC_KEYREV, FUSE_SEC_SEAL, FUSE_GRADE_GRADE, FUSE_GRADE_TOPGEAR, FUSE_GRADE_DISREGION, FUSE_SPARE_WORD]

/-- The fields of a page of kind prt. -/
def prtFields : List Fld :=
  [PRT_STAT_STATE, PRT_STAT_MODE, PRT_STAT_POLICY, PRT_STAT_SKIPPED, PRT_STAT_REPLAY, PRT_STAT_REGIONS, PRT_ROUND_ROUND, PRT_BEAT_BEAT, PRT_ROUND_LEN_BT, PRT_STEP_LO, PRT_STEP_HI, PRT_LAUNCH_LO, PRT_LAUNCH_HI, PRT_SEED_LO, PRT_SEED_HI, PRT_TAG_LO, PRT_TAG_HI, PRT_GOV_GOVERNOR, PRT_GOV_DEPUTY, PRT_GEARS_FAST, PRT_GEARS_SLOW, PRT_RUNCNT_COUNT, PRT_SKIPCNT_COUNT]

end Reg

end Sys2Proof.Machine
end

