-- ==== Sys2Proof/Machine/State.lean ====
section
/-! DEFINITION. The state of the part: every register, memory, table, queue, mode and pin the spec gives it, as plain
data, with the reset values of the spec. INVENTORY.md lists each with its rule. -/

namespace Sys2Proof.Machine

/-- Why the machine stops with a fault. No row of the table stops the part, so no meaning raises one. -/
inductive Fault where
  /-- Raised by nothing: kept so that the type has a name to speak of. Safe. -/
  | stuck
  deriving DecidableEq, Repr

/-- Why a command has no meaning. -/
inductive Refusal where
  /-- Raised by an arm of `exec` that has no meaning yet; carries the row's mnemonic. Safe. -/
  | notModelled (mnemonic : String)
  deriving DecidableEq, Repr

/-- An incident as a block reports it (10 R285): the fields of its record that the block supplies. -/
structure Incident where
  nt : Nat
  block : Nat
  inst : Nat
  code : Nat
  round : Option Nat
  beat : Nat
  op : Nat
  handle : Nat
  offset : Nat
  part : Option Nat
  tenant : Option Nat
  syndrome : Nat
  extra : Nat
  deriving DecidableEq, Repr

/-! ### Tiles -/

/-- A weight plane (03 R72): the words as loaded, the PAIR code it was loaded under (none since reset) and the poison of
the whole plane (04 R123). -/
structure Plane where
  pair : Option Nat
  poison : Bool
  elems : Map (PV 32)
  scales : Map (PV 32)
  deriving DecidableEq, Repr

def Plane.reset : Plane := ⟨none, false, [], []⟩

/-- The registers of a tile (04 Table 2) with the Tally file, the planes and the stamp counters. Unlisted entries hold
the tile reset value (04 R96): 0 unpoisoned, 1 for DN, CKV set. `v` is keyed 64 × register + lane, `ptab` and `tally`
likewise. -/
structure Arch where
  sreg : Map (PV 32)
  areg : Map (PV 32)
  preg : Map (PV 64)
  vreg : Map (PV 32)
  mc : Map (PV 64)
  dn : Map Nat
  ptab : Map (BitVec 6)
  ptabPoison : Map Bool
  dcnt : Map Nat
  tally : Map TEnt
  cksum : Map (BitVec 136)
  ckvClear : Map Bool
  plane0 : Plane
  plane1 : Plane
  stamps : Map Nat
  deriving DecidableEq, Repr

def Arch.reset : Arch :=
  ⟨[], [], [], [], [], [], [], [], [], [], [], [], .reset, .reset, []⟩

/-- An open counted loop (03 R65): first and last bundle of the body and the passes left, the current one included. -/
structure LoopFrame where
  first : Nat
  last : Nat
  left : Nat
  deriving DecidableEq, Repr

/-- The sequencer (03 R63 to R66): the next bundle, the beat it issues in, beats of WAIT left, open loops (innermost
first), and the beat in which the tile last issued a bundle. -/
structure Seq where
  pc : Nat
  beat : Nat
  wait : Nat
  loops : List LoopFrame
  lastIssue : Nat
  deriving DecidableEq, Repr

def Seq.reset : Seq := ⟨0, 0, 0, [], 0⟩

/-- One operand of an operation in flight: handle, offset read at issue, and whether its A register was poisoned. -/
structure Opnd where
  h : Nat
  off : Nat
  bad : Bool
  deriving DecidableEq, Repr

/-- A row of a stream in the array (03 R74): its Tally row, entry beat, what it adds to each column and to the checksum
entry, and whether its result is open because the plane was being loaded or held another format (03 R73, 04 R110). -/
structure StreamRow where
  row : Nat
  entry : Nat
  cols : List Contrib
  check : Contrib
  opened : Bool
  deriving DecidableEq, Repr

/-- What a data mover operation does. -/
inductive DmKind where
  | copy
  | fill (w : PV 32)
  | trans (elemBits : Nat)
  | gatherE (size : Nat)
  | scatterE (size : Nat)
  | gatherR (u : Nat)
  | scatterR (u : Nat)
  deriving DecidableEq, Repr

/-- One slot of an index vector: an index, nothing, or poisoned (03 R89, 04 R123). -/
inductive IdxSlot where
  | idx (i : Nat)
  | nothing
  | poisoned
  deriving DecidableEq, Repr

/-- Operations in flight, each with its issue beat and the operands and data read so far (03 R68 to R89). -/
inductive Flight where
  | ld (iss sd : Nat) (o : Opnd) (data : PV 32)
  | st (iss : Nat) (o : Opnd) (data : PV 32)
  | dmv (iss : Nat) (kind : DmKind) (n : Nat) (src dst : Opnd) (idx : List IdxSlot) (taint : Bool)
      (buf : Map (PV 32))
  | mxload (iss : Nat) (plane : Bool) (pair : Nat) (mcPoison : Bool) (o sc : Opnd) (elems scales : Map (PV 32))
  | mxstream (iss : Nat) (plane chk : Bool) (m t0 : Nat) (o sc : Opnd) (mc : PV 64) (elems scales : Map (PV 32))
      (rows : List StreamRow)
  | tclr (iss t0 n : Nat)
  | tload (iss t0 n : Nat) (o : Opnd) (buf : Map (PV 32))
  | tdrain (iss t0 n : Nat) (o sc : Opnd) (clr : Bool) (mc : PV 64) (out scout : Map (PV 32))
  | vres (iss due vd : Nat) (lanes : List (Nat × Word × PV 32)) (flags : AFlags)
  | pres (iss due pd : Nat) (mask val : BitVec 64) (poison : Bool) (flags : AFlags)
  | sres (iss due sd : Nat) (v : PV 32)
  | vld (iss vd : Nat) (o : Opnd) (mask : BitVec 64) (mp : Bool) (buf : Map (PV 32))
  | vptld (iss t : Nat) (o : Opnd) (buf : Map (PV 32))
  | vst (iss : Nat) (o : Opnd) (words : List (Option (PV 32)))
  | vdispatch (iss vd : Nat) (lanes : List (PV 32)) (mask : BitVec 64) (mp : Bool) (cap : PV 32)
      (res : List (Nat × Word × PV 32))
  | vdclr (iss : Nat)
  deriving DecidableEq, Repr

/-- Work queued for the scrubber (05 R153, R154): the write-back of a corrected word, or the repair of a lost word with
the row data read so far and the rowsum word. -/
inductive Repair where
  | writeBack (unit word : Nat)
  | rebuild (unit word : Nat) (h : Nat) (step : Nat) (row : Map (PV 32)) (sum : Word) (touched : Bool)
  deriving DecidableEq, Repr

/-- A reseal in service (05 R152): the sheet, rows read so far and their rowsums. -/
structure Reseal where
  sheet : Nat
  rows : Nat
  sums : Map (PV 32)
  target : Nat
  deriving DecidableEq, Repr

/-- One job of the clear engine (05 R156, R158): the tenant whose handles are closed, or none for retained ranges and
unloaded images, the units left to clear in order, and the handles that the job closed. -/
structure ClearJob where
  tenant : Option Nat
  ranges : List (Nat × Nat)
  closed : List Nat
  deriving DecidableEq, Repr

/-- A retained range (05 R158). -/
structure Retained where
  tag : Nat
  base : Nat
  bound : Nat
  classW : Bool
  rsum : Nat
  deriving DecidableEq, Repr

/-- A unit access of the interchange: the fabric port of its parcel (47, the highest, for a host run; DESIGN CHOICE, log entry
92), the beat of its operation's first access, and what it reads (class FDP, or FAR for the read of an addition) or writes. -/
structure FabAcc where
  port : Nat
  first : Nat
  tile : Nat
  handle : Nat
  unit : Nat
  cls : Nat
  write : Bool
  tenant : Option Nat
  deriving DecidableEq, Repr

/-- A tile: registers, sequencer, operations in flight, scratchpad words (keyed 32 × unit + word in ROW view), the RV
bits, the work of the scrubber and the clear engine, the port uses that the scrubber, the clear engine and window accesses took
(beat, bank group, class), the unit accesses that the interchange made, each with its beat, and the beats in which a collision
incident was raised (05). -/
structure Tile where
  arch : Arch
  seq : Seq
  flight : List Flight
  entryFree : Nat
  weightFree : Nat
  rowFree : Nat
  dmvFree : Nat
  spd : Map (BitVec 40)
  rv : Map Bool
  repairs : List Repair
  reseal : Option Reseal
  patrol : Map Nat
  patrolNext : Nat
  clear : List ClearJob
  claims : List (Nat × Nat × Nat)
  made : List (Nat × FabAcc)
  collBeats : List Nat
  wheel : Nat
  wheelStart : Option Nat
  retained : List Retained
  deriving DecidableEq, Repr

def Tile.reset : Tile :=
  { arch := .reset, seq := .reset, flight := [], entryFree := 0, weightFree := 0, rowFree := 0, dmvFree := 0, spd := [],
    rv := [], repairs := [], reseal := none, patrol := [], patrolNext := 0, clear := [], claims := [], made := [], collBeats := [],
    wheel := 0, wheelStart := none, retained := [] }


/-! ### Frames of the link (07) -/

/-- Header of a parcel or packet (07 Table 4). `round` is ROUND or TARGET, `slot` is SLOT or TAG. -/
structure Hdr where
  ver : Nat
  cls : Nat
  gen : Bool
  poison : Bool
  kind : Nat
  fwded : Bool
  retry : Bool
  last : Bool
  manifest : Bool
  postcode : Nat
  src : Nat
  dst : Nat
  round : Nat
  slot : Nat
  hops : Nat
  seq : Nat
  len : Nat
  offset : Nat
  deriving DecidableEq, Repr

/-- A parcel or packet: header and payload words, lowest byte first. -/
structure Frame where
  hdr : Hdr
  data : List Word
  deriving DecidableEq, Repr

/-! ### Interchange (06) -/

/-- State of a named cell (06 R180). -/
inductive CellState where
  | empty | full | bad
  deriving DecidableEq, Repr

/-- A pigeonhole cell (06 R179). -/
structure Cell where
  st : CellState
  frame : Option Frame
  deriving DecidableEq, Repr

def Cell.reset : Cell := ⟨.empty, none⟩

/-- An accepted parcel in a staging cell until its due beat: partition, bank, logical port, entry and parcel index, and
the NT at which its staging completed (06 R174, R179). -/
structure Staged where
  part : Nat
  bank : Nat
  port : Nat
  entry : Nat
  i : Nat
  nt : Nat
  frame : Frame
  deriving DecidableEq, Repr

/-- A request accepted through a remote window whose units are still to be moved (06 R197, R198): ingress port and the
packet's place in its pool, tile, handle and bytes, what it writes, how many units have been moved, and the words read. -/
structure WinJob where
  port : Nat
  pkt : Nat
  frame : Frame
  tile : Nat
  handle : Nat
  byte : Nat
  len : Nat
  moved : Nat
  buf : List (PV 32)
  deriving DecidableEq, Repr

/-- The interchange: timetables and landing tables (key ((47 × table + port) × 2 + bank) × 32,768 + index), lease maps
(key 64 × port + phase, value VALID and partition), port names (key (2 × partition + bank) × 64 + logical port, value
VALID and physical port), cells, staged parcels, parcels whose destination is to be poisoned at their due beat, unit
accesses of window requests by region port, direction and beat, route table and window requests. -/
structure Ich where
  tables : Map (BitVec 128)
  lease : Map Nat
  names : Map Nat
  cells : Map Cell
  staged : List Staged
  faulted : List (Nat × Nat × Nat × Nat)
  regUse : Map Nat
  urt : Map Nat
  windows : List WinJob
  deriving DecidableEq, Repr

def Ich.reset : Ich :=
  { tables := [], lease := [], names := [], cells := [], staged := [], faulted := [], regUse := [], urt := [],
    windows := [] }

/-! ### Links (07) -/

/-- A pending replay: its SEQ and the beat in which its NAK was received (07 R215). -/
structure PendingReplay where
  seq : Nat
  beat : Nat
  deriving DecidableEq, Repr

/-- A remote window as a request matched it when its header was staged (06 R195): tile, handle, first unit and size. -/
structure WinEntry where
  tile : Nat
  handle : Nat
  off : Nat
  size : Nat
  deriving DecidableEq, Repr

/-- A packet in the receive pool (07 R221): its place, VC, units of 64 B, whether it is to be forwarded, whether it has been
served and can leave, and for a request of the window class the window that it matched. -/
structure PoolPkt where
  id : Nat
  vc : Nat
  units : Nat
  frame : Frame
  fwd : Bool
  done : Bool
  win : Option WinEntry
  deriving DecidableEq, Repr

/-- A packet queued for a port: the packet, and the port and place in the pool it came from when it is forwarded. -/
structure Queued where
  frame : Frame
  origin : Option (Nat × Nat)
  deriving DecidableEq, Repr

/-- A request that the chip has sent over a link (07 R223): the words it asks for, and the status and data of its answer once it is
in. The requests of one tag are the parts of one operation (10 R291; DESIGN CHOICE, log entry 99). -/
structure Request where
  tag : Nat
  dst : Nat
  part : Nat
  len : Nat
  answer : Option (Nat × List (PV 32))
  deriving DecidableEq, Repr

/-- An ANNOUNCE as the peer last sent it (08 Table 1). -/
structure Ann where
  lock : Bool
  master : Nat
  dist : Nat
  seq : Nat
  epoch : Nat
  deriving DecidableEq, Repr

/-- One time domain on one link (08 R235 to R237): own XSEQ, the departure times of the last 16 EXCHANGEs sent (own NT,
8 fractional bits), EXCHANGEs sent since the last ANNOUNCE, the peer's last XSEQ with its arrival, its ANNOUNCE, and the number
of the last passing of NT for which an EXCHANGE was sent. -/
structure PeerTime where
  xseq : Nat
  sent : List (Nat × Nat)
  count : Nat
  last : Option (Nat × Nat)
  ann : Option Ann
  mark : Option Nat
  deriving DecidableEq, Repr

def PeerTime.reset : PeerTime := ⟨0, [], 0, none, none, none⟩

/-- What a TRAIN symbol of the peer said (07 Table 6). -/
structure TrainSym where
  chip : Nat
  port : Nat
  state : Nat
  resume : Bool
  next : Nat
  deriving DecidableEq, Repr

/-- One direction pair of a link (07): both sequence spaces with their buffers, pools and credits, the times of its timers, what
its training and calibration found, its exerciser and its time domains. `sSpan` counts the scheduled SEQs from the first
to the highest received, up to 1,024; `taken` are the starts of slots in which a parcel has left, `left` those of the scheduled slots
whose parcel has left or been dropped; `exrMiss` are the places in the exerciser's stream of parcels that have not come, `exrPat` is
where its lane pattern stands. `tries` counts the attempts of a training; `calSent`, `calT0`
and `calT3` are the trial under way with its departure and its return, `calT1` the staging of the peer's trial, on the local time
base; `rxLeft` the flits left of the frame being received, and `rxWait` that its length is still to come; `rxScr` the scrambled
bits last received, 0 after reset (PRESUMED, log entry 96); `peerLock` that the peer has said it has time. -/
structure Link where
  sNext : Nat
  sBuf : List Frame
  pend : List PendingReplay
  sHigh : Option Nat
  sGot : List Nat
  sSpan : Nat
  sExp : Nat
  uNext : Nat
  uBuf : List Frame
  uBack : List Frame
  uExp : Nat
  queue : List Queued
  last13 : Bool
  pool : List PoolPkt
  poolId : Nat
  lim : Map Nat
  rcv : Map Nat
  buf : Map Nat
  sent : Map Nat
  peer : Map Nat
  lastV : Nat
  ackS : Nat
  ackU : Nat
  ackSNt : Nat
  ackUNt : Nat
  nakNt : Option Nat
  badRun : Nat
  framing : Bool
  lossNt : Option Nat
  lastGood : Nat
  stateNt : Nat
  resumed : List Nat
  train : Option TrainSym
  latMax : Nat
  rplMax : Nat
  latTrials : Nat
  rplTrials : Nat
  requests : List Request
  taken : List Nat
  left : List Nat
  exrTx : BitVec 31
  exrRx : BitVec 31
  exrMiss : List (Nat × BitVec 31)
  exrPat : Nat
  exrCount : Nat
  exrInjected : Bool
  exrNaks : Nat
  tries : Nat
  calSent : Option Frame
  calT0 : Nat
  calT3 : Option Nat
  calT1 : Nat
  rxLeft : Nat
  rxWait : Bool
  rxScr : Nat
  peerLock : Bool
  timeA : PeerTime
  timeB : PeerTime
  deriving DecidableEq, Repr

def Link.reset : Link :=
  { sNext := 0, sBuf := [], pend := [], sHigh := none, sGot := [], sSpan := 0, sExp := 0, uNext := 0, uBuf := [], uBack := [], uExp := 0,
    queue := [], last13 := false, pool := [], poolId := 0, lim := [], rcv := [], buf := [], sent := [], peer := [],
    lastV := 0, ackS := 0, ackU := 0, ackSNt := 0, ackUNt := 0, nakNt := none, badRun := 0, framing := false,
    lossNt := none, lastGood := 0, stateNt := 0, resumed := [], train := none, latMax := 0, rplMax := 0, latTrials := 0,
    rplTrials := 0, requests := [], taken := [], left := [], exrTx := 1, exrRx := 1, exrMiss := [], exrPat := 0, exrCount := 0, exrInjected := false,
    exrNaks := 0, tries := 0, calSent := none, calT0 := 0, calT3 := none, calT1 := 0, rxLeft := 0, rxWait := false, rxScr := 0,
    peerLock := false, timeA := .reset, timeB := .reset }

/-! ### Time (08) -/

/-- A time domain (08 R237, R238, R243): samples kept while acquiring (offset and delay, 8 fractional bits), the rate sum
and the rate it gives, the domain's time minus NT in 2^−40 ns, the parent's port, the NT of its last EXCHANGE, and the last
ANN_SEQ with the NT at which it advanced. -/
structure Domain where
  samples : List (Int × Int)
  integ : Int
  rate : Int
  off : Int
  parent : Option Nat
  lastEx : Nat
  annSeq : Nat
  annNt : Nat
  deriving DecidableEq, Repr

def Domain.reset : Domain := ⟨[], 0, 0, 0, none, 0, 0, 0⟩

/-- The timebase beside its registers: the domains, the offset D frozen at a switch-over (8 fractional bits), since when it
is in holdover, the last time-tolerance incident, whether a selected domain without a master has been reported, the last host time
pair and when its dialog was made, the beat anchor, the NT of the last gear change and the gear the spare PLLs are locked to (08). -/
structure TimeBase where
  domA : Domain
  domB : Domain
  frozen : Int
  holdNt : Option Nat
  ootNt : Option Nat
  noMaster : Bool
  hostPair : Nat × Nat
  ptmNt : Option Nat
  anchor : Nat
  gearNt : Nat
  spareGear : Option Nat
  deriving DecidableEq, Repr

def TimeBase.reset : TimeBase := ⟨.reset, .reset, 0, none, none, false, (0, 0), none, 0, 0, none⟩

/-- What a chip reports of a restorable handle of a lost position (10 R306): partition, lost chip, reporting chip, the handle's place
among the restorable ones, and the CRC-32C digest of its contents. -/
structure DigestReport where
  part : Nat
  lost : Nat
  chip : Nat
  index : Nat
  digest : Nat
  deriving DecidableEq, Repr

/-- A LAUNCH command under way (12 R362): the partition, the launch NT in ns, and the chips that have not acknowledged. -/
structure Launching where
  part : Nat
  nt : Nat
  waiting : List Nat
  deriving DecidableEq, Repr

/-- The Clerk's part in governing jobs: gear and boundary announced, chips that have not acknowledged, whether it has resent, the
outstanding poll with the answers in so far, chips declared failed for want of an acknowledgement (08 R250), the chip that polls
this one and the gear it asks for, the chips that have reported a partition loaded (partition, chip and NT, 12 R362), the launch
under way, and the digests reported (10 R306). -/
structure Governor where
  announced : Option (Nat × Nat)
  waiting : List Nat
  resent : Bool
  poll : Option Nat
  answers : List (Nat × Bool)
  failed : List Nat
  asked : Option (Nat × Nat)
  loaded : List (Nat × Nat × Nat)
  launching : Option Launching
  digests : List DigestReport
  deriving DecidableEq, Repr

def Governor.reset : Governor := ⟨none, [], false, none, [], [], none, [], none, []⟩

/-- A region monitor beside its registers (08 R253, R256): the adaptive offset A in mV, the reference slack of each gear,
the NT since which the slack has exceeded twice the guard, a set-point change the regulator has not yet reported, whether an
emergency holds the rail at RGN_VMAX, the values, by field, that a written register keeps until the next measurement (08 R259), and the NT of the last measurement. -/
structure Rmon where
  offset : Nat
  reference : List Nat
  above : Option Nat
  settling : Bool
  held : Bool
  old : List (Nat × Nat)
  lastNt : Option Nat
  deriving DecidableEq, Repr

def Rmon.reset : Rmon := ⟨0, [], none, false, false, [], none⟩

/-! ### Host interface (11) -/

/-- An admitted descriptor (11 R320, R322): its fields, the NT of its acceptance, its payload, whether the Letterbook
holds a reservation for its record (09 R274), and the number of its window write. -/
structure Desc where
  addr : Nat
  len : Nat
  prio : Nat
  tag : Nat
  user : List Byte
  nt : Nat
  payload : List Byte
  lbRes : Bool
  win : Nat
  deriving DecidableEq, Repr

/-- An entry a collection gathered: its tenant, request slot and descriptor, and whether it was removed since (11 R324,
R328). -/
structure Gathered where
  tenant : Nat
  rslot : Nat
  desc : Desc
  removed : Bool
  undr : Bool
  deriving DecidableEq, Repr

/-- A collection kept for replay (10 R300): the round whose start made it, its NT, and what it gathered. -/
structure Collection where
  round : Nat
  nt : Nat
  entries : List Gathered
  deriving DecidableEq, Repr

/-- What waits to be written to a result ring (11 R332, R334): a frame with its bytes and result slot, or a status; `run` is the beat
and the index of the host run entry it comes from, if it comes from one. -/
structure ResultItem where
  status : Nat
  noframe : Bool
  tag : Nat
  round : Nat
  rslot : Nat
  data : List Byte
  run : Option (Nat × Nat)
  deriving DecidableEq, Repr

/-- A moderated interrupt vector (11 R319, R335): the address and the data of its message, events accumulated and the NT of the
first, the mask and the pending bit. -/
structure MsixVec where
  addr : Nat
  data : Nat
  events : Nat
  since : Option Nat
  masked : Bool
  pending : Bool
  deriving DecidableEq, Repr

/-- Vectors are masked after reset (PRESUMED, log entry 11). -/
def MsixVec.reset : MsixVec := ⟨0, 0, 0, none, true, false⟩

/-- Teardown of a tenant (11 R337). -/
inductive Teardown where
  | none | asked | clearing
  deriving DecidableEq, Repr

/-- A tenant's queue (11). `flrNt` is the NT of the FLR that asked for the teardown and `held` the filling bank as it stood then;
`leaseWas` is the NT of a lease write and the lease before it: a collection at or before those NTs, still to be made, finds these
(R324, R337). `ringBad` is a ring that an invalid entry stopped (R334). -/
structure Tenant where
  fetching : List Desc
  filling : List Desc
  full : Bool
  results : List ResultItem
  vectors : Map MsixVec
  teardown : Teardown
  flrNt : Nat
  held : List Desc
  leaseWas : Option (Nat × Nat)
  ringBad : Bool
  deriving DecidableEq, Repr

def Tenant.reset : Tenant := ⟨[], [], false, [], [], .none, 0, [], none, false⟩

/-- An arbiter of host DMA (11 R336): the requester it comes to next, each one's deficit in bytes, and the requests that wait, each
with its host address and bytes. Requester t is tenant t, and 512 the PF. -/
structure Arbiter where
  next : Nat
  deficit : Map Nat
  queues : Map (List (Nat × Nat))
  deriving DecidableEq, Repr

/-- The first requester comes next (DESIGN CHOICE, log entry 99). -/
def Arbiter.reset : Arbiter := ⟨0, [], []⟩

/-- A Letterbook record under way to host memory (09 R271, R272). -/
structure LbRecord where
  bytes : List Byte
  deriving DecidableEq, Repr

/-- Letterbook records lost since the last one written (09 R272, R274): of the first its NT in ns, round and partition,
and how many records and frames. -/
structure LbGap where
  nt : Nat
  round : Nat
  part : Nat
  records : Nat
  frames : Nat
  deriving DecidableEq, Repr

/-- The host interface beside its registers (11; 09 R270 to R276): `winSeq` counts window writes admitted, and the arbiters serve
payload fetches and writes. -/
structure Hif where
  vfEnable : Bool
  numVfs : Nat
  hostRun : Map (BitVec 128)
  tenants : Map Tenant
  pfVectors : Map MsixVec
  ingrdy : Nat
  lbSeq : Nat
  lbGap : Option LbGap
  lbWriting : List LbRecord
  winSeq : Nat
  fetchArb : Arbiter
  writeArb : Arbiter
  deriving DecidableEq, Repr

def Hif.reset : Hif :=
  { vfEnable := false, numVfs := 0, hostRun := [], tenants := [], pfVectors := [], ingrdy := 0, lbSeq := 0, lbGap := none,
    lbWriting := [], winSeq := 0, fetchArb := .reset, writeArb := .reset }

/-! ### Partitions (01, 10) -/

/-- A manifest parcel held for a round (01 R31, R32). -/
structure Manifest where
  round : Nat
  chip : Nat
  part : Nat
  run : Bool
  deriving DecidableEq, Repr

/-- A round-start state S_j (10 R292): the registers of the partition's tiles, their dispatch and checksum counts, STEP,
the round, the decision, the generation and what the swap registers held. -/
structure RoundStart where
  round : Nat
  tiles : Map Arch
  drops : List (Nat × Nat × Nat)
  step : Nat
  runs : Bool
  gen : Nat
  arm : Nat
  swapT : Nat
  draining : Nat
  swapNt : Option Nat
  deriving DecidableEq, Repr

/-- An aborting incident as REPLAY_COMPARE compares it (10 R301), with what a retirement logs of it (R302). -/
structure Fault4 where
  chip : Nat
  block : Nat
  inst : Nat
  code : Nat
  seq : Nat
  syndrome : Nat
  deriving DecidableEq, Repr

/-- A failover of this chip's job (10 R306): the chip that is replaced, the image as it stood, the T that the governor sent, in ns, and
the stages reached. -/
structure Failover where
  lost : Nat
  image : Option Image
  swapAt : Option Nat
  sectionLoaded : Bool
  detours : Bool
  streamed : Bool
  digests : Bool
  deriving DecidableEq, Repr

/-- A partition of the chip: the image it holds, where its rounds stand (the NT of the last round-start position and its
gear, the NT and number of the next, the launch and stop NT set), its recovery state with the gear in force when an emergency aborted
its round, the link losses told (by chip, to chip), the failovers under way and the spares that stand in for a lost chip, whether this chip governs the job as deputy now
or from the next round start, and the high word of STEP as last latched (13 R386). -/
structure Part where
  image : Option Image
  gear : Nat
  startNt : Nat
  nextNt : Nat
  nextRound : Nat
  launchNt : Option Nat
  stopNt : Option Nat
  decision : Bool
  starts : List RoundStart
  manifests : List Manifest
  collections : List Collection
  delivered : List (Nat × Nat × Nat)
  maxRound : Option Nat
  swapNt : Option Nat
  heldBank : Option Nat
  fenceAsked : Bool
  emerg : Bool
  emergGear : Nat
  link : Bool
  abortNt : Nat
  replayAt : Option Nat
  notices : List (Nat × Nat × Nat × Nat)
  attempt : List Fault4
  lastAttempt : List Fault4
  districts : List Nat
  rollcall : Option Nat
  lost : List Nat
  lossTold : List (Nat × Nat)
  failovers : List Failover
  spent : List Nat
  deputyNext : Bool
  deputy : Bool
  stepLatch : Nat
  deriving DecidableEq, Repr

def Part.reset : Part :=
  { image := none, gear := 0, startNt := 0, nextNt := 0, nextRound := 0, launchNt := none, stopNt := none,
    decision := true, starts := [], manifests := [], collections := [], delivered := [],
    maxRound := none, swapNt := none, heldBank := none, fenceAsked := false, emerg := false, emergGear := 0, link := false, abortNt := 0,
    replayAt := none, notices := [], attempt := [], lastAttempt := [], districts := [], rollcall := none, lost := [],
    lossTold := [], failovers := [], spent := [], deputyNext := false, deputy := false, stepLatch := 0 }

/-! ### Incidents and franks (09, 10) -/

/-- A frank detected and not yet latched: its frank NT, the timebase cycle in which its triggers were detected, and its causes as
bits [4:0] of SNP_STAT.CAUSE (09 R279, R281). -/
structure Frank where
  nt : Nat
  seen : Nat
  causes : Nat
  deriving DecidableEq, Repr

/-- Franks: those pending, the snapshots (key 64 × page + word), and until when the chip drives FRANK_N (09). -/
structure Franks where
  pending : List Frank
  snaps : Map Nat
  driveUntil : Option Nat
  deriving DecidableEq, Repr

def Franks.reset : Franks := ⟨[], [], none⟩

/-! ### Management and module (12, 14, 15) -/

/-- An entry of the retirement log in flash (12 R347), and its mark as a suspected image fault (R368), which the layout of the entry has no
place for. -/
structure RetireEntry where
  kind : Nat
  index : Nat
  seq : Nat
  syndrome : Nat
  nt : Nat
  state : Nat
  suspect : Bool
  deriving DecidableEq, Repr

/-- A topology announcement as accepted (15 R421): origin, version, payload, and the NT at which it was last heard. -/
structure Topo where
  origin : Nat
  version : Nat
  bytes : List Byte
  heard : Nat
  deriving DecidableEq, Repr

/-- The management complex (12): fuses by word, the flash (the two Clerk copies, the board configuration record, the
retirement log), the Clerk, resets in progress, the hidden tile of each region, the topology map, records kept for the
Clerk with the counts of 10 R286, and resets among them that took the chip out of a job: SEQ, partition and chip to be told. -/
structure Mgmt where
  fuses : Map (BitVec 32)
  copyA : Option ClerkImage
  copyB : Option ClerkImage
  runningCopy : Option Bool
  runningSvn : Nat
  boardRecord : List Byte
  retireLog : List RetireEntry
  clerkUp : Bool
  clerkRecords : List (List Byte)
  leaves : List (Nat × Nat × Nat)
  clerkInbox : List Frame
  resets : List Scope
  mbxScope : Option Scope
  hidden : Map Nat
  daport : Bool
  recordCounts : List (Nat × Nat × Nat × Nat)
  topo : List Topo
  topoVersion : Nat
  topoSent : List (List Byte)
  topoNt : Nat
  spdmVersion : Bool
  spdmCaps : Bool
  spdmAlgs : Bool
  deriving DecidableEq, Repr

/-- The main rails of the carrier (14 Table 7); those of the regions are one group. -/
inductive MainRail where
  | vchip | vvault | vserD | vserA | vopt | vrgn
  deriving DecidableEq, Repr

/-- The main rails in their order at power-up: 1, 2, 3 with two rails, 4 and 5. -/
def MainRail.order : List MainRail := [.vchip, .vvault, .vserD, .vserA, .vopt, .vrgn]

/-- A rail's voltage in mV; each region monitor sets its region's own. -/
def MainRail.mv : MainRail → Option Nat
  | .vchip => some 750
  | .vvault => some 700
  | .vserD => some 800
  | .vserA => some 1200
  | .vopt => some 3300
  | .vrgn => none

/-- State of the test access port (IEEE 1149.1). -/
inductive Tap where
  | reset | idle | selDr | capDr | shiftDr | exit1Dr | pauseDr | exit2Dr | updDr
  | selIr | capIr | shiftIr | exit1Ir | pauseIr | exit2Ir | updIr
  deriving DecidableEq, Repr

/-- The module (14): the time of the always-on domain, in 2^−40 ns, which no reset restarts, pins driven, inputs with the times at
which the auxiliary one came into range and the 48 V one fell, the main rails that are on in the order they came on, faults, sensors and
the test access port, with what its debug access port holds for the next capture. -/
structure Module where
  clock : Nat
  aux : Bool
  auxGood : Bool
  main48 : Bool
  inputsNt : Nat
  lost48Nt : Nat
  rails : List MainRail
  railsOffNt : Nat
  pwrGood : Bool
  pwrGoodNt : Nat
  resetN : Bool
  resetHigh : Bool
  pos : BitVec 7
  faultCause : Nat
  faultUnread : Bool
  restartNeeded : Bool
  trip : Bool
  tripNt : Nat
  coolCheck : Bool
  warning : Bool
  warnReqNt : Option Nat
  tjWarn : Nat
  pwrLimit : Nat
  power : Nat
  sensors : Map Nat
  flashBoard : Bool
  tap : Tap
  ir : BitVec 4
  irShift : BitVec 4
  dr : List Bool
  boundary : List Bool
  bypass : Bool
  tdo : Option Bool
  debug : Nat
  deriving DecidableEq, Repr

/-- What has left the part, oldest first. -/
inductive Out where
  /-- Bytes of a frame or control symbol on a port, and whether its first codeword is uncorrectable (13 R378). -/
  | wire (port : Nat) (bytes : List Byte) (bad : Bool)
  /-- A codeword retransmitted as it was received (07 Table 9, mode 0x5). -/
  | codeword (port : Nat) (symbols : List (BitVec 10))
  /-- A test pattern on the lanes of a port (07 Table 9, mode 0x1). -/
  | pattern (port pat : Nat)
  /-- An MSI-X message of a function (0 the PF, t + 1 a VF) and vector: the data it writes, and where (11 R335). -/
  | msix (fn vec addr data : Nat)
  /-- A DMA request with the requester ID of a function: a write or a read of some bytes at an address (11 R317). -/
  | dma (fn : Nat) (write : Bool) (addr bytes : Nat)
  /-- The value a read returns. -/
  | value (v : Nat)
  /-- A response delivered to its requester (07 R219; 10 R291): tag, status and data. -/
  | response (tag status : Nat) (data : List (PV 32))
  /-- The fetch of a payload begins: address and bytes (11 R321). -/
  | fetch (tenant addr len : Nat)
  /-- A main rail is turned on or off (14 R399, R401 to R403). -/
  | rail (r : MainRail) (on : Bool)
  /-- A management message by sideband (12 R349, R352). -/
  | message (l : List Nat)
  deriving DecidableEq, Repr

/-- The state of the block. `nt` and `ltb` count 2^−40 ns (08 R232, R243); `regs` holds the register fields that differ from their reset
values (key (page × 65,536 + offset) × 32 + lowest bit). `free` counts the free values asked for (DESIGN CHOICE, log entry 2). `devNt` holds by
field 1 + the NT in ns at which the device last changed it (13 R382). -/
structure State where
  nt : Nat
  ltb : Nat
  free : Nat
  regs : Map Nat
  tiles : Map Tile
  parts : Map Part
  ich : Ich
  links : Map Link
  time : TimeBase
  gov : Governor
  rmons : Map Rmon
  hif : Hif
  franks : Franks
  mgmt : Mgmt
  module : Module
  upsets : List Upset
  incidents : List Incident
  devNt : Map Nat
  hostMem : Map Byte
  sent : List Out
  pending : List Instr
  deriving DecidableEq, Repr

/-- The key of a field of a page in `State.regs`. -/
def Fld.key (f : Fld) (page : Nat) : Nat := (page * 0x10000 + f.off) * 32 + f.lo

/-- Fields whose value after reset is a fuse's, the hardware's or differs from page to page (DESIGN CHOICE, log entry 4; 13 Tables 1, 5,
6, 7 and 8). -/
def resetFields : List (Nat × Fld × Nat) :=
  [(0x000, Reg.DEV_CAPS_GRADE, 1), (0x000, Reg.DEV_CAPS_TILES, 256), (0x000, Reg.DEV_CAPS_REGIONS, 16),
   (0x001, Reg.FUSE_GRADE_GRADE, 1), (0x001, Reg.FUSE_GRADE_DISREGION, 0x1F),
   (0x001, Reg.FUSE_SPARE_WORD.at 0, 0xFFFFFFFF), (0x001, Reg.FUSE_SPARE_WORD.at 1, 0xFFFFFFFF),
   (0x001, Reg.FUSE_SPARE_WORD.at 2, 0xFFFFFFFF),
   (0x004, Reg.MGT_SPARE_D.at 0, 0x21084210), (0x004, Reg.MGT_SPARE_D.at 1, 0x08421084),
   (0x004, Reg.MGT_SPARE_D.at 2, 0x00008421),
   (0x008, Reg.PRT_STAT_STATE, 1), (0x008, Reg.PRT_STAT_REGIONS, 0xFFFF)]

/-- The fuse words of an unsealed grade A part with no defective tile (DESIGN CHOICE, log entry 4). -/
def resetFuses : Map (BitVec 32) :=
  [(0x04C, 1), (0x04D, 0xFFFFFFFF), (0x04E, 0xFFFFFFFF), (0x04F, 0xFFFFFFFF), (0x050, 0x1F)]

/-- The management complex at the release of RESET_N (log entries 3 and 4): one valid Clerk image in copy A, which the boot ROM has chosen. -/
def Mgmt.reset : Mgmt :=
  { fuses := resetFuses, copyA := some ⟨some 0, 0, []⟩, copyB := none, runningCopy := some false, runningSvn := 0,
    boardRecord := [], retireLog := [], clerkUp := false, clerkRecords := [], leaves := [], clerkInbox := [], resets := [],
    mbxScope := none, hidden := [], daport := true, recordCounts := [], topo := [],
    topoVersion := 0, topoSent := [], topoNt := 0, spdmVersion := false, spdmCaps := false, spdmAlgs := false }

/-- A powered module with RESET_N just released, both inputs at their nominal voltage (log entries 3, 4, 12 and 13). -/
def Module.reset : Module :=
  { clock := 0, aux := true, auxGood := true, main48 := true, inputsNt := 0, lost48Nt := 0, rails := MainRail.order, railsOffNt := 0, pwrGood := true, pwrGoodNt := 0,
    resetN := true, resetHigh := true, pos := 0, faultCause := 0, faultUnread := false, restartNeeded := false,
    trip := false, tripNt := 0, coolCheck := false, warning := false, warnReqNt := none, tjWarn := 1600, pwrLimit := 2000, power := 0,
    sensors := [(35, 48000), (36, 12000)], flashBoard := false, tap := .reset, ir := 0xF, irShift := 0, dr := [], boundary := [],
    bypass := false, tdo := none, debug := 0 }

/-- The machine right after reset. -/
def State.reset : State :=
  { nt := 0, ltb := 0, free := 0,
    regs := resetFields.foldl (fun m e => m.put (e.2.1.key e.1) e.2.2 e.2.1.reset) [],
    tiles := [], parts := [], ich := .reset, links := [], time := .reset, gov := .reset, rmons := [], hif := .reset,
    franks := .reset, mgmt := .reset, module := .reset, upsets := [], incidents := [], devNt := [], hostMem := [], sent := [],
    pending := [] }

end Sys2Proof.Machine
end

