-- ==== Sys2Proof/Machine/Ops.lean ====
section
/-! DEFINITION. The named operations every family uses: register fields, tiles, partitions, time, incidents, free values. -/

namespace Sys2Proof.Machine

/-! ### Register fields -/

/-- The value of a field (13 R371, R372). -/
def State.getF (s : State) (page : Nat) (f : Fld) : Nat := s.regs.get (f.key page) f.reset

/-- Set a field; bits above its width are dropped. -/
def State.setF (s : State) (page : Nat) (f : Fld) (v : Nat) : State :=
  { s with regs := s.regs.put (f.key page) (v % 2 ^ f.width) f.reset }

/-- A one-bit field as a truth value. -/
def State.getB (s : State) (page : Nat) (f : Fld) : Bool := s.getF page f == 1

/-- Add to a counter, wrapping at its width. -/
def State.addF (s : State) (page : Nat) (f : Fld) (n : Nat) : State := s.setF page f (s.getF page f + n)

/-- Set several fields. -/
def State.setFs (s : State) (page : Nat) (l : List (Fld × Nat)) : State :=
  l.foldl (fun s e => s.setF page e.1 e.2) s

/-- A 64-bit value held in two registers, and its update. -/
def State.get64 (s : State) (page : Nat) (lo hi : Fld) : Nat := s.getF page lo + 2 ^ 32 * s.getF page hi

def State.set64 (s : State) (page : Nat) (lo hi : Fld) (v : Nat) : State :=
  (s.setF page lo v).setF page hi (v / 2 ^ 32)

/-- Whole nanoseconds in 2^−40 ns (08 R232). -/
def nsUnit : Nat := 2 ^ 40

/-- NT in whole nanoseconds: the cycle of the timebase. -/
def State.ns (s : State) : Nat := s.nt / nsUnit

/-- The device changes a field that host software writes too, in a cycle of the timebase (13 R382). -/
def State.devSet (s : State) (page : Nat) (f : Fld) (v cycle : Nat) : State :=
  { s.setF page f v with devNt := s.devNt.put (f.key page) (cycle + 1) 0 }

/-- The device has changed the field in the present cycle. -/
def State.devMet (s : State) (page : Nat) (f : Fld) : Bool := s.devNt.get (f.key page) 0 == s.ns + 1

/-- A write of a field: lost where the device has changed it in the same cycle (13 R382). -/
def State.hostSet (s : State) (page : Nat) (f : Fld) (v : Nat) : State := if s.devMet page f then s else s.setF page f v

/-- The armed injection of a page happens (13 R378). -/
def State.injected (s : State) (page : Nat) : State :=
  (s.setFs page [(Reg.BLK_STAT_INJPEND, 0), (Reg.BLK_ERR_INJ, 1)]).devSet page Reg.BLK_ERR_INJ_ARM 0 s.ns

/-! ### Pages (13 Table 1) -/

def pgDEV : Nat := 0x000
def pgFUSE : Nat := 0x001
def pgTMB : Nat := 0x002
def pgETU : Nat := 0x003
def pgMGT : Nat := 0x004
def pgFSC : Nat := 0x005
def pgSNP : Nat := 0x006
def pgPRT (p : Nat) : Nat := 0x008 + p
def pgRGN (r : Nat) : Nat := 0x010 + r
def pgICH : Nat := 0x020
def pgTBL : Nat := 0x021
def pgALI : Nat := 0x022
def pgPH : Nat := 0x023
def pgHIF : Nat := 0x050
def pgIGQ : Nat := 0x051
def pgTIL (t : Nat) : Nat := 0x100 + t

/-- The registers of tenant t's virtual function lie outside BAR0 (11 R319); the model keeps them as pages of their own. -/
def pgVF (t : Nat) : Nat := 0x1000 + t

/-- The per-tenant registers behind IGQ_SEL (11 R339). -/
def pgIGT (t : Nat) : Nat := 0x2000 + t

/-- The page of a port: board ports 0 to 14, then sub-trunks TPt.u as 15 + 4t + u (06 R160). -/
def linkPage (port : Nat) : Nat := if port < 15 then 0x030 + port else 0x040 + (port - 15) / 4

/-- The sub-trunk number u of a port, 0 on a board port. -/
def linkSub (port : Nat) : Nat := if port < 15 then 0 else (port - 15) % 4

/-- X of a link's register block (07 R230). -/
def linkX (port : Nat) : Nat := 0x100 + 0x180 * linkSub port

def State.getL (s : State) (port : Nat) (f : Fld) : Nat := s.getF (linkPage port) (f.shift (linkX port))

def State.setL (s : State) (port : Nat) (f : Fld) (v : Nat) : State := s.setF (linkPage port) (f.shift (linkX port)) v

def State.addL (s : State) (port : Nat) (f : Fld) (n : Nat) : State := s.setL port f (s.getL port f + n)

/-! ### Tiles and partitions -/

def State.tile (s : State) (t : Nat) : Tile := s.tiles.get t .reset

def State.setTile (s : State) (t : Nat) (x : Tile) : State := { s with tiles := s.tiles.put t x .reset }

def State.modTile (s : State) (t : Nat) (f : Tile → Tile) : State := s.setTile t (f (s.tile t))

/-- Change the registers of a tile. -/
def State.modArch (s : State) (t : Nat) (f : Arch → Arch) : State :=
  s.modTile t (fun x => { x with arch := f x.arch })

def State.part (s : State) (p : Nat) : Part := s.parts.get p .reset

def State.setPart (s : State) (p : Nat) (x : Part) : State := { s with parts := s.parts.put p x .reset }

def State.modPart (s : State) (p : Nat) (f : Part → Part) : State := s.setPart p (f (s.part p))

/-- Region r belongs to partition p (13 Table 7). -/
def State.ownsRegion (s : State) (p r : Nat) : Bool := (s.getF (pgPRT p) Reg.PRT_STAT_REGIONS).testBit r

/-- The partition of a region. -/
def State.partOfRegion (s : State) (r : Nat) : Option Nat := (List.range 4).find? (fun p => s.ownsRegion p r)

/-- The partition of a tile: that of its region (01 R20). -/
def State.partOfTile (s : State) (t : Nat) : Option Nat := s.partOfRegion (t / 16)

/-- The tiles of a partition. -/
def State.tilesOf (s : State) (p : Nat) : List Nat :=
  (List.range 256).filter (fun t => s.ownsRegion p (t / 16))

/-- PRT_STAT.STATE codes, 13 Table 8. -/
def prtNOREGIONS : Nat := 0
def prtEMPTY : Nat := 1
def prtLOADED : Nat := 2
def prtRUNNING : Nat := 3
def prtHOLDING : Nat := 4
def prtFENCED : Nat := 5

def State.prtState (s : State) (p : Nat) : Nat := s.getF (pgPRT p) Reg.PRT_STAT_STATE

/-- ETU_RCVp.STATE that a PRT state corresponds to (13 R386). -/
def rcvOfPrt (st : Nat) : Nat :=
  if st = prtRUNNING then 1 else if st = prtHOLDING then 2 else if st = prtFENCED then 3 else 0

/-- Set PRT_STAT.STATE and with it ETU_RCVp.STATE. -/
def State.setPrtState (s : State) (p st : Nat) : State :=
  (s.setF (pgPRT p) Reg.PRT_STAT_STATE st).setF pgETU (Reg.ETU_RCV_STATE.at p) (rcvOfPrt st)

/-- TIL_SEQ_STAT.STATE codes, 03 Table 9. -/
def seqHALTED : Nat := 0
def seqRUNNING : Nat := 1
def seqSKIPPED : Nat := 2
def seqSTOPPED : Nat := 3
def seqHOLDING : Nat := 4
def seqFENCED : Nat := 5

def State.seqState (s : State) (t : Nat) : Nat := s.getF (pgTIL t) Reg.TIL_SEQ_STAT_STATE

def State.setSeqState (s : State) (t st : Nat) : State := s.setF (pgTIL t) Reg.TIL_SEQ_STAT_STATE st

/-- Apply an update for each member of a list. -/
def State.forEach {α : Type} (s : State) (l : List α) (f : State → α → State) : State := l.foldl f s

/-- The partitions. -/
def allParts : List Nat := [0, 1, 2, 3]

/-! ### Time -/

/-- A value of w bits read as signed. -/
def sgn (w v : Nat) : Int := if v < 2 ^ (w - 1) then v else (v : Int) - 2 ^ w

/-- The bits of a signed value in w bits. -/
def unsgn (w : Nat) (i : Int) : Nat := (i % 2 ^ w).toNat

/-- A domain's offset register while NT advances by d: a domain in TRACKING that is not the selected one runs at the rate of
its own servo (08 R237, R243). -/
def Domain.drift (x : Domain) (tracks : Bool) (rate : Int) (d : Nat) : Domain :=
  if tracks then { x with off := x.off + d * (x.rate - rate) / nsUnit } else x

/-- NT advances by d, in 2^−40 ns: the local time base counts the oscillator's time in it (08 R232, R243). -/
def State.passTime (s : State) (d : Nat) : State :=
  let rate := sgn 32 (s.getF pgTMB Reg.TMB_RATE_RATE)
  let sel := s.getF pgTMB Reg.TMB_STAT_SEL
  { s with
    nt := s.nt + d
    ltb := s.ltb + d * nsUnit / (nsUnit + rate).toNat
    module := { s.module with clock := s.module.clock + d }
    time := { s.time with
      domA := s.time.domA.drift (s.getF pgTMB Reg.TMB_STAT_STATE_A == 2 && sel == 1) rate d
      domB := s.time.domB.drift (s.getF pgTMB Reg.TMB_STAT_STATE_B == 2 && sel == 0) rate d } }

/-- Time moves forward to an NT at which an event is placed, never back. -/
def State.atLeast (s : State) (nt : Nat) : State := if s.nt < nt then s.passTime (nt - s.nt) else s

/-- The local time base counts on by d. -/
def State.passLocal (s : State) (d : Nat) : State :=
  let z := s.passTime (d * (nsUnit + sgn 32 (s.getF pgTMB Reg.TMB_RATE_RATE)).toNat / nsUnit)
  { z with ltb := s.ltb + d }

/-- Beats p per q ns of a gear, 08 Table 4. -/
def gearRatio (g : Nat) : Nat × Nat :=
  if g = 0 then (5, 4) else if g = 1 then (6, 5) else if g = 2 then (9, 8) else if g = 3 then (1, 1)
  else if g = 4 then (4, 5) else (5, 8)

/-- The gear in force. -/
def State.gear (s : State) : Nat := s.getF pgTMB Reg.TMB_GEAR_CUR

/-- Time moves forward until the always-on domain's clock reads at least x. -/
def State.clockAtLeast (s : State) (x : Nat) : State :=
  if s.module.clock < x then s.passTime (x - s.module.clock) else s

/-- The length of n beats in the units of `State.nt`, at gear g. -/
def beatsNt (g n : Nat) : Nat := n * (gearRatio g).2 * nsUnit / (gearRatio g).1

/-- The NT of beat b of the round partition p is in. -/
def State.beatNt (s : State) (p b : Nat) : Nat := (s.part p).startNt + beatsNt (s.part p).gear b

/-- The beat at gear g that an elapsed time lies in: the last one whose start is not later. -/
def beatsIn (g e : Nat) : Nat := ((e + 1) * (gearRatio g).1 - 1) / ((gearRatio g).2 * nsUnit)

/-- The beat of partition p's round at an NT. -/
def State.beatAt (s : State) (p nt : Nat) : Nat := beatsIn (s.part p).gear (nt - (s.part p).startNt)

/-- The beat of partition p's round at the present NT. -/
def State.partBeat (s : State) (p : Nat) : Nat := s.beatAt p s.nt

def State.round (s : State) (p : Nat) : Nat := s.getF (pgPRT p) Reg.PRT_ROUND_ROUND

def State.roundLen (s : State) (p : Nat) : Nat := s.getF (pgPRT p) Reg.PRT_ROUND_LEN_BT

/-- Chip ID of 00 (13 Table 5): rack, board, position. -/
def State.chipId (s : State) : Nat :=
  s.getF pgDEV Reg.DEV_CHIP_ID_RACK * 128 + s.getF pgDEV Reg.DEV_CHIP_ID_BOARD * 16
    + s.getF pgDEV Reg.DEV_CHIP_ID_POSITION

/-! ### Free values -/

/-- A free value below 2^w, and the state that has asked for it (DESIGN CHOICE, log entry 2). -/
def State.freeBits (s : State) (w : Nat) : Nat × State := (Config.free s.free % 2 ^ w, { s with free := s.free + 1 })

/-! ### Incidents -/

/-- A block reports an incident to the ETU (10 R285). -/
def State.raise (s : State) (i : Incident) : State := { s with incidents := s.incidents ++ [i] }

/-- Incident class by code (10 Table 2): 0 INFO, 1 DATA, 2 CONTROL. -/
def codeClass (code : Nat) : Nat := if code < 0x2000 then 1 else if code < 0x3000 then 2 else 0

/-- Stands in SYNDROME and EXTRA for contents the spec does not give: the ETU records a free value (DESIGN CHOICE, log
entry 90). -/
def openData : Nat := 2 ^ 64

/-- An incident of a block that belongs to partition p. EXTRA is of interchange, link and time codes, which set their own (10 R285). -/
def State.incident (s : State) (code block inst : Nat) (p : Option Nat) : Incident :=
  let run := p.filter (fun p => s.prtState p == prtRUNNING)
  { nt := s.nt, block := block, inst := inst, code := code, round := run.map s.round,
    beat := match run with | some p => s.partBeat p | none => 0xFFFFFFFF,
    op := 0, handle := 0xFF, offset := 0, part := p, tenant := none, syndrome := openData, extra := 0 }

/-- `n` free words. -/
def State.freeWords (s : State) (n : Nat) : List Word × State :=
  ((List.range n).map (fun i => BitVec.ofNat 32 (Config.free (s.free + i))), { s with free := s.free + n })

/-- Report an incident of a block with no other data. -/
def State.raiseCode (s : State) (code block inst : Nat) (p : Option Nat) : State :=
  s.raise (s.incident code block inst p)

/-- An incident of tile t in beat b (10 Table 1, tile codes): `op` is the slot and opcode, `inst` the tier; EXTRA is of
interchange, link and time codes, and 0 for a tile code (R285). -/
def State.raiseTile (s : State) (t code inst op handle offset syndrome : Nat) (beat : Nat) : State :=
  let i := s.incident code (pgTIL t) inst (s.partOfTile t)
  s.raise { i with op := op, handle := handle, offset := offset, syndrome := syndrome, extra := 0,
                   beat := if i.round.isSome then beat else 0xFFFFFFFF }

/-! ### Control words (10 R290) -/

/-- The bits of a stored control word that an upset inverts. -/
def upsetMask : Upset → BitVec 40
  | .word _ _ _ m => m
  | .timetable _ _ _ _ m | .landing _ _ _ _ m | .names _ _ _ m | .lease _ _ m | .handle _ _ _ m | .wheel _ _ m | .sequencer _ _ m =>
    m.zeroExtend 40
  | .pointer _ | .shared _ => 0

/-- The word of its structure that an upset strikes. -/
def upsetWord : Upset → Nat
  | .timetable _ _ _ k _ | .landing _ _ _ k _ | .handle _ _ k _ | .sequencer _ k _ => k.toNat
  | .wheel _ k _ => k.toNat
  | .word .. | .names .. | .lease .. | .pointer _ | .shared _ => 0

/-- Some word of the control structure that `f` picks out has been struck beyond what its code, one on every word, corrects. -/
def State.controlLost (s : State) (f : Upset → Bool) : Bool :=
  let l := s.upsets.filter f
  l.any (fun u => match eccRead ((l.filter (fun v => upsetWord v == upsetWord u)).foldl (fun m v => m ^^^ upsetMask v) 0) with
    | .good => false
    | .correctable _ => false
    | .poison => true
    | .uncorrectable => true)

/-- Use the control structure that `f` picks out: a single-bit error of a word is corrected and counted; a word that cannot be corrected
raises code 0x2006 for partition `p` (none: a shared structure), with the structure named in SYNDROME, whose coding the
spec does not give (DEDUCED, log entry 19). False: the word is not used. -/
def State.useControl (s : State) (f : Upset → Bool) (block : Nat) (p : Option Nat) : Bool × State :=
  if (s.upsets.filter f).isEmpty then (true, s)
  else if s.controlLost f then
    let (w, s) := s.freeBits 64
    let i := s.incident 0x2006 block 0 p
    (false, s.raise { i with syndrome := w })
  else (true, { s with upsets := s.upsets.filter (fun u => !f u) }.addF pgETU Reg.ETU_CORRCNT_COUNT
    (((s.upsets.filter f).map upsetWord).eraseDups).length)

/-- Control words written anew hold what was written. -/
def State.rewriteControl (s : State) (f : Upset → Bool) : State :=
  { s with upsets := s.upsets.filter (fun u => !f u) }

def upHandle (t h : Nat) : Upset → Bool
  | .handle u k _ _ => u.val == t && k.toNat == h
  | _ => false

/-- Word k of what `f` picks out. -/
def upWord (f : Upset → Bool) (k : Nat) : Upset → Bool := fun u => f u && upsetWord u == k

def upWheel (t : Nat) : Upset → Bool
  | .wheel u _ _ => u.val == t
  | _ => false

def upSequencer (t : Nat) : Upset → Bool
  | .sequencer u _ _ => u.val == t
  | _ => false

def upTable (land : Bool) (port bank index : Nat) : Upset → Bool
  | .timetable x b i _ _ => !land && x.val == port && b.toNat == bank && i.toNat == index
  | .landing x b i _ _ => land && x.val == port && b.toNat == bank && i.toNat == index
  | _ => false

def upName (p bank port : Nat) : Upset → Bool
  | .names q b x _ => q.val == p && b.toNat == bank && x.val == port
  | _ => false

def upLease (port phase : Nat) : Upset → Bool
  | .lease x f _ => x.val == port && f.toNat == phase
  | _ => false

def upPointer (tenant : Nat) : Upset → Bool
  | .pointer u => u.val == tenant
  | _ => false

/-! ### Arithmetic flags (02 R62) -/

/-- Set the bits of TIL_ARITH_FLAGS that `f` has. -/
def State.orFlags (s : State) (t : Nat) (f : AFlags) : State :=
  let one := fun (s : State) (i : Nat) (r : Fld) => if f.getLsbD i then s.setF (pgTIL t) r 1 else s
  one (one (one (one (one (one (one (one s 0 Reg.TIL_ARITH_FLAGS_INX) 1 Reg.TIL_ARITH_FLAGS_UNF) 2
    Reg.TIL_ARITH_FLAGS_OVF) 3 Reg.TIL_ARITH_FLAGS_INV) 4 Reg.TIL_ARITH_FLAGS_POISON) 5
    Reg.TIL_ARITH_FLAGS_GRIDLOSS) 6 Reg.TIL_ARITH_FLAGS_NANIN) 7 Reg.TIL_ARITH_FLAGS_SPILL

end Sys2Proof.Machine
end

