-- ==== Sys2Proof/Machine/Operands.lean ====
section
/-! DEFINITION. Operands: the registers of a tile (04 Table 2), handles and their checks (05 R129 to R136), and the
scratchpad words behind them with their code, seal and rowsum bookkeeping (05 R147 to R153, 10 R311). -/

namespace Sys2Proof.Machine

/-! ### Registers of a tile -/

/-- An S register; S0 reads 0 (04 R95). -/
def Arch.rdS (a : Arch) (i : BitVec 5) : PV 32 := if i = 0 then .zero 32 else a.sreg.get i.toNat (.zero 32)

/-- Write an S register; a write of S0 is discarded (04 R95). -/
def Arch.wrS (a : Arch) (i : BitVec 5) (v : PV 32) : Arch :=
  if i = 0 then a else { a with sreg := a.sreg.put i.toNat v (.zero 32) }

def Arch.rdA (a : Arch) (i : BitVec 4) : PV 32 := a.areg.get i.toNat (.zero 32)

def Arch.wrA (a : Arch) (i : BitVec 4) (v : PV 32) : Arch := { a with areg := a.areg.put i.toNat v (.zero 32) }

/-- A predicate; P0 reads all ones (04 R95). -/
def Arch.rdP (a : Arch) (i : BitVec 3) : PV 64 := if i = 0 then .ok (BitVec.allOnes 64) else a.preg.get i.toNat (.zero 64)

/-- Write a predicate; a write of P0 is discarded (04 R95). -/
def Arch.wrP (a : Arch) (i : BitVec 3) (v : PV 64) : Arch :=
  if i = 0 then a else { a with preg := a.preg.put i.toNat v (.zero 64) }

/-- Lane `l` of vector register `i`. -/
def Arch.rdV (a : Arch) (i : BitVec 4) (l : Nat) : PV 32 := a.vreg.get (64 * i.toNat + l) (.zero 32)

def Arch.wrV (a : Arch) (i l : Nat) (v : PV 32) : Arch := { a with vreg := a.vreg.put (64 * i + l) v (.zero 32) }

/-- The 64 lanes of a vector register. -/
def Arch.lanes (a : Arch) (i : BitVec 4) : List (PV 32) := (List.range 64).map (a.rdV i)

def Arch.rdMC (a : Arch) (i : BitVec 3) : PV 64 := a.mc.get i.toNat (.zero 64)

def Arch.wrMC (a : Arch) (i : BitVec 3) (v : PV 64) : Arch := { a with mc := a.mc.put i.toNat v (.zero 64) }

/-- A DN count, 1 at reset (04 R96). -/
def Arch.rdDN (a : Arch) (i : BitVec 4) : Nat := a.dn.get i.toNat 1

def Arch.wrDN (a : Arch) (i : BitVec 4) (v : Nat) : Arch := { a with dn := a.dn.put i.toNat v 1 }

def Arch.rdT (a : Arch) (row col : Nat) : TEnt := a.tally.get (64 * row + col) .zero

def Arch.wrT (a : Arch) (row col : Nat) (v : TEnt) : Arch := { a with tally := a.tally.put (64 * row + col) v .zero }

def Arch.plane (a : Arch) (p : Bool) : Plane := if p then a.plane1 else a.plane0

def Arch.setPlane (a : Arch) (p : Bool) (x : Plane) : Arch := if p then { a with plane1 := x } else { a with plane0 := x }

/-- A field of an MC register as a number, and as a signed number (04 Table 8). -/
def mcField (v : BitVec 64) (f : McField) : Nat := bits v.toNat (f.lo + f.width - 1) f.lo

def mcSigned (v : BitVec 64) (f : McField) : Int :=
  let n := mcField v f
  if f.signed && n.testBit (f.width - 1) then (n : Int) - 2 ^ f.width else n

/-- Write a field of an MC register. -/
def mcWrite (v : BitVec 64) (f : McField) (x : Nat) : BitVec 64 :=
  let old := mcField v f
  BitVec.ofNat 64 (v.toNat - old * 2 ^ f.lo + (x % 2 ^ f.width) * 2 ^ f.lo)

/-- An operand of a wide operation: the handle and the A register as read at issue (04 R94, R99). -/
def Arch.opnd (a : Arch) (h : BitVec 6) (an : BitVec 4) : Opnd :=
  let r := a.rdA an
  ⟨h.toNat, r.v.toNat, r.p⟩

/-! ### Handles -/

/-- A handle entry (05 Table 2). -/
structure Handle where
  valid : Bool
  closed : Bool
  base : Nat
  bound : Nat
  rsum : Nat
  rights : Nat
  owner : Nat
  ecc : Nat
  classW : Bool
  retain : Bool
  col : Bool
  stride8 : Bool
  deriving DecidableEq, Repr

/-- Handle h of tile t (05 R132); an entry lost to an upset reads as not valid (10 R290). -/
def State.handle (s : State) (t h : Nat) : Handle :=
  let p := pgTIL t
  { valid := s.getB p (Reg.TIL_HND_VALID.at h) && !s.controlLost (upHandle t h), closed := s.getB p (Reg.TIL_HND_CLOSED.at h),
    base := s.getF p (Reg.TIL_HND_BASE.at h), bound := s.getF p (Reg.TIL_HND_BOUND.at h),
    rsum := s.getF p (Reg.TIL_HND_RSUM.at h), rights := s.getF p (Reg.TIL_HND_RIGHTS.at h),
    owner := s.getF p (Reg.TIL_HND_OWNER.at h), ecc := s.getF p (Reg.TIL_HND_ECC.at h),
    classW := s.getB p (Reg.TIL_HND_CLASS.at h), retain := s.getB p (Reg.TIL_HND_RETAIN.at h),
    col := s.getB p (Reg.TIL_HND_ORIENT.at h), stride8 := s.getB p (Reg.TIL_HND_STRIDE8.at h) }

/-- Use handle h of tile t (10 R290). -/
def State.useHandle (s : State) (t h : Nat) : State :=
  (s.useControl (upHandle t h) (pgTIL t) (s.partOfTile t)).2

/-- Units of a tile's scratchpad (05 R129). -/
def spdUnits : Nat := 0x50000

/-- A Class W entry that breaks 05 R136. -/
def Handle.badW (h : Handle) : Bool :=
  h.base % 256 != 0 || h.bound % 256 != 0 || h.stride8 || h.rsum % 8 != 0 ||
    decide (spdUnits < h.rsum + (h.bound - h.base) / 32)

/-- A malformed entry (05 R131, reason 2). -/
def Handle.malformed (h : Handle) : Bool :=
  decide (h.bound ≤ h.base) || decide (spdUnits < h.bound) || decide (0x200 < h.owner) || decide (1 < h.ecc) ||
    (h.classW && h.badW)

/-- The physical unit of handle unit u, not wrapped (05 R130). -/
def Handle.phys (h : Handle) (u : Nat) : Nat := if h.stride8 then h.base + 8 * u else h.base + u

/-- Bits of RIGHTS (05 Tables 2 and 3). -/
def rMXR : Nat := 0
def rMXW : Nat := 1
def rVXR : Nat := 2
def rVXW : Nat := 3
def rDMR : Nat := 4
def rDMW : Nat := 5
def rFAR : Nat := 6
def rFAW : Nat := 7

/-- The outcome of the handle checks of 05 R131 for one unit access. -/
inductive HCheck where
  | pass
  | closed
  | refused
  deriving DecidableEq, Repr

def Handle.check (h : Handle) (p right : Nat) (tenant : Option Nat) : HCheck :=
  if h.valid && h.closed then .closed
  else if !h.valid || h.malformed || decide (h.bound ≤ p) || !(h.rights.testBit right) ||
      (match tenant with | none => false | some t => h.owner != t && h.owner != 0x200) then .refused
  else .pass

/-! ### Physical places (05 R137) -/

def tierOf (p : Nat) : Nat := if p < 0x8000 then 0 else if p < 0x2C000 then 1 else 2

/-- The bank group of a unit, numbered over the tile. -/
def bankGroup (p : Nat) : Nat := 8 * tierOf p + p % 8

/-- The sheet of a unit, numbered over the tile: every tier begins at a multiple of 256 units. -/
def sheetOf (p : Nat) : Nat := p / 256 * 8 + p % 8

/-- The unit that is row r of a sheet. -/
def sheetRow (sh r : Nat) : Nat := sh / 8 * 256 + r * 8 + sh % 8

/-- The key of word k of unit p in `Tile.spd`: through a COL handle, word k is word (k, x) of the sheet. -/
def wordKey (col : Bool) (p k : Nat) : Nat :=
  if col then sheetRow (sheetOf p) k * 32 + p / 8 % 32 else p * 32 + k

/-! ### Inspector mode (10 R311) -/

inductive Insp where
  | off | once | many
  deriving DecidableEq, Repr

def State.inspMode (s : State) (t h : Nat) : Insp :=
  let m := bits (s.getF (pgTIL t) (Reg.TIL_INSP_MODE.at (h / 16))) (2 * (h % 16) + 1) (2 * (h % 16))
  if m = 1 then .once else if m = 2 then .many else .off

/-- The tile is in Inspector mode: some field of its TIL_INSP_MODE registers is not 0. -/
def State.inspecting (s : State) (t : Nat) : Bool := (List.range 4).any (fun m => s.getF (pgTIL t) (Reg.TIL_INSP_MODE.at m) != 0)

/-- Record a hazard: kind 0 read, 1 overwrite (10 R311). -/
def State.hazard (s : State) (t h p kind op beat off : Nat) : State :=
  let pg := pgTIL t
  let s := if s.getB pg Reg.TIL_INSP_STAT_VALID then s
    else s.setFs pg [(Reg.TIL_INSP_STAT_VALID, 1), (Reg.TIL_INSP_STAT_KIND, kind), (Reg.TIL_INSP_STAT_HANDLE, h),
      (Reg.TIL_INSP_STAT_BEAT, beat), (Reg.TIL_INSP_UNIT_UNIT, p)]
  s.raiseTile t (0x3010 + kind) (tierOf p) op h off openData beat

/-! ### Repairs (05 R153) -/

/-- An abandoned repair: UNREP and code 0x1007. -/
def State.unrepairable (s : State) (t unit : Nat) (h beat : Nat) : State :=
  (s.setF (pgTIL t) Reg.TIL_SPD_ERR_UNREP 1).raiseTile t 0x1007 (tierOf unit) 0 h 0 openData beat

/-- Queue a repair of a lost word, or lose it when the queue is full (05 R153). -/
def State.queueRepair (s : State) (t unit word h beat : Nat) : State :=
  if (s.tile t).repairs.length < 8 then
    s.modTile t (fun x => { x with repairs := x.repairs ++ [.rebuild unit word h 0 [] 0 false] })
  else (s.setF (pgTIL t) Reg.TIL_SPD_ERR_RQOVF 1).unrepairable t unit h beat

/-- Queue a write-back of a corrected word; with the queue full the word stays as it is (DESIGN CHOICE, log entry 16). -/
def State.queueWriteBack (s : State) (t unit word : Nat) : State :=
  if (s.tile t).repairs.length < 8 then
    s.modTile t (fun x => { x with repairs := x.repairs ++ [.writeBack unit word] })
  else s

/-- Another write reached a unit: its write-backs are dropped, a repair that has read it will be abandoned, and a reseal
of its sheet starts again (05 R145, R152). -/
def Tile.noteWrite (x : Tile) (unit : Nat) : Tile :=
  { x with
    repairs := (x.repairs.filter (fun r => match r with | .writeBack u _ => u != unit | .rebuild .. => true)).map
      (fun r => match r with
        | .rebuild u w h st row sum _ => if u = unit ∧ 0 < st then .rebuild u w h st row sum true else r
        | .writeBack _ _ => r),
    reseal := x.reseal.map (fun z => if z.sheet = sheetOf unit then { z with rows := 0, sums := [] } else z) }

/-! ### One word -/

/-- The effects of an uncorrectable read (05 R148): count, flag, incident, and a repair in a sealed sheet. `code` is
0x1005, or 0x2006 for a code fetch, which queues no repair (10 R290). -/
def State.uncorrectable (s : State) (t h off unit word wi syn code op beat : Nat) : State :=
  let s := (s.addF (pgTIL t) Reg.TIL_SPD_UECNT_COUNT 1).setF (pgTIL t) Reg.TIL_SPD_ERR_UE 1
  if code = 0x1005 then
    let s := s.raiseTile t code (tierOf unit) op h off (syn + 256 * wi) beat
    if (s.tile t).rv.get (sheetOf unit) false then s.queueRepair t unit word h beat else s
  else s

/-- Read one stored word by its key, with the code of 05 R148. -/
def State.readKey (s : State) (t h off key wi : Nat) (detect : Bool) (code op beat : Nat) : PV 32 × State :=
  let c := (s.tile t).spd.get key 0
  let d := c.extractLsb' 0 32
  let ue := (⟨d, true⟩, s.uncorrectable t h off (key / 32) (key % 32) wi (syndrome c).toNat code op beat)
  match eccRead c with
  | .good => (.ok d, s)
  | .poison => (⟨d, true⟩, s)
  | .uncorrectable => ue
  | .correctable d' =>
    if detect then ue
    else (.ok d', ((s.addF (pgTIL t) Reg.TIL_SPD_CECNT_COUNT 1).setF (pgTIL t) Reg.TIL_SPD_ERR_CE 1).queueWriteBack t
      (key / 32) (key % 32))

/-- Write one word by its key; a Class W write unseals the sheet (05 R149, R152). -/
def State.writeKey (s : State) (t key : Nat) (v : PV 32) (sealBit classW : Bool) : State :=
  s.modTile t (fun x =>
    let x := x.noteWrite (key / 32)
    { x with spd := x.spd.put key (storeWord v.v v.p sealBit) 0,
             rv := if classW then x.rv.put (sheetOf (key / 32)) false false else x.rv })

/-! ### The words of an access -/

/-- Words `ks` of unit p through handle h, read with the seal rules of 10 R311. -/
def State.readWords (s : State) (t h off : Nat) (hd : Handle) (p : Nat) (ks : List Nat) (op beat : Nat) :
    List (PV 32) × State :=
  let mode := s.inspMode t h
  let sealed := fun k => (((s.tile t).spd.get (wordKey hd.col p k) 0).getLsbD 39 : Bool)
  let s' := if mode != .off && ks.any (fun k => !sealed k) then s.hazard t h p 0 op beat off else s
  ks.foldl (fun (a : List (PV 32) × State) k =>
    let key := wordKey hd.col p k
    let (v, s) := a.2.readKey t h off key k (hd.ecc == 1) 0x1005 op beat
    let s := if mode == .once then
        s.modTile t (fun x => { x with spd := x.spd.put key ((x.spd.get key 0) &&& ~~~(1#40 <<< 39)) 0 }) else s
    (a.1 ++ [v], s)) ([], s')

/-- Words of unit p written through handle h; `none` leaves a word as it is. -/
def State.writeWords (s : State) (t h off : Nat) (hd : Handle) (p : Nat) (ws : List (Nat × PV 32)) (op beat : Nat) :
    State :=
  let mode := s.inspMode t h
  let sealed := fun k => (((s.tile t).spd.get (wordKey hd.col p k) 0).getLsbD 39 : Bool)
  let s := if mode == .once && ws.any (fun w => sealed w.1) then s.hazard t h p 1 op beat off else s
  ws.foldl (fun s w => s.writeKey t (wordKey hd.col p w.1) w.2 (mode != .off) hd.classW) s

/-- The poisoned zeros that a refused or suppressed read returns. -/
def badWords (n : Nat) : List (PV 32) := List.replicate n (.bad 32)

/-- Count a refusal (05 R131): CLOSED counts only; any other refusal sets REFUSED and raises code 0x1003. -/
def State.refuse (s : State) (t : Nat) (c : HCheck) (h off p op beat : Nat) (tenant : Option Nat) : State :=
  let s := s.addF (pgTIL t) Reg.TIL_SPD_REFCNT_COUNT 1
  match c with
  | .closed => s
  | .pass => s
  | .refused =>
    let s := s.setF (pgTIL t) Reg.TIL_SPD_ERR_REFUSED 1
    let i := s.incident 0x1003 (pgTIL t) (tierOf p) (s.partOfTile t)
    s.raise { i with op := op, handle := h, offset := off, tenant := tenant, extra := 0,
                     beat := if i.round.isSome then beat else 0xFFFFFFFF }

/-- A refusal for a poisoned A register: counted and flagged, with no incident of its own (04 R123; DEDUCED, log entry 17). -/
def State.refusePoison (s : State) (t : Nat) : State :=
  (s.addF (pgTIL t) Reg.TIL_SPD_REFCNT_COUNT 1).setF (pgTIL t) Reg.TIL_SPD_ERR_REFUSED 1

/-! ### Error injection into scratchpad (13 R378) -/

/-- Fire an armed injection at the lowest unit written in a beat; `ws` lists the units written and the key of the target
word of each. -/
def State.injectTile (s : State) (t : Nat) (ws : List (Nat × Nat)) : State :=
  let pg := pgTIL t
  if !s.getB pg Reg.BLK_ERR_INJ_ARM then s
  else match ws.foldl (fun (a : Option (Nat × Nat)) w => match a with
      | none => some w
      | some b => if w.1 < b.1 || (w.1 == b.1 && w.2 < b.2) then some w else some b) none with
    | none => s
    | some (_, key) =>
      let kind := s.getF pg Reg.BLK_ERR_INJ_KIND
      let b0 := min (s.getF pg Reg.BLK_ERR_INJ_BIT0) 38
      let b1 := min (s.getF pg Reg.BLK_ERR_INJ_BIT1) 38
      let c := (s.tile t).spd.get key 0
      let one : BitVec 40 := 1
      let c' := if kind = 1 ∨ (kind = 2 ∧ b0 = b1) then c ^^^ (one <<< b0)
        else if kind = 2 then c ^^^ (one <<< b0) ^^^ (one <<< b1)
        else if kind = 3 then storeWord (c.extractLsb' 0 32) true (c.getLsbD 39) else c
      let s := s.modTile t (fun x => { x with spd := x.spd.put key c' 0 })
      s.injected pg

end Sys2Proof.Machine
end

