-- ==== Sys2Proof/Machine/Vtr.lean ====
section
/-! DEFINITION. The values that the transcendental unit approximates, to far more bits than a result holds, and the results that
keep the bounds of 02 Table 6 (02 R61; DEDUCED, log entry 14). Numbers of this file are whole multiples of 2^−320 unless they are
given as m × 2^e. -/

namespace Sys2Proof.Machine

/-- 1. -/
def fxOne : Int := 2 ^ 320

/-- A product. -/
def fxMul (a b : Int) : Int := a * b / fxOne

/-- The sum of n terms of the odd power series with z² = `sq`, whose k-th coefficient is 1 / (2k + 1), times `t`. -/
def atanTerms (sq : Int) : Nat → Nat → Int → Int
  | 0, _, _ => 0
  | n + 1, k, t => t / (2 * k + 1 : Nat) + atanTerms sq n (k + 1) (fxMul t sq)

/-- artanh z for |z| ≤ 1/3. -/
def fxArtanh (z : Int) : Int := atanTerms (fxMul z z) 110 0 z

/-- ln 2 = 2 artanh 1/3. -/
def fxLn2 : Int := 2 * fxArtanh (fxOne / 3)

/-- arctan 1/n. -/
def fxArctanInv (n : Nat) : Int := atanTerms (-(fxOne / (n * n : Nat))) 80 0 (fxOne / n)

/-- π/2 by Machin's formula. -/
def fxHalfPi : Int := 8 * fxArctanInv 5 - 2 * fxArctanInv 239

/-- Terms of the exponential series from the k-th on, `t` the k-th. -/
def expTerms (r : Int) : Nat → Nat → Int → Int
  | 0, _, _ => 0
  | n + 1, k, t => t + expTerms r n (k + 1) (fxMul t r / (k + 1 : Nat))

/-- e^r for |r| ≤ 1. -/
def fxExp (r : Int) : Int := expTerms r 80 0 fxOne

/-- Terms of the sine (from t = r, k = 1) or cosine (from t = 1, k = 0) series. -/
def sinTerms (sq : Int) : Nat → Nat → Int → Int
  | 0, _, _ => 0
  | n + 1, k, t => t + sinTerms sq n (k + 2) (-(fxMul t sq) / ((k + 1) * (k + 2) : Nat))

/-- A value m × 2^e in steps of 2^−320. -/
def fxOf (m : Int) (e : Int) : Int := if 0 ≤ e + 320 then m * 2 ^ (e + 320).toNat else m / 2 ^ (-(e + 320)).toNat

/-- e^x as m × 2^k for a multiple x of 2^−320, |x| below 2^12. -/
def expParts (x : Int) : Int × Int :=
  let k := x / fxLn2
  (fxExp (x - k * fxLn2), k - 320)

/-- The natural logarithm of m × 2^e, m > 0. -/
def fxLn (m : Nat) (e : Int) : Int :=
  let l := Nat.log2 m
  let y := fxOf m (-(l : Int))
  2 * fxArtanh ((y - fxOne) * fxOne / (y + fxOne)) + (e + l) * fxLn2

/-- The sine of x, or its cosine, for |x| ≤ 2^15. -/
def fxSin (cos : Bool) (x : Int) : Int :=
  let k := (2 * x + fxHalfPi) / (2 * fxHalfPi)
  let r := x - k * fxHalfPi
  let q := (k + (if cos then 1 else 0)) % 4
  let v := if q % 2 = 0 then sinTerms (fxMul r r) 45 1 r else sinTerms (fxMul r r) 45 0 fxOne
  if q < 2 then v else -v

/-- x kept within ±2^11, where the exponential functions have long left the range of the format. -/
def fxKeep (x : Int) : Int := max (-(2048 * fxOne)) (min (2048 * fxOne) x)

/-- The exact value a function approximates at ±m × 2^e, m > 0, as ±a × 2^k; none where the rule gives no bound. -/
def vtrExact (fn : VFn) (neg : Bool) (m : Nat) (e : Int) : Option (Int × Int) :=
  let x := signed neg m
  let near := decide (expOf m e < 15) || (expOf m e == 15 && m == 2 ^ Nat.log2 m)
  let big := 60 < expOf m e
  let fx := if big then signed neg 1 * 2048 * fxOne else fxKeep (fxOf x e)
  match fn with
  | .sqrt => none
  | .recip => some (2 ^ 400 / x, -400 - e)
  | .rsqrt =>
    some (Nat.sqrt (2 ^ 800 / (m * 2 ^ (e % 2).toNat)), -400 - (e - e % 2) / 2)
  | .exp2 => let k := fx / fxOne; some (fxExp (fxMul (fx - k * fxOne) fxLn2), k - 320)
  | .exp => some (expParts fx)
  | .log2 => some (fxLn m e * fxOne / fxLn2, -320)
  | .ln => some (fxLn m e, -320)
  | .tanh =>
    if 100 * fxOne ≤ fx.natAbs then some (signed neg 1 * fxOne, -320)
    else
      let r := expParts (2 * fx)
      let z := fxOf r.1 r.2
      some ((z - fxOne) * fxOne / (z + fxOne), -320)
  | .sigmoid =>
    let r := expParts (-(max (-(300 * fxOne)) fx))
    some (fxOne * fxOne / (fxOne + fxOf r.1 r.2), -320)
  | .sin => if near then some (fxSin false (fxOf x e), -320) else none
  | .cos => if near then some (fxSin true (fxOf x e), -320) else none

/-- The bound of 02 Table 6 in ulp. -/
def vtrUlp : VFn → Nat
  | .sqrt => 0
  | .recip | .rsqrt | .exp2 | .log2 => 1
  | .exp | .ln | .tanh | .sigmoid | .sin | .cos => 2

/-- An FP32 value within `k` ulp of a × 2^e, the free number r choosing among them. -/
def nearFP32 (k r : Nat) (a e : Int) : Nat :=
  let m := a.natAbs
  let u := max (expOf m e - 23) (-149)
  let step := 2 ^ (u - e).toNat
  let y := if e ≤ u then m / step else m * 2 ^ (e - u).toNat
  let exact := decide (u < e) || m % step == 0
  let lo := (if exact then y else y + 1) - k
  let c := lo + r % (y + k - lo + 1)
  (fp32.round .rne false (decide (a < 0)) (if 2 ^ 24 < c then c - c % 2 else c) u).1

end Sys2Proof.Machine
end

