-- ==== Sys2Proof/Machine/Flags.lean ====
section
/-! DEFINITION. The results of the scalar and vector functions lane by lane, with the arithmetic flags each sets
(04 Tables 4, 6, 13, 15 and 16, R116 to R121; 03 R85, R86). -/

namespace Sys2Proof.Machine

/-! ### Scalar functions (04 Table 4) -/

def boolWord (b : Bool) : Word := if b then 1 else 0

def aluFn (f : AluFn) (a b : Word) : Word :=
  match f with
  | .add => a + b
  | .sub => a - b
  | .and => a &&& b
  | .or => a ||| b
  | .xor => a ^^^ b
  | .shl => a <<< (b.toNat % 32)
  | .shr => a >>> (b.toNat % 32)
  | .sar => a.sshiftRight (b.toNat % 32)
  | .mul => a * b
  | .mulhu => BitVec.ofNat 32 (a.toNat * b.toNat / 2 ^ 32)
  | .min => if a.toInt ≤ b.toInt then a else b
  | .max => if a.toInt ≤ b.toInt then b else a
  | .minu => if a.toNat ≤ b.toNat then a else b
  | .maxu => if a.toNat ≤ b.toNat then b else a
  | .seq => boolWord (a == b)
  | .slt => boolWord (decide (a.toInt < b.toInt))
  | .sltu => boolWord (decide (a.toNat < b.toNat))

/-- The ALU function that an ALUI function is with an immediate (04 Table 4). -/
def aluiAlu : AluiFn → AluFn
  | .addi => .add | .andi => .and | .ori => .or | .xori => .xor | .shli => .shl | .shri => .shr | .sari => .sar
  | .seqi => .seq | .slti => .slt

/-- Predicate functions (04 Table 6). -/
def popFn (f : PopFn) (a b : BitVec 64) : BitVec 64 :=
  match f with
  | .pand => a &&& b
  | .por => a ||| b
  | .pxor => a ^^^ b
  | .pandn => a &&& ~~~b

/-- PFIRST: bit i set for every i below n (04 Table 6). -/
def firstMask (n : Nat) : BitVec 64 := if 64 ≤ n then BitVec.allOnes 64 else BitVec.ofNat 64 (2 ^ n - 1)

/-! ### Vector lanes -/

def vrmRnd : VRm → Rnd
  | .rne => .rne
  | .rtz => .rtz

/-- A lane result: the word and the flags it sets. -/
abbrev LaneRes := Word × AFlags

def w32 (x : Nat × AFlags) : LaneRes := (BitVec.ofNat 32 x.1, x.2)

/-- VADD, VSUB, VMUL in one lane (04 Table 16). -/
def vfLane (f : VfFn) (rm : Rnd) (a b : Word) : LaneRes :=
  let x := fp32.decode a.toNat
  let y := fp32.decode b.toNat
  match f with
  | .vadd => w32 (fp32.add rm x y)
  | .vsub => w32 (fp32.add rm x y.neg)
  | .vmul => w32 (fp32.mul rm x y)

def vfmaLane (rm : Rnd) (a b c : Word) : LaneRes :=
  w32 (fp32.fma rm (fp32.decode a.toNat) (fp32.decode b.toNat) (fp32.decode c.toNat))

/-- VBFMA in one 32-bit lane: both BF16 lanes (02 R60). -/
def vbfmaLane (rm : Rnd) (a b c : Word) : LaneRes :=
  let h := fun (x : Word) (j : Nat) => bf16.decode (bits x.toNat (16 * j + 15) (16 * j))
  let r := fun j => bf16.fma rm (h a j) (h b j) (h c j)
  let lo := r 0
  let hi := r 1
  (BitVec.ofNat 32 (lo.1 + hi.1 * 65536), lo.2 ||| hi.2)

/-- Integer and logic operations (04 Table 13, R121). -/
def viLane (f : ViFn) (a b : Word) : Word :=
  match f with
  | .viadd => a + b
  | .visub => a - b
  | .vand => a &&& b
  | .vor => a ||| b
  | .vxor => a ^^^ b
  | .vshl => a <<< (b.toNat % 32)
  | .vshr => a >>> (b.toNat % 32)
  | .vsar => a.sshiftRight (b.toNat % 32)
  | .vimin => if a.toInt ≤ b.toInt then a else b
  | .vimax => if a.toInt ≤ b.toInt then b else a

/-- A compare in one lane: the predicate bit and INV for a signalling NaN operand of FEQ, FLT, FLE (04 R116). -/
def vcmpLane (c : VCond) (a b : Word) : Bool × AFlags :=
  let x := fp32.decode a.toNat
  let y := fp32.decode b.toNat
  let nan := x.isNaN || y.isNaN
  let inv := flagIf (x.isSNaN || y.isSNaN) fINV
  match c with
  | .feq => (!nan && x.eqv y, inv)
  | .flt => (!nan && x.lt y, inv)
  | .fle => (!nan && !(y.lt x), inv)
  | .fun => (nan, inv)
  | .ieq => (a == b, 0)
  | .ilt => (decide (a.toInt < b.toInt), 0)
  | .ult => (decide (a.toNat < b.toNat), 0)

/-! ### Conversions (04 R117, Table 15) -/

/-- The format a conversion works with; none for the integer ones. -/
def cvtFmt : VCvt → Option Fmt
  | .f32f16 => some fp16 | .f32bf16 => some bf16 | .f32e4m3 => some e4m3 | .f32e5m2 => some e5m2
  | .f16f32 => some fp16 | .bf16f32 => some bf16 | .e4m3f32 => some e4m3 | .e5m2f32 => some e5m2
  | .f32i8 => none | .f32i32 => none | .i8f32 => none | .i32f32 => none

/-- Width of the narrow side of a conversion. -/
def cvtNarrowWidth : VCvt → Nat
  | .f32f16 => 16 | .f32bf16 => 16 | .f16f32 => 16 | .bf16f32 => 16
  | .f32e4m3 => 8 | .f32e5m2 => 8 | .f32i8 => 8 | .e4m3f32 => 8 | .e5m2f32 => 8 | .i8f32 => 8
  | .f32i32 => 32 | .i32f32 => 32

/-- A conversion from FP32 (CVT 0x0 to 0x5). -/
def cvtNarrows : VCvt → Bool
  | .f32f16 => true | .f32bf16 => true | .f32e4m3 => true | .f32e5m2 => true | .f32i8 => true | .f32i32 => true
  | .f16f32 => false | .bf16f32 => false | .e4m3f32 => false | .e5m2f32 => false | .i8f32 => false | .i32f32 => false

/-- A conversion that can round and so takes stamp indices in SR mode (02 R58). -/
def cvtRounds : VCvt → Bool
  | .i32f32 => true
  | .f32f16 => true | .f32bf16 => true | .f32e4m3 => true | .f32e5m2 => true | .f32i8 => true | .f32i32 => true
  | .f16f32 => false | .bf16f32 => false | .e4m3f32 => false | .e5m2f32 => false | .i8f32 => false

/-- Multiply by 2^k. -/
def FVal.scale (v : FVal) (k : Int) : FVal :=
  match v with
  | .fin n m e => .fin n m (e + k)
  | .nan s => .nan s
  | .inf n => .inf n

/-- Signed value of the low w bits. -/
def toSigned (w x : Nat) : Int := if x.testBit (w - 1) then (x : Int) - 2 ^ w else x

/-- The element value a conversion reads: FP32 scaled by 2^−D, or element `x` of the narrow format. -/
def cvtLane (c : VCvt) (rm : Rnd) (sat : Bool) (d : Int) (x : Nat) : Nat × AFlags :=
  let int := fun (w : Nat) => let (i, f) := intConvert w rm ((fp32.decode x).scale (-d)); ((i % 2 ^ w).toNat, f)
  let wide := fun (f : Fmt) =>
    let v := f.decode x
    if v.isNaN then (fp32.canonNaN, 0) else ((fp32.convert .rne false v).1, 0)
  let ofInt := fun (i : Int) (r : Rnd) => fp32.convert r false (.fin (decide (i < 0)) i.natAbs 0)
  match c with
  | .f32f16 => fp16.convert rm sat ((fp32.decode x).scale (-d))
  | .f32bf16 => bf16.convert rm sat ((fp32.decode x).scale (-d))
  | .f32e4m3 => e4m3.convert rm sat ((fp32.decode x).scale (-d))
  | .f32e5m2 => e5m2.convert rm sat ((fp32.decode x).scale (-d))
  | .f32i8 => int 8
  | .f32i32 => int 32
  | .f16f32 => wide fp16
  | .bf16f32 => wide bf16
  | .e4m3f32 => wide e4m3
  | .e5m2f32 => wide e5m2
  | .i8f32 => ofInt (toSigned 8 x) .rne
  | .i32f32 => ofInt (toSigned 32 x) rm

/-! ### Transcendental functions (02 R61, 04 R118) -/

/-- The exact square root rounded to nearest even. -/
def sqrtFP32 (m : Nat) (e : Int) : Nat × AFlags :=
  let sh : Nat := 64 + ((e - 64) % 2).toNat
  let v := m <<< sh
  let r := Nat.sqrt v
  let e' := (e - sh) / 2
  fp32.round .rne false false (2 * r + if r * r = v then 0 else 1) (e' - 1)

/-- The result of the transcendental unit where no value is recommended: the free function Config.vtr chooses among those within
the bound of 02 Table 6, or, for sine and cosine beyond their domain, within [−1, 1] (DEDUCED, log entry 14). -/
def vtrFree (fn : VFn) (x : Word) : Nat :=
  let r := (Config.vtr fn.code x).toNat
  match fp32.decode x.toNat with
  | .fin n m e =>
    match vtrExact fn n m e with
    | some (a, k) => nearFP32 (vtrUlp fn) r a k
    | none => if r % 2 ^ 31 ≤ 0x3F800000 then r else r / 2 ^ 31 * 2 ^ 31 + r % 0x3F800001
  | .nan _ => fp32.canonNaN
  | .inf _ => fp32.canonNaN

/-- The values IEEE 754 recommends for special operands; none where the result is not special. -/
def vtrSpecial (fn : VFn) (v : FVal) : Option Nat :=
  let nan := fp32.canonNaN
  let inf := fp32.infinity
  let one := 0x3F800000
  match fn, v with
  | _, .nan _ => some nan
  | .sqrt, .inf n => some (if n then nan else inf false)
  | .sqrt, .fin n m e => some (if m = 0 then fp32.sign n else if n then nan else (sqrtFP32 m e).1)
  | .recip, .inf n => some (fp32.sign n)
  | .recip, .fin n m _ => if m = 0 then some (inf n) else none
  | .rsqrt, .inf n => some (if n then nan else 0)
  | .rsqrt, .fin n m _ => if m = 0 then some (inf n) else if n then some nan else none
  | .exp2, .inf n => some (if n then 0 else inf false)
  | .exp2, .fin _ m _ => if m = 0 then some one else none
  | .exp, .inf n => some (if n then 0 else inf false)
  | .exp, .fin _ m _ => if m = 0 then some one else none
  | .log2, .inf n => some (if n then nan else inf false)
  | .log2, .fin n m e =>
    if m = 0 then some (inf true) else if n then some nan
    else if FVal.eqv (.fin n m e) (.fin false 1 0) then some 0 else none
  | .ln, .inf n => some (if n then nan else inf false)
  | .ln, .fin n m e =>
    if m = 0 then some (inf true) else if n then some nan
    else if FVal.eqv (.fin n m e) (.fin false 1 0) then some 0 else none
  | .tanh, .inf n => some (fp32.sign n + one)
  | .tanh, .fin n m _ => if m = 0 then some (fp32.sign n) else none
  | .sigmoid, .inf n => some (if n then 0 else one)
  | .sigmoid, .fin _ _ _ => none
  | .sin, .inf _ => some nan
  | .sin, .fin n m _ => if m = 0 then some (fp32.sign n) else none
  | .cos, .inf _ => some nan
  | .cos, .fin _ m _ => if m = 0 then some one else none

/-- One lane of VTR: INV, OVF and UNF from the result as 04 R118 gives them. A zero result of a function that is never 0
at that operand counts as UNF. -/
def vtrLane (fn : VFn) (x : Word) : LaneRes :=
  let v := fp32.decode x.toNat
  let r := (vtrSpecial fn v).getD (vtrFree fn x)
  let rv := fp32.decode r
  let subnormal := match rv with | .fin _ m _ => decide (0 < m) && decide (m < 2 ^ 23) | .nan _ => false | .inf _ => false
  let finite := !v.isNaN && !v.isInf
  let zeroOfNonzero := rv.isZero && finite && (vtrSpecial fn v).isNone
  (BitVec.ofNat 32 r,
    flagIf (rv.isNaN && !v.isNaN) fINV ||| flagIf (rv.isInf && finite) fOVF |||
      flagIf (subnormal || zeroOfNonzero) fUNF)

/-! ### Reductions (03 R85) -/

/-- The identity an inactive lane enters as. -/
def redIdentity : VRed → Word
  | .vrsum => 0
  | .vrsumi => 0
  | .vrmax => 0xFF800000
  | .vrmin => 0x7F800000

/-- Sign and magnitude order of two FP32 patterns that are not NaN, −0 below +0. -/
def fpLess (a b : Word) : Bool :=
  let key := fun (x : Word) => if x.getLsbD 31 then -(x.toNat % 2 ^ 31 : Int) - 1 else (x.toNat : Int)
  decide (key a < key b)

/-- One combination of a reduction. -/
def redComb (f : VRed) (a b : Word) : LaneRes :=
  let nan := (fp32.decode a.toNat).isNaN || (fp32.decode b.toNat).isNaN
  match f with
  | .vrsum => w32 (fp32.add .rne (fp32.decode a.toNat) (fp32.decode b.toNat))
  | .vrsumi => (a + b, 0)
  | .vrmax => (if nan then BitVec.ofNat 32 fp32.canonNaN else if fpLess a b then b else a, 0)
  | .vrmin => (if nan then BitVec.ofNat 32 fp32.canonNaN else if fpLess a b then a else b, 0)

/-- One level of the tree: pair neighbours. -/
def pairUp (f : VRed) : List LaneRes → List LaneRes
  | a :: b :: l => let r := redComb f a.1 b.1; (r.1, a.2 ||| b.2 ||| r.2) :: pairUp f l
  | l => l

/-- The fixed tree of six levels. -/
def reduceTree (f : VRed) (l : List Word) : LaneRes :=
  let l0 : List LaneRes := l.map (fun w => (w, 0))
  (pairUp f (pairUp f (pairUp f (pairUp f (pairUp f (pairUp f l0)))))).headD (0, 0)

end Sys2Proof.Machine
end

