-- ==== Sys2Proof/Machine/MatrixFn.lean ====
section
/-! DEFINITION. What the matrix engine computes: operand formats (02 R39, R40, R43), a streamed row (03 R74 to R79,
02 R44), and the conversion of a Tally row at drain (02 R52 to R55, 03 R80, R81). -/

namespace Sys2Proof.Machine

/-- Element formats of an operand pair (04 Table 9). -/
inductive MxFmt where
  | f (f : Fmt)
  | int8
  | lb6
  | lb4
  deriving DecidableEq, Repr

/-- Activation format of a PAIR code. -/
def pairAct (p : Nat) : MxFmt :=
  if p = 0 ∨ p = 1 then .f e4m3 else if p = 2 ∨ p = 3 then .f e5m2 else if p = 4 then .int8
  else if p = 5 then .f fp16 else if p = 6 then .f bf16 else if p = 7 then .lb6 else .lb4

/-- Weight format of a PAIR code. -/
def pairWgt (p : Nat) : MxFmt :=
  if p = 0 ∨ p = 2 then .f e4m3 else if p = 1 ∨ p = 3 then .f e5m2 else if p = 4 then .int8
  else if p = 5 then .f fp16 else if p = 6 then .f bf16 else if p = 7 then .lb6 else .lb4

/-- Element width in bits. -/
def MxFmt.width : MxFmt → Nat
  | .f g => g.ew + g.fw + 1
  | .int8 => 8
  | .lb6 => 6
  | .lb4 => 4

/-- K, the elements of a row or column (03 Table 1). -/
def MxFmt.k : MxFmt → Nat
  | .lb4 => 128
  | .lb6 => 64
  | .int8 => 64
  | .f _ => 64

/-- Bytes of a row or column (03 Tables 1 and 2). -/
def MxFmt.bytes (g : MxFmt) : Nat := g.k * g.width / 8

/-- Ledger blocks in a row or column. -/
def MxFmt.blocks : MxFmt → Nat
  | .lb6 => 1
  | .lb4 => 2
  | .int8 => 0
  | .f _ => 0

/-- Element units N_e and scale units N_s of a plane (03 Table 1). -/
def MxFmt.planeUnits (g : MxFmt) : Nat := g.bytes * 64 / 128
def MxFmt.planeScales (g : MxFmt) : Nat := g.blocks

/-- Beats per row r (03 Table 2). -/
def MxFmt.rowBeats (g : MxFmt) : Nat := if g.bytes = 128 then 2 else 1

/-- Element and scale units of a stream of m rows (03 R74). -/
def MxFmt.streamUnits (g : MxFmt) (m : Nat) : Nat := (m * g.bytes + 127) / 128
def MxFmt.streamScales (g : MxFmt) (m : Nat) : Nat := (m * 2 * g.blocks + 127) / 128

/-- `n` bits from bit `pos` of a buffer of words, and the poison of the words they lie in. -/
def bufBits (b : Map (PV 32)) (pos n : Nat) : Nat × Bool :=
  let w0 := b.get (pos / 32) (.zero 32)
  let w1 := b.get ((pos + n - 1) / 32) (.zero 32)
  let v := if pos / 32 = (pos + n - 1) / 32 then w0.v.toNat else w0.v.toNat + w1.v.toNat * 2 ^ 32
  (v / 2 ^ (pos % 32) % 2 ^ n, w0.p || w1.p)

/-- Element k of the row or column at byte `row × bytes`, decoded (02 R35 to R40). -/
def mxElem (g : MxFmt) (elems scales : Map (PV 32)) (row k : Nat) (scale : Int) : MxVal :=
  let (x, p) := bufBits elems (8 * (row * g.bytes) + k * g.width) g.width
  let ledger : MxVal :=
    let b := row * g.blocks + k / 64
    let (sx, sp) := bufBits scales (16 * b) 8
    let (mm, _) := bufBits scales (16 * b + 8) 8
    let mg := bits mm (2 * (k % 64 / 16) + 1) (2 * (k % 64 / 16))
    if sx = 0xFF then ⟨true, p || sp, 0, 0⟩ else ⟨false, p || sp, toSigned g.width x, (sx : Int) - 127 - mg⟩
  match g with
  | .f h => if h = fp16 ∨ h = bf16 then MxVal.ofF h x 0 p else MxVal.ofF h x scale p
  | .int8 => ⟨false, p, toSigned 8 x, scale⟩
  | .lb6 => ledger
  | .lb4 => ledger

/-- Exact sum of two operand values. -/
def MxVal.add (a b : MxVal) : MxVal :=
  let lo := min a.e b.e
  ⟨a.special || b.special, a.poison || b.poison, a.m * 2 ^ (a.e - lo).toNat + b.m * 2 ^ (b.e - lo).toNat, lo⟩

/-- What row `i` of a stream adds to the 64 columns and to the checksum entry, with the weights plane `pl` holds. -/
def streamRow (pair : Nat) (mc : PV 64) (pl : Plane) (elems scales : Map (PV 32)) (i : Nat) : List Contrib × Contrib :=
  let ga := pairAct pair
  let gw := pairWgt pair
  let w := mcSigned mc.v .w
  if mc.p || pl.poison then (List.replicate 64 ⟨false, true, false, false, 0⟩, .zero)
  else
    let ks := List.range ga.k
    let act := ks.map (fun k => mxElem ga elems scales i k (mcSigned mc.v .sa))
    let wgt := fun n => ks.map (fun k =>
      if pl.pair.isNone then MxVal.zero else mxElem gw pl.elems pl.scales n k (mcSigned mc.v .sb))
    let cols := (List.range 64).map (fun n =>
      (List.zipWith (fun a b => product a b w) act (wgt n)).foldl Contrib.join .zero)
    let csum := (List.range 64).foldl (fun c n => List.zipWith MxVal.add c (wgt n)) (List.replicate ga.k MxVal.zero)
    let check := (List.zipWith (fun (a c : MxVal) =>
      if a.special || c.special || a.poison || c.poison then Contrib.zero
      else
        let e := a.e + c.e - w
        if 0 ≤ e then ⟨false, false, false, false, a.m * c.m * 2 ^ e.toNat⟩
        else ⟨false, false, false, false, (a.m * c.m).tdiv (2 ^ (-e).toNat)⟩) act csum).foldl Contrib.join .zero
    (cols, check)

/-- The stream clears CKV: CHK clear, a BF16 stream, or an FP16 stream at a W other than −48 (03 R79). -/
def clearsCkv (pair : Nat) (chk : Bool) (w : Int) : Bool := !chk || pair == 6 || (pair == 5 && w != -48)

/-! ### Drain -/

/-- Bits of one element of a drain target (04 Table 9), and rows per beat. -/
def drainWidth (dfmt : Nat) : Nat :=
  if dfmt = 0 then 32 else if dfmt = 1 ∨ dfmt = 2 then 16 else if dfmt = 6 then 6 else if dfmt = 7 then 4
  else if dfmt = 8 then 128 else 8

def drainBeats (dfmt : Nat) : Nat := if dfmt = 8 then 8 else 1

/-- Words of one drained row. -/
def drainWords (dfmt : Nat) : Nat := 2 * drainWidth dfmt

def isLedger (dfmt : Nat) : Bool := dfmt == 6 || dfmt == 7

/-- One entry to a target that is not a Ledger block or Tally form (02 R54): bits, poison and flags. -/
def drainEntry (dfmt : Nat) (rm : Rnd) (sat : Bool) (sh : Int) (x : TEnt) : Nat × Bool × AFlags :=
  let fmt := if dfmt = 0 then some fp32 else if dfmt = 1 then some fp16 else if dfmt = 2 then some bf16
    else if dfmt = 3 then some e4m3 else if dfmt = 4 then some e5m2 else none
  let nan := match fmt with | some f => f.canonNaN | none => 0
  let (v, p, _) := x.read
  if p then (nan, true, fPOISON)
  else match v with
    | .nan => (nan, false, fINV)
    | .spill => (nan, true, fPOISON)
    | .int i =>
      if i = 0 then (0, false, 0)
      else match fmt with
        | some f => let (r, g) := f.convert rm sat (.fin (decide (i < 0)) i.natAbs sh); (r, false, g)
        | none => let (r, g) := intConvert 8 rm (.fin (decide (i < 0)) i.natAbs sh); ((r % 256).toNat, false, g)

/-- One Ledger block of a row (02 R55): X, the micro-shifts byte, the element codes, poison and flags. An invalid block has X 0xFF
and elements 0; its micro-shifts byte is 0 (DESIGN CHOICE, log entry 92). -/
def drainLedger (width : Nat) (rm : Nat → Rnd) (sh : Int) (xs : List TEnt) : Nat × Nat × List Nat × Bool × AFlags :=
  let rd := xs.map TEnt.read
  let zeros := List.replicate 64 0
  if rd.any (fun r => r.2.1 || r.1 == .spill) then (0xFF, 0, zeros, true, fPOISON)
  else if rd.any (fun r => r.1 == .nan) then (0xFF, 0, zeros, false, fINV)
  else
    let vs : List Int := rd.map (fun r => match r.1 with | .int i => i | .spill => 0 | .nan => 0)
    let big := fun (l : List Int) => l.foldl (fun a v => max a v.natAbs) 0
    let amax := big vs
    let emax : Int := if width = 6 then 31 else 7
    if amax = 0 then (0, 0, zeros, false, 0)
    else
      let eb := expOf amax sh
      let k0 := eb - (width - 2)
      let clamp := decide (127 < k0)
      let k := if clamp then 127 else if k0 < -127 then -127 else k0
      let ms := (List.range 4).map (fun g =>
        let gmax := big ((vs.drop (16 * g)).take 16)
        if gmax = 0 ∨ clamp then 0 else min 3 (eb - expOf gmax sh).toNat)
      let es := (vs.zipIdx).map (fun (v, i) =>
        let (c, inx) := gridRound (rm i) v.natAbs sh (k - (ms.getD (i / 16) 0 : Nat))
        let zero := flagIf inx fINX ||| flagIf (inx && c == 0) fUNF
        let (c', f) := if emax < c then (emax, zero ||| fINX) else ((c : Int), zero)
        let e : Int := if v < 0 then -c' else c'
        ((e % 2 ^ width).toNat, f))
      ((k + 127).toNat, (ms.zipIdx).foldl (fun a m => a + m.1 * 4 ^ m.2) 0, es.map (·.1), false,
        es.foldl (fun a e => a ||| e.2) (flagIf clamp fOVF))

/-- Pack equal-width elements, lowest first, into `n` words; a word is poisoned when an element in it is. -/
def packWords (width : Nat) (es : List (Nat × Bool)) (n : Nat) : List (PV 32) :=
  let v := (es.zipIdx).foldl (fun a e => a + e.1.1 * 2 ^ (width * e.2)) 0
  (List.range n).map (fun k =>
    ⟨BitVec.ofNat 32 (v / 2 ^ (32 * k)),
     (es.zipIdx).any (fun e => e.1.2 && decide (width * e.2 < 32 * (k + 1)) && decide (32 * k < width * (e.2 + 1)))⟩)

/-- A drained row: its words, its two scale bytes with poison, the flags it sets and whether a spill is reported. -/
structure DrainRow where
  words : List (PV 32)
  scale : Nat
  scalePoison : Bool
  flags : AFlags
  spill : Bool
  deriving DecidableEq, Repr

/-- Convert one Tally row (02 R52 to R55, 04 R115); `rm i` is the rounding of element i; `poison` poisons every word. -/
def drainRow (dfmt : Nat) (rm : Nat → Rnd) (sat poison : Bool) (sh : Int) (xs : List TEnt) : DrainRow :=
  let spill := xs.any (fun x => x.read.2.2)
  let n := drainWords dfmt
  let bad := fun (l : List (PV 32)) => if poison then l.map (fun w => ⟨w.v, true⟩) else l
  if dfmt = 8 then
    let es := xs.map (fun x => if x.t = oddMark then (spillMark.toNat, true) else (x.t.toNat, x.p))
    ⟨bad (packWords 128 es n), 0, poison, flagIf (poison || es.any (·.2)) fPOISON, spill⟩
  else if isLedger dfmt then
    let (x, m, es, p, f) := drainLedger (drainWidth dfmt) rm sh xs
    ⟨bad (packWords (drainWidth dfmt) (es.map (fun e => (e, p))) n), x + 256 * m, p || poison,
      f ||| flagIf poison fPOISON, spill⟩
  else
    let es := (xs.zipIdx).map (fun x => drainEntry dfmt (rm x.2) sat sh x.1)
    ⟨bad (packWords (drainWidth dfmt) (es.map (fun e => (e.1, e.2.1))) n), 0, poison,
      es.foldl (fun a e => a ||| e.2.2) (flagIf poison fPOISON), spill⟩

/-- The drain path compares the row's sum with its checksum entry and they differ (03 R80). -/
def checksumMiss (xs : List TEnt) (ck : BitVec 136) : Bool :=
  let rd := xs.map TEnt.read
  let ok := rd.all (fun r => !r.2.1 && (match r.1 with | .int _ => true | .spill => false | .nan => false))
  ok && (rd.foldl (fun (a : Int) r => match r.1 with | .int i => a + i | .spill => a | .nan => a) 0 != ck.toInt)

/-- The entry a TLOAD writes (02 R41, R42): the pattern outside the range becomes the spill marker with poison. -/
def loadEntry (ws : List (PV 32)) : TEnt × Bool :=
  let v := (ws.zipIdx).foldl (fun a w => a + w.1.v.toNat * 2 ^ (32 * w.2)) 0
  let x : TEnt := ⟨BitVec.ofNat 128 v, ws.any (·.p)⟩
  if x.t = oddMark then (⟨spillMark, true⟩, true) else (x, false)

/-- The exact sum of a row's entries as a checksum entry (03 Table 3); markers count 0. -/
def rowSum (xs : List TEnt) : BitVec 136 :=
  BitVec.ofInt 136 (xs.foldl (fun (a : Int) x => match x.read.1 with | .int i => a + i | .spill => a | .nan => a) 0)

end Sys2Proof.Machine
end

