-- ==== Sys2Proof/Machine/Frames.lean ====
section
/-! DEFINITION. Frames and control symbols on the wire (07 R206 to R211), what a port sends, and the accessors of links and
of the interchange. -/

namespace Sys2Proof.Machine

/-! ### Accessors -/

def State.link (s : State) (x : Nat) : Link := s.links.get x .reset

def State.setLink (s : State) (x : Nat) (l : Link) : State := { s with links := s.links.put x l .reset }

def State.modLink (s : State) (x : Nat) (f : Link → Link) : State := s.setLink x (f (s.link x))

def State.modIch (s : State) (f : Ich → Ich) : State := { s with ich := f s.ich }

def State.modMgmt (s : State) (f : Mgmt → Mgmt) : State := { s with mgmt := f s.mgmt }

def State.modHif (s : State) (f : Hif → Hif) : State := { s with hif := f s.hif }

def State.emit (s : State) (o : Out) : State := { s with sent := s.sent ++ [o] }

/-- Link state codes, 07 Table 8. -/
def lnkDOWN : Nat := 0
def lnkTRAIN : Nat := 1
def lnkCAL : Nat := 2
def lnkUP : Nat := 3
def lnkHOLD : Nat := 4
def lnkFAILED : Nat := 5

def State.linkState (s : State) (x : Nat) : Nat := s.getL x Reg.ICL_STATE_STATE

/-- Enter a link state; the NT is kept for the times that count from it. -/
def State.setLinkState (s : State) (x st : Nat) : State :=
  (s.setL x Reg.ICL_STATE_STATE st).modLink x (fun l => { l with stateNt := s.nt })

/-- The fabric ports (06 R160). -/
def allPorts : List Nat := List.range 47

/-- Slot length of a port in beats (06 Table 1). -/
def slotBeats (x : Nat) : Nat := if x < 15 then 4 else 3

/-- Chip IDs of rack, board and position (15 R414). -/
def chipRack (c : Nat) : Nat := c / 128
def chipBoard (c : Nat) : Nat := c / 16 % 8
def chipPos (c : Nat) : Nat := c % 16

/-! ### Time domains (08 R237 to R239) -/

/-- Codes of TMB_STAT.STATE_A and STATE_B, 08 Table 2. -/
def domNONE : Nat := 0
def domACQUIRING : Nat := 1
def domTRACKING : Nat := 2
def domLOST : Nat := 3
def domFAULT : Nat := 4
def domMASTER : Nat := 5

/-- Domain B is `true`. -/
def State.domState (s : State) (b : Bool) : Nat :=
  s.getF pgTMB (if b then Reg.TMB_STAT_STATE_B else Reg.TMB_STAT_STATE_A)

/-- The domain keeps time on this chip: it is TRACKING, or this chip is its master (DEDUCED, log entry 30). -/
def State.domGood (s : State) (b : Bool) : Bool := s.domState b == domTRACKING || s.domState b == domMASTER

/-- The chip has acquired time (08 R239). -/
def State.hasTime (s : State) : Bool := s.domGood (s.getB pgTMB Reg.TMB_STAT_SEL)

/-- Both ends of a link have acquired time: this chip has it, or runs on in holdover, and the peer has said that it has
(07 R201; PRESUMED, log entry 96). -/
def State.timedLink (s : State) (x : Nat) : Bool :=
  (s.hasTime || s.getB pgTMB Reg.TMB_STAT_HOLDOVER) && (s.link x).peerLock

/-! ### Bytes -/

def beBytes (v n : Nat) : List Byte := (leBytes v n).reverse

def beNat (l : List Byte) : Nat := leNat l.reverse

/-- Bytes lo to hi − 1 of a list. -/
def slice (l : List Byte) (lo hi : Nat) : List Byte := (l.drop lo).take (hi - lo)

/-- The bytes of payload words (00 R8). -/
def wordBytes (l : List Word) : List Byte := l.flatMap (fun w => leBytes w.toNat 4)

/-- Payload words of a byte list. -/
def toWords : Nat → List Byte → List Word
  | 0, _ => []
  | n + 1, l => BitVec.ofNat 32 (leNat (l.take 4)) :: toWords n (l.drop 4)

def bytesToWords (l : List Byte) : List Word := toWords ((l.length + 3) / 4) l

def bit (b : Bool) (n : Nat) : Nat := if b then 2 ^ n else 0

/-- The 24 header bytes (07 Table 4). -/
def Hdr.bytes (h : Hdr) : List Byte :=
  [BitVec.ofNat 8 (h.ver * 16 + h.cls % 4 * 4 + bit h.gen 1 + bit h.poison 0),
   BitVec.ofNat 8 (h.kind * 16 + bit h.fwded 3 + bit h.retry 2 + bit h.last 1 + bit h.manifest 0)]
  ++ beBytes h.postcode 2 ++ beBytes h.src 2 ++ beBytes h.dst 2 ++ beBytes h.round 4 ++ beBytes h.slot 3
  ++ beBytes h.hops 1 ++ beBytes h.seq 2 ++ beBytes h.len 2 ++ beBytes h.offset 4

/-- The header that 24 bytes spell. -/
def Hdr.parse (l : List Byte) : Hdr :=
  let b := fun i => (l.getD i 0).toNat
  { ver := b 0 / 16, cls := b 0 / 4 % 4, gen := (b 0).testBit 1, poison := (b 0).testBit 0, kind := b 1 / 16,
    fwded := (b 1).testBit 3, retry := (b 1).testBit 2, last := (b 1).testBit 1, manifest := (b 1).testBit 0,
    postcode := beNat (slice l 2 4), src := beNat (slice l 4 6), dst := beNat (slice l 6 8),
    round := beNat (slice l 8 12), slot := beNat (slice l 12 15), hops := b 15, seq := beNat (slice l 16 18),
    len := beNat (slice l 18 20), offset := beNat (slice l 20 24) }

/-- A frame's bytes with its trailer (07 R207, R209). -/
def Frame.wire (f : Frame) : List Byte :=
  let body := f.hdr.bytes ++ wordBytes f.data
  body ++ leBytes (crc32c body).toNat 4 ++ leBytes 0 4

/-- Bytes of a frame by its CLASS and LEN (07 R206). -/
def frameLen (l : List Byte) : Nat :=
  let cls := (l.getD 0 0).toNat / 4 % 4
  if cls = 0 then 544 else if cls = 1 then 32 + beNat (slice l 18 20) else if cls = 2 then 16 else l.length

/-- The frame that bytes spell, and whether its CRC holds. -/
def Frame.parse (l : List Byte) : Frame := ⟨Hdr.parse l, bytesToWords (slice l 24 (l.length - 8))⟩

def crcHolds (l : List Byte) : Bool :=
  leNat (slice l (l.length - 8) (l.length - 4)) == (crc32c (l.take (l.length - 8))).toNat

/-- VC of an unscheduled packet and its hops remaining (07 Table 4). -/
def Hdr.vc (h : Hdr) : Nat := h.hops / 64 % 4
def Hdr.hopsLeft (h : Hdr) : Nat := h.hops % 64

/-- Units of 64 B that a packet occupies in a receive pool (07 R221). -/
def Frame.units (f : Frame) : Nat := (32 + 4 * f.data.length + 63) / 64

/-- Flits of a packet (07 R206). -/
def Frame.flits (f : Frame) : Nat := (32 + 4 * f.data.length) / 16

/-- The fields of a scheduled parcel are valid (07 R208); KIND 0x0 is legal only in CAL (R227). -/
def Hdr.schedValid (h : Hdr) (nbytes : Nat) (inCal : Bool) : Bool :=
  nbytes == 544 && (decide (1 ≤ h.kind) && decide (h.kind ≤ 4) || (inCal && h.kind == 0)) && decide (16 ≤ h.len) &&
    decide (h.len ≤ 512) && h.len % 16 == 0

/-- The fields of an unscheduled packet are valid (07 Tables 4, 5 and 6, R219). -/
def Hdr.unschValid (h : Hdr) (nbytes : Nat) (data : List Word) : Bool :=
  decide (1 ≤ h.kind) && decide (h.kind ≤ 6) && decide (16 ≤ h.len) && decide (h.len ≤ 2048) && h.len % 16 == 0 &&
    nbytes == h.len + 32 && !h.gen && !h.manifest && h.postcode % 2 ^ 14 == 0 &&
    (if h.kind == 4 || h.kind == 5 then h.vc == 2 else h.vc != 2) &&
    (if h.kind == 3 || h.kind == 5 then h.len == 16 else true) &&
    (if h.kind == 3 then (data.drop 1).all (· == 0) else true) &&
    (if h.kind == 5 then decide ((data.headD 0).toNat ≤ 4) && (data.drop 1).all (· == 0) else true)

/-! ### Control symbols (07 Table 6) -/

/-- Byte i of a control symbol as received: byte 0 is the lowest. -/
def symByte (y : BitVec 128) (i : Nat) : Nat := bits y.toNat (8 * i + 7) (8 * i)

def symBytes (y : BitVec 128) : List Byte := (List.range 16).map (fun i => BitVec.ofNat 8 (symByte y i))

/-- Bytes lo to hi of a symbol, most significant first. -/
def symField (y : BitVec 128) (lo hi : Nat) : Nat := beNat (slice (symBytes y) lo (hi + 1))

def symCrcHolds (y : BitVec 128) : Bool :=
  leNat (slice (symBytes y) 12 16) == (crc32c ((symBytes y).take 12)).toNat

/-- A control symbol's bytes: type, low nibble, and bytes 2 to 11. -/
def symWire (ty low : Nat) (body : List Byte) : List Byte :=
  let b := [BitVec.ofNat 8 0x18, BitVec.ofNat 8 (ty * 16 + low)] ++ (body ++ List.replicate 10 0).take 10
  b ++ leBytes (crc32c b).toNat 4

/-- The type of a symbol and its low nibble. -/
def symType (y : BitVec 128) : Nat := symByte y 1 / 16
def symLow (y : BitVec 128) : Nat := symByte y 1 % 16

/-- Bytes lo to 11 are 0. -/
def symZeroFrom (y : BitVec 128) (lo : Nat) : Bool := (slice (symBytes y) lo 12).all (· == 0)

/-- The version, class, type and unused bytes of a symbol are as 07 Table 6 and 08 Table 1 give them. -/
def symValid (y : BitVec 128) : Bool :=
  symByte y 0 == 0x18 &&
  (match symType y with
   | 1 => symLow y % 8 == 0 && symZeroFrom y 4
   | 2 => symLow y % 8 == 0 && symZeroFrom y 6 && (symLow y == 0 || symField y 4 5 == 0)
   | 3 => decide (symLow y < 4) && symZeroFrom y 6
   | 4 => decide (symLow y % 4 < 2) && symByte y 11 == 0 && (symLow y % 4 == 0 || symByte y 6 == 0)
   | 5 => decide (symLow y ≤ 5) && decide (symByte y 5 < 2) && decide (symByte y 4 < 47) && symZeroFrom y 8
   | 6 => true
   | 7 => (symLow y == 1 || symLow y == 2) && symZeroFrom y 2
   | 8 => symLow y == 0 && symZeroFrom y 2
   | _ => false)

/-! ### Sending -/

/-- Flip bit k of a byte list, counted from the lowest bit of byte 0. -/
def flipBit (l : List Byte) (k : Nat) : List Byte :=
  (l.zipIdx).map (fun b => if b.2 = k / 8 then b.1 ^^^ BitVec.ofNat 8 (2 ^ (k % 8)) else b.1)

/-- An injection armed on the page of a port that aims at this link (13 Table 4). -/
def State.linkInjects (s : State) (x kind : Nat) : Bool :=
  let pg := linkPage x
  s.getB pg Reg.BLK_ERR_INJ_ARM && s.getF pg Reg.BLK_ERR_INJ_KIND == kind &&
    (decide (x < 15) || s.getF pg Reg.BLK_ERR_INJ_LINK == linkSub x)

/-- Put a frame's bytes on the wire; its CRC field begins at byte `crcAt`. -/
def State.putWire (s : State) (x : Nat) (l : List Byte) (crcAt : Nat) : State :=
  if s.linkInjects x 1 then
    (s.injected (linkPage x)).emit
      (.wire x (flipBit l (8 * crcAt + min (s.getF (linkPage x) Reg.BLK_ERR_INJ_BIT0) 31)) false)
  else if s.linkInjects x 2 then (s.injected (linkPage x)).emit (.wire x l true)
  else s.emit (.wire x l false)

/-- Send a control symbol. -/
def State.sendSym (s : State) (x ty low : Nat) (body : List Byte) : State := s.putWire x (symWire ty low body) 12

def State.putFrame (s : State) (x : Nat) (f : Frame) : State := s.putWire x f.wire (24 + 4 * f.data.length)

/-- Send a NAK of a class (07 Table 6). -/
def State.sendNak (s : State) (x : Nat) (unsch : Bool) (seq mask : Nat) : State :=
  (s.addL x Reg.ICL_NAKTX_COUNT 1).sendSym x 2 (bit unsch 3) (beBytes seq 2 ++ beBytes mask 2)

/-- Send an ACK of a class with the NEXT in force (07 R213). -/
def State.sendAck (s : State) (x : Nat) (unsch : Bool) : State :=
  let l := s.link x
  let s := s.sendSym x 1 (bit unsch 3) (beBytes (if unsch then l.uExp else l.sExp) 2)
  s.modLink x (fun l => if unsch then { l with ackU := 0, ackUNt := s.nt } else { l with ackS := 0, ackSNt := s.nt })

/-- A frame of a class was received good: the 32nd since the last ACK sends one. -/
def State.countGood (s : State) (x : Nat) (unsch : Bool) : State :=
  let s := s.modLink x (fun l => if unsch then { l with ackU := l.ackU + 1 } else { l with ackS := l.ackS + 1 })
  let n := if unsch then (s.link x).ackU else (s.link x).ackS
  if 32 ≤ n then s.sendAck x unsch else s

/-- An incident of a link. -/
def State.raiseLink (s : State) (x code extra : Nat) : State :=
  let i := s.incident code (linkPage x) (linkSub x) none
  s.raise { i with extra := extra }

/-- Count an event of a link and set its flag in ICL_ERR. -/
def State.linkCount (s : State) (x : Nat) (c e : Fld) : State := (s.addL x c 1).setL x e 1

/-- A parcel sent enters the replay buffer of its link, which frees its oldest entry when it is full (07 R212). -/
def State.keepSent (s : State) (x : Nat) (f : Frame) : State :=
  let full := decide (1024 ≤ (s.link x).sBuf.length)
  let s := if full then s.linkCount x Reg.ICL_RPLOVF_COUNT Reg.ICL_ERR_RPLOVF else s
  s.modLink x (fun l => { l with
    sNext := (f.hdr.seq + 1) % 65536, sBuf := (if full then l.sBuf.drop 1 else l.sBuf) ++ [f] })

/-! ### Sequence numbers -/

/-- a − b modulo 2^16. -/
def seqDiff (a b : Nat) : Nat := (a + 65536 - b % 65536) % 65536

/-- The scheduled SEQs not yet received from H − 1,023 to the highest received H, lowest first (07 R212, R433). -/
def Link.missing (l : Link) : List Nat :=
  match l.sHigh with
  | none => []
  | some h =>
    let n := l.sSpan - 1
    ((List.range n).map (fun k => (h + 65536 - (n - k)) % 65536)).filter (fun q => !l.sGot.contains q)

/-- Move NEXT past the SEQs received. -/
def advanceExp (got : List Nat) : Nat → Nat → Nat
  | 0, e => e
  | n + 1, e => if got.contains e then advanceExp got n ((e + 1) % 65536) else e

/-- The MASK of a NAK that names the SEQs of a list beyond its own (07 Table 6). -/
def nakMask (seq : Nat) (l : List Nat) : Nat :=
  (List.range 16).foldl (fun m k => if l.contains ((seq + 1 + k) % 65536) then m + 2 ^ k else m) 0

/-- The NAKs of a frame that failed its CRC (07 R433). -/
def State.nakOnFailure (s : State) (x : Nat) : State :=
  let l := s.link x
  let next := match l.sHigh with | none => 0 | some h => (h + 1) % 65536
  let revealed := l.missing ++ [next]
  let q := revealed.headD next
  let s := s.sendNak x false q (nakMask q revealed)
  if 16 < seqDiff next q then s.sendNak x false next 0 else s

/-- NAK the next expected unscheduled SEQ, at most once every 2 µs (07 R218). -/
def State.nakUnsch (s : State) (x : Nat) : State :=
  let recent := match (s.link x).nakNt with | none => false | some t => decide (s.nt < t + 2000 * nsUnit)
  if recent then s
  else (s.sendNak x true (s.link x).uExp 0).modLink x (fun l => { l with nakNt := some s.nt })

/-- Whether the exerciser withholds the NAK that is now due: with INJ 0x4 every INJ_EVERY-th one, or once (07 R229, Table 17; the
parcels are counted by their NAKs, DESIGN CHOICE, log entry 21). -/
def State.withholdNak (s : State) (x : Nat) : Bool × State :=
  if s.getL x Reg.ICL_EXR_CTL_MODE ≠ 3 ∨ s.getL x Reg.ICL_EXR_CTL_INJ ≠ 4 then (false, s)
  else
    let every := s.getL x Reg.ICL_EXR_CTL_INJ_EVERY
    let l := s.link x
    let due := if every = 0 then !l.exrInjected else (l.exrNaks + 1) % every == 0
    (due, s.modLink x (fun l => { l with exrNaks := l.exrNaks + 1, exrInjected := l.exrInjected || due }))

/-- A frame failed its CRC or carries a bad flit (07 R211). A link in TRAIN or HOLD, which carries no NAK, asks for nothing (07
Table 8). -/
def State.frameFailed (s : State) (x : Nat) : State :=
  let s := s.linkCount x Reg.ICL_CRCERR_COUNT Reg.ICL_ERR_CRCERR
  if s.linkState x = lnkTRAIN ∨ s.linkState x = lnkHOLD then s
  else match s.withholdNak x with
  | (true, s) => s
  | (false, s) => (s.nakOnFailure x).nakUnsch x

/-- A malformed frame (07 R211). -/
def State.malformed (s : State) (x : Nat) : State :=
  (s.linkCount x Reg.ICL_MALFORMED_COUNT Reg.ICL_ERR_MALFORMED).raiseLink x 0x1020 openData

/-- Record a scheduled SEQ: none when it is a duplicate or stale (07 R212). A NAK goes out before an ACK (R213). -/
def State.takeSched (s : State) (x seq : Nat) : Bool × State :=
  let l := s.link x
  let before := match l.sHigh with | none => 65535 | some h => h
  let ahead := seqDiff seq before
  if (l.sHigh.isSome && ahead == 0) || l.sGot.contains seq || (decide (32768 ≤ ahead) && decide (1024 < seqDiff before seq)) then
    (false, s.addL x Reg.ICL_DUP_COUNT 1)
  else
    let high := if 1 ≤ ahead ∧ ahead < 32768 then seq else before
    let got := ((seq :: l.sGot).filter (fun q => decide (seqDiff high q < 1024)))
    let span := if 1 ≤ ahead ∧ ahead < 32768 then min 1024 (l.sSpan + ahead) else l.sSpan
    let s := s.modLink x (fun l => { l with sHigh := some high, sGot := got, sSpan := span, sExp := advanceExp got 1025 l.sExp })
    let miss := (s.link x).missing
    let s := if 1 < ahead ∧ ahead < 32768 ∧ miss ≠ [] then
      match s.withholdNak x with
      | (true, s) => s
      | (false, s) => s.sendNak x false (miss.headD 0) (nakMask (miss.headD 0) miss)
    else s
    (true, s.countGood x false)

/-- A symbol received on a link that carries frames: checked, then handed to `f` when it is of the type the command names
(07 R211). While framing is lost a good symbol is not found (R206). A symbol of another type is another command's, and has no effect here (DESIGN CHOICE, log entry 18). -/
def State.receiveSym (s : State) (x : Nat) (y : BitVec 128) (bad : Bool) (ty : Nat) (f : State → State) : State :=
  if s.linkState x = lnkDOWN ∨ s.linkState x = lnkFAILED ∨ ((s.link x).framing ∧ bad = false) then s
  else if bad || !symCrcHolds y then s.frameFailed x
  else
    let s := s.modLink x (fun l => { l with lastGood := s.nt })
    if !symValid y then s.malformed x
    else if symType y = ty then f s else s

/-! ### Ports and routes of unscheduled packets (15 R417, R418, R422) -/

/-- The board port toward a position. -/
def boardPortTo (own pos : Nat) : Nat := if own < pos then pos - 1 else pos

/-- The port of the intra-rack sub-trunk toward a board. -/
def trunkTo (own board : Nat) : Nat := 15 + (if board < own then board else board - 1)

/-- Where an unscheduled packet for a chip goes: here, a port, or nowhere. -/
inductive Route where
  | here
  | port (x : Nat)
  | miss
  deriving DecidableEq, Repr

/-- The choice of R422. -/
def State.route (s : State) (dst : Nat) : Route :=
  let c := s.chipId
  if dst = c then .here
  else if chipRack dst = chipRack c then
    if chipBoard dst = chipBoard c then .port (boardPortTo (chipPos c) (chipPos dst))
    else if chipPos dst = chipPos c then .port (trunkTo (chipBoard c) (chipBoard dst))
    else .port (boardPortTo (chipPos c) (chipPos dst))
  else
    let e := s.ich.urt.get (chipRack dst) 0
    if e.testBit 7 && decide (e % 64 < 47) then .port (e % 64) else .miss

/-- A packet the chip creates (15 R422): SRC_CHIP its own, HOPS[5:0] 15. -/
def mkPacket (s : State) (kind vc part dst target tag offset : Nat) (poison : Bool) (data : List Word) : Frame :=
  ⟨{ ver := 1, cls := 1, gen := false, poison := poison, kind := kind, fwded := false, retry := false, last := true,
     manifest := false, postcode := part * 2 ^ 14, src := s.chipId, dst := dst, round := target, slot := tag,
     hops := vc * 64 + 15, seq := 0, len := 4 * data.length, offset := offset }, data⟩

/-- Queue a packet on a port. -/
def State.enqueue (s : State) (x : Nat) (f : Frame) (origin : Option (Nat × Nat)) : State :=
  s.modLink x (fun l => { l with queue := l.queue ++ [⟨f, origin⟩] })

/-! ### The match (06 R195, R196) -/

def rwt (s : State) (f : Fld) (i : Nat) : Nat := s.getF 0x023 (f.at i)

/-- Entry i is live and matches the request. -/
def State.rwtHit (s : State) (h : Hdr) (i : Nat) : Bool :=
  let m := fun (a b mask : Nat) => Nat.land a mask == Nat.land b mask
  rwt s Reg.RWT_VALID i == 1 && rwt s Reg.RWT_SIZE i != 0 &&
    decide (s.ns < rwt s Reg.RWT_EXPIRY_LO i + 2 ^ 32 * rwt s Reg.RWT_EXPIRY_HI i) &&
    rwt s Reg.RWT_PART i == h.postcode / 2 ^ 14 && m h.round (rwt s Reg.RWT_TARGET i) (rwt s Reg.RWT_TMASK i) &&
    m h.src (rwt s Reg.RWT_SRC i) (rwt s Reg.RWT_SMASK i) &&
    rwt s (if h.kind = 3 then Reg.RWT_RD else Reg.RWT_WR) i == 1

/-- The winning entry, and whether several match at its priority. -/
def State.rwtBest (s : State) (h : Hdr) : Option Nat × Bool :=
  let hits := (List.range 32).filter (s.rwtHit h)
  let top := hits.foldl (fun a i => max a (rwt s Reg.RWT_PRIO i)) 0
  let best := hits.filter (fun i => rwt s Reg.RWT_PRIO i == top)
  (best.head?, decide (1 < best.length))

/-- Match a request; a tie is recorded in RWT_STAT. -/
def State.rwtMatch (s : State) (h : Hdr) : Option Nat × State :=
  match s.rwtBest h with
  | (some i, true) => (some i, s.setFs 0x023 [(Reg.RWT_STAT_MULTI_HIT, 1), (Reg.RWT_STAT_WINNER, i)])
  | (r, _) => (r, s)

/-- The window that a request of the window class for this chip matches as its header is staged (06 R195); a tie is recorded. -/
def State.windowOf (s : State) (h : Hdr) : Option WinEntry × State :=
  if h.dst = s.chipId ∧ 1 ≤ h.kind ∧ h.kind ≤ 3 then
    match s.rwtMatch h with
    | (some i, s) => (some ⟨rwt s Reg.RWT_TILE i, rwt s Reg.RWT_HANDLE i, rwt s Reg.RWT_OFF i, rwt s Reg.RWT_SIZE i⟩, s)
    | (none, s) => (none, s)
  else (none, s)

/-- Put a packet into the pool of its port. -/
def State.toPool (s : State) (x : Nat) (f : Frame) (fwd done : Bool) : State :=
  let (w, s) := s.windowOf f.hdr
  s.modLink x (fun l => { l with pool := l.pool ++ [⟨l.poolId, f.hdr.vc, f.units, f, fwd, done, w⟩], poolId := l.poolId + 1 })

/-- The number that a chip's own pool has among the ports: packets it created for itself wait there (15 R422, case 1). -/
def selfPort : Nat := 47

/-- Send a packet the chip created by its route, or deliver it here; without a route nothing is sent (15 R422, R424). -/
def State.submit (s : State) (f : Frame) : State :=
  match s.route f.hdr.dst with
  | .port x => s.enqueue x f none
  | .here => s.toPool selfPort f false false
  | .miss => s

/-- A message to one neighbour on a port, HOPS[5:0] = 0, made by chip src: one that is sent on stays as it is but for DST_CHIP (10 R295,
15 R421). -/
def State.neighbourMsg (s : State) (x src part target : Nat) (data : List Word) : State :=
  let f := mkPacket s 6 0 part (s.getL x Reg.ICL_LEDGER0_PEER_CHIP) target 0 0 false data
  s.enqueue x { f with hdr := { f.hdr with src := src, hops := 0 } } none

/-- A CPL to a requester (06 R197): to SRC_CHIP on VC2. -/
def State.sendCpl (s : State) (req : Hdr) (status : Nat) : State :=
  s.submit (mkPacket s 5 2 (req.postcode / 2 ^ 14) req.src req.round req.slot 0 false
    [BitVec.ofNat 32 status, 0, 0, 0])

/-- Mark a packet of a pool as served: it can leave. -/
def State.poolDone (s : State) (x id : Nat) : State :=
  s.modLink x (fun l => { l with pool := l.pool.map (fun k => if k.id = id then { k with done := true } else k) })

/-! ### Events of the interchange -/

/-- Set a bit of ICH_STAT and the capture registers, which hold the first event since ICH_STAT was all zeros (06 R192). -/
def State.ichFlag (s : State) (f : Fld) (part port slot : Nat) : State :=
  let any := [Reg.ICH_STAT_REGCAP, Reg.ICH_STAT_MULTI, Reg.ICH_STAT_SWAPERR, Reg.ICH_STAT_SPILL, Reg.ICH_STAT_CELLOVR,
    Reg.ICH_STAT_LATE, Reg.ICH_STAT_GENMIS, Reg.ICH_STAT_DEADLETTER, Reg.ICH_STAT_LANDMISS, Reg.ICH_STAT_SLOTCONF,
    Reg.ICH_STAT_PASTEND, Reg.ICH_STAT_UNLEASED].any (s.getB pgICH)
  let s := if any then s else s.setFs pgICH [(Reg.ICH_CAPT_SLOT_PART, part), (Reg.ICH_CAPT_SLOT_PORT, port),
    (Reg.ICH_CAPT_SLOT_SLOT, slot), (Reg.ICH_CAPT_ROUND_ROUND, s.round part), (Reg.ICH_CAPT_CODE_BIT, f.lo)]
  s.setF pgICH f 1

/-- An incident of the interchange: physical port and KIND in OP, the slot in OFFSET, tile and unit in EXTRA. -/
def State.raiseIch (s : State) (code part port kind slot extra : Nat) (tenant : Option Nat) : State :=
  let i := s.incident code pgICH 0 (some part)
  s.raise { i with op := port * 256 + kind * 16, offset := slot, extra := extra, tenant := tenant }

/-- A partition, region or tile that is in reset (12 R366). -/
def State.tileInReset (s : State) (t : Nat) : Bool :=
  s.mgmt.resets.any (fun z => match z with
    | .tile u => u == t
    | .region r => r == t / 16
    | .part p => s.partOfTile t == some p)

end Sys2Proof.Machine
end

