-- ==== Sys2Proof/Machine/Tables.lean ====
section
/-! DEFINITION. Timetables, landing tables, lease maps, port names, slots and generations (06 R160 to R173, R179,
R186 to R191, R430). -/

namespace Sys2Proof.Machine

/-! ### Slots (06 R162 to R164) -/

/-- The SDS bit of a physical port (06 R163). -/
def State.sds (s : State) (x : Nat) : Bool :=
  if x < 32 then (s.getF 0x022 Reg.ICH_SDS0_PORTS).testBit x else (s.getF 0x022 Reg.ICH_SDS1_PORTS).testBit (x - 32)

/-- The slot of parcel i of a run that starts in slot s0. -/
def slotOf (sds : Bool) (s0 i : Nat) : Nat :=
  if sds then s0 - s0 % 16 + 16 * ((s0 % 16 + i) / 15) + (s0 % 16 + i) % 15 else s0 + i

/-- Slots that a run may use, counted: second-delivery slots left out. -/
def runRank (s : Nat) : Nat := 15 * (s / 16) + s % 16

/-- The parcel index of a slot within a run; none when the run does not cover it. -/
def slotIndex (sds : Bool) (s0 run s : Nat) : Option Nat :=
  if sds then
    if s % 16 = 15 ∨ s < s0 then none
    else
      let i := runRank s - runRank s0
      if i < run then some i else none
  else if s0 ≤ s ∧ s < s0 + run then some (s - s0) else none

/-! ### Lease maps (06 R165) -/

/-- The partition that leases slot s of physical port x; the entries at phases 15, 31, 47 and 63 count for nothing while
SDS is set. -/
def State.leaseOf (s : State) (x slot : Nat) : Option Nat :=
  let v := s.ich.lease.get (64 * x + slot % 64) 0
  if s.sds x && slot % 16 == 15 then none
  else if s.controlLost (upLease x (slot % 64)) then none
  else if v.testBit 2 then some (v % 4) else none

/-- Partition p leases some slot of port x. -/
def State.leases (s : State) (p x : Nat) : Bool := (List.range 64).any (fun k => s.leaseOf x k == some p)

/-- The partition holds an image (06 R430). -/
def State.holdsImage (s : State) (p : Nat) : Bool := decide (prtLOADED ≤ s.prtState p)

/-- A partition that holds an image leases the port. -/
def State.leasedByHolder (s : State) (x : Nat) : Bool :=
  (List.range 4).any (fun p => s.holdsImage p && s.leases p x)

/-! ### Generations and port names (06 R166, R186 to R191) -/

/-- The current generation of a partition: the bank that is live for it. -/
def State.gen (s : State) (p : Nat) : Nat := s.getF pgICH (Reg.ICH_SWAP_GEN.at p)

/-- The physical port of logical port l in a bank; none where the entry is not valid or is lost. -/
def State.physOf (s : State) (p g l : Nat) : Option Nat :=
  let v := s.ich.names.get ((2 * p + g) * 64 + l) 0
  if v.testBit 7 && decide (v % 64 < 47) && !s.controlLost (upName p g l) then some (v % 64) else none

/-- The logical port that stands for physical port x in a bank. -/
def State.logicalOf (s : State) (p g x : Nat) : Option Nat := allPorts.find? (fun l => s.physOf p g l == some x)

/-- A bank of port names is a permutation of the fabric ports. -/
def State.isPermutation (s : State) (p g : Nat) : Bool :=
  let l := allPorts.map (s.physOf p g)
  l.all Option.isSome && allPorts.all (fun x => l.contains (some x))

/-- The bank is live, draining, held or an armed shadow bank for partition p (06 R191). -/
def State.bankKept (s : State) (p g : Nat) : Bool :=
  s.gen p == g ||
    (s.getB pgICH (Reg.ICH_SWAP_DRAINING.at p) && s.gen p != g) ||
    (s.part p).heldBank == some g ||
    (s.getB pgICH (Reg.ICH_SWAP_ARM.at p) && s.gen p != g)

/-! ### Entries (06 Tables 2 and 4) -/

/-- A timetable entry. -/
structure TtEntry where
  kind : Nat
  part : Nat
  postcode : Nat
  dst : Nat
  hops : Nat
  mark : Bool
  manifest : Bool
  lastLen : Nat
  tile : Nat
  handle : Nat
  off : Nat
  cellR : Nat
  cellF : Nat
  fhop : Nat
  fkind : Nat
  run : Nat
  start : Nat
  deriving DecidableEq, Repr

def ttPUT : Nat := 1
def ttGETQ : Nat := 2
def ttGETR : Nat := 3
def ttTALLY : Nat := 4
def ttFWD : Nat := 8
def ttRETRY : Nat := 9
def ttHOLD : Nat := 0xA
def ttEND : Nat := 0xF

def runOf (n : Nat) : Nat := if n = 0 then 4096 else n

def TtEntry.ofBits (w : BitVec 128) : TtEntry :=
  let f := fun hi lo => bits w.toNat hi lo
  { kind := f 39 36, part := f 71 70, postcode := f 71 56, dst := f 55 40, hops := f 75 72, mark := f 76 76 == 1,
    manifest := f 77 77 == 1, lastLen := f 82 78, tile := f 91 84, handle := f 97 92, off := f 116 98, cellR := f 114 98,
    cellF := f 104 88, fhop := f 108 105, fkind := f 87 84, run := runOf (f 35 24), start := f 23 0 }

/-- The kind is legal, no value is reserved, and the fields that the kind, or a manifest run, does not use are 0 (06 R167). -/
def ttLegal (w : BitVec 128) : Bool :=
  let f := fun hi lo => bits w.toNat hi lo
  let e := TtEntry.ofBits w
  f 127 117 == 0 && f 83 83 == 0 &&
    (!e.manifest || decide (ttTALLY < e.kind) || (e.tile == 0 && e.handle == 0 && e.off == 0)) &&
    (if e.kind = ttPUT ∨ e.kind = ttGETQ ∨ e.kind = ttTALLY then e.hops != 0
     else if e.kind = ttGETR then e.hops != 0 && f 116 115 == 0
     else if e.kind = ttFWD then e.hops != 0 && f 116 109 == 0 && decide (1 ≤ e.fkind) && decide (e.fkind ≤ 4) && decide (2 ≤ e.fhop)
     else if e.kind = ttRETRY ∨ e.kind = ttHOLD then f 116 72 == 0 && f 69 40 == 0
     else if e.kind = ttEND then f 116 72 == 0 && f 69 40 == 0 && f 35 0 == 0
     else false)

/-- The cells that an entry names lie in its partition's range (06 R179). -/
def State.cellsIn (s : State) (p first n : Nat) : Bool :=
  decide (s.getF 0x023 (Reg.ICH_PH_BASE_CELL.at p) ≤ first) &&
    decide (first + n ≤ min (s.getF 0x023 (Reg.ICH_PH_LIMIT_CELL.at p)) 0x1A000)

/-- The entry is present: it belongs to its partition (06 R167, R179). -/
def State.ttPresent (s : State) (w : BitVec 128) : Bool :=
  let e := TtEntry.ofBits w
  ttLegal w && (if e.kind = ttFWD then s.cellsIn e.part e.cellF e.run
    else if e.kind = ttGETR then s.cellsIn e.part e.cellR ((e.run + 127) / 128) else true)

/-- A landing entry. -/
structure LdEntry where
  part : Nat
  postcode : Nat
  hopsSeen : Nat
  action : Nat
  mark : Bool
  due : Nat
  per : Nat
  lastLen : Nat
  tile : Nat
  handle : Nat
  off : Nat
  cell : Nat
  pkind : Nat
  run : Nat
  start : Nat
  deriving DecidableEq, Repr

def LdEntry.ofBits (w : BitVec 128) : LdEntry :=
  let f := fun hi lo => bits w.toNat hi lo
  { part := f 53 52, postcode := f 53 38, hopsSeen := f 57 54, action := f 60 58, mark := f 61 61 == 1, due := f 85 62,
    per := f 88 86 + 1, lastLen := f 93 89, tile := f 101 94, handle := f 107 102, off := f 126 108, cell := f 110 94,
    pkind := f 37 36 + 1, run := runOf (f 35 24), start := f 23 0 }

def ldWRITE : Nat := 0
def ldADD : Nat := 1
def ldPARK : Nat := 2
def ldMERGE : Nat := 3
def ldREQ : Nat := 4

/-- No value is reserved and no reserved field is set (06 R173). -/
def ldLegal (w : BitVec 128) : Bool :=
  let f := fun hi lo => bits w.toNat hi lo
  let e := LdEntry.ofBits w
  f 127 127 == 0 && e.hopsSeen != 0 && decide (e.action ≤ 4) && (decide (e.action ≤ 1) || f 127 111 == 0)

/-- The landing entry is present (06 R173, R179). -/
def State.ldPresent (s : State) (w : BitVec 128) : Bool :=
  let e := LdEntry.ofBits w
  ldLegal w && (decide (e.action ≤ 1) || s.cellsIn e.part e.cell e.run)

/-- The due beat of parcel i (06 R173). -/
def LdEntry.dueOf (e : LdEntry) (i : Nat) : Nat := e.due + i * e.per

/-- Bytes that parcel i of a run carries. -/
def lenOf (lastLen run i : Nat) : Nat := if i + 1 = run then 16 * (lastLen + 1) else 512

/-- The key of a table's entry: table 0 timetable, 1 landing. -/
def tableKey (table port bank index : Nat) : Nat := ((47 * table + port) * 2 + bank) * 32768 + index

/-- The entries listed of one table of one port and bank, in index order. -/
def State.tableRows (s : State) (table port bank : Nat) : List (Nat × BitVec 128) :=
  let k := tableKey table port bank 0
  (s.ich.tables.filter (fun e => decide (k ≤ e.1) && decide (e.1 < k + 32768))).map (fun e => (e.1 - k, e.2))

/-- Live timetable entries of partition p on logical port l, up to its END (06 R166); a lost entry is not used. -/
def State.liveTt (s : State) (p l : Nat) : List (Nat × TtEntry) :=
  ((((s.tableRows 0 l (s.gen p)).filter (fun e => s.ttPresent e.2 && !s.controlLost (upTable false l (s.gen p) e.1))).map
    (fun e => (e.1, TtEntry.ofBits e.2))).filter (fun e => e.2.part == p)).takeWhile (fun e => e.2.kind != ttEND)

/-- Landing entries of partition p on logical port l in bank g. -/
def State.liveLd (s : State) (p l g : Nat) : List (Nat × LdEntry) :=
  (((s.tableRows 1 l g).filter (fun e => s.ldPresent e.2 && !s.controlLost (upTable true l g e.1))).map
    (fun e => (e.1, LdEntry.ofBits e.2))).filter (fun e => e.2.part == p)

/-- The interchange reads entry `index` of a table (10 R290). -/
def State.useEntry (s : State) (land : Bool) (p l bank index : Nat) : State :=
  (s.useControl (upTable land l bank index) pgICH (some p)).2

/-- It reads the name of a logical port and the lease of a slot; the lease maps serve every partition (10 R289, R290). -/
def State.usePort (s : State) (p bank l : Nat) : State := (s.useControl (upName p bank l) pgICH (some p)).2

def State.useLease (s : State) (x slot : Nat) : State := (s.useControl (upLease x (slot % 64)) pgICH none).2

/-- Slots of a round on a port (06 R162). -/
def State.slots (s : State) (p x : Nat) : Nat := s.roundLen p / slotBeats x

/-- The partition runs the present round: it is RUNNING and the round is not skipped. -/
def State.roundRuns (s : State) (p : Nat) : Bool := s.prtState p == prtRUNNING && (s.part p).decision

/-- The entry departs or is active in this round (06 R168, R172). -/
def State.ttActive (s : State) (p : Nat) (e : TtEntry) : Bool :=
  s.prtState p == prtRUNNING && ((s.part p).decision || e.mark || e.kind == ttRETRY || e.kind == ttHOLD)

/-- Why a departure is suppressed (06 R169), the first case of its table that holds. -/
inductive SlotFate where
  | departs
  | unleased
  | pastEnd
  | conflict
  deriving DecidableEq, Repr

/-- The fate of slot `slot` for entry `idx` of partition p on logical port l, that stands for port x. -/
def State.slotFate (s : State) (p l x idx slot : Nat) : SlotFate :=
  if s.leaseOf x slot != some p then .unleased
  else if s.slots p x ≤ slot then .pastEnd
  else if (s.liveTt p l).any (fun e => decide (e.1 < idx) && s.ttActive p e.2 &&
      (slotIndex (s.sds x) e.2.start e.2.run slot).isSome) then .conflict
  else .departs

/-- A RETRY-RESERVE or HOLD run of partition p has slot `slot` of physical port x: an entry that stands earlier and claims the slot
keeps it (06 R168, R169). -/
def State.runSlot (s : State) (p x kind slot : Nat) : Bool :=
  match s.logicalOf p (s.gen p) x with
  | none => false
  | some l => (s.liveTt p l).any (fun e => e.2.kind == kind && (slotIndex (s.sds x) e.2.start e.2.run slot).isSome &&
      s.slotFate p l x e.1 slot == .departs)

/-- The slots of physical port x that partition p's RETRY-RESERVE runs serve (06 R168). -/
def State.retrySlot (s : State) (p x slot : Nat) : Bool := s.runSlot p x ttRETRY slot

/-- An NT lies in a slot of physical port x that a HOLD run of a running partition leaves idle (06 R168). -/
def State.holdAt (s : State) (x nt : Nat) : Bool :=
  allParts.any (fun p => s.prtState p == prtRUNNING && decide ((s.part p).startNt ≤ nt) &&
    s.runSlot p x ttHOLD (s.beatAt p nt / slotBeats x))

/-! ### Host runs and tenants (11 R317, R326) -/

def State.tenant (s : State) (t : Nat) : Tenant := s.hif.tenants.get t .reset

def State.modTenant (s : State) (t : Nat) (f : Tenant → Tenant) : State :=
  s.modHif (fun h => { h with tenants := h.tenants.put t (f (h.tenants.get t .reset)) .reset })

/-- A field of tenant t behind IGQ_SEL (11 R339), and one of its virtual function (11 R338). -/
def State.getT (s : State) (t : Nat) (f : Fld) : Nat := s.getF (pgIGT t) f

def State.getV (s : State) (t : Nat) (f : Fld) : Nat := s.getF (pgVF t) f

def State.setV (s : State) (t : Nat) (f : Fld) (v : Nat) : State := s.setF (pgVF t) f v

/-- VF t + 1 exists (11 R317). -/
def State.vfExists (s : State) (t : Nat) : Bool := s.hif.vfEnable && decide (t + 1 ≤ s.hif.numVfs)

/-- Tenant t is enabled: its VF exists and IGQ_T_CFG.EN is set (11 R317, R339). -/
def State.tenantOn (s : State) (t : Nat) : Bool := s.vfExists t && s.getT t Reg.IGQ_T_CFG_EN == 1

/-- The partition a tenant is assigned to (01 R20). -/
def State.partOfTenant (s : State) (t : Nat) : Nat := s.getT t Reg.IGQ_T_CFG_PART

/-- Insert before the first element that comes later. -/
def insertBy {α : Type} (later : α → α → Bool) (a : α) : List α → List α
  | [] => [a]
  | b :: l => if later b a then a :: b :: l else b :: insertBy later a l

/-- Sort, keeping the order of equals. -/
def sortBy {α : Type} (later : α → α → Bool) (l : List α) : List α := l.foldl (fun r a => insertBy later a r) []

/-- A host run table entry (11 Table 4). -/
structure HostRun where
  result : Bool
  part : Nat
  rslot : Nat
  tenant : Nat
  tile : Nat
  handle : Nat
  off : Nat
  units : Nat
  beat : Nat
  valid : Bool
  deriving DecidableEq, Repr

def HostRun.ofBits (w : BitVec 128) : HostRun :=
  let f := fun hi lo => bits w.toNat hi lo
  { result := f 127 127 == 1, part := f 126 125, rslot := f 124 101, tenant := f 100 91, tile := f 90 83, handle := f 82 77,
    off := f 76 58, units := f 57 48 + 1, beat := f 47 24, valid := f 0 0 == 1 }

/-- The image's section for this chip (12 R360). -/
def State.ownSection (s : State) (p : Nat) : Option Section :=
  (s.part p).image.bind (fun im => im.sections.find? (fun c => c.chip == s.chipId))

end Sys2Proof.Machine
end

