-- ==== Sys2Proof/Machine/Ports.lean ====
section
/-! DEFINITION. Sheet ports of a tile: owner classes, the slot wheel, and the accesses that the interchange and the host runs
make in a beat by the tables in force, with the ports and bank groups they hold (05 R140 to R146; 06 R161, R170, R175, R183). -/

namespace Sys2Proof.Machine

/-- Owner classes, 05 Table 4; 0xC and 0xD are the narrow accesses of the data mover and the scalar unit (Table 8). -/
def cMXI : Nat := 1
def cMXW : Nat := 2
def cTDR : Nat := 3
def cVXR : Nat := 4
def cVXW : Nat := 5
def cDMV : Nat := 6
def cFDP : Nat := 7
def cFAR : Nat := 8
def cSCR : Nat := 9
def cCLR : Nat := 10
def cDMN : Nat := 0xC
def cSCN : Nat := 0xD

/-- The order in which classes keep a bank group (05 R143), the first lowest. -/
def classRank (c : Nat) : Nat :=
  if c = cFAR then 0 else if c = cFDP then 1 else if c = cTDR then 2 else if c = cMXW then 3 else if c = cMXI then 4
  else if c = cVXW then 5 else if c = cVXR then 6 else 7

/-- Change-list entry i takes effect, given the start of the last entry before it that does (05 R141). -/
def State.wheelLater (s : State) (t : Nat) (last : Option Nat) (i : Nat) : Bool :=
  s.getB (pgTIL t) (Reg.TIL_WSEQ_VALID.at i) &&
    (match last with | none => true | some x => decide (x < s.getF (pgTIL t) (Reg.TIL_WSEQ_START8.at i)))

/-- The start of the last entry below n that takes effect, the list read in index order. -/
def State.wheelLast (s : State) (t : Nat) : Nat → Option Nat
  | 0 => none
  | n + 1 =>
    if s.wheelLater t (s.wheelLast t n) n then some (s.getF (pgTIL t) (Reg.TIL_WSEQ_START8.at n)) else s.wheelLast t n

/-- Change-list entry i takes effect: it is valid and starts later than every earlier entry that does (05 R141). -/
def State.wheelTakes (s : State) (t i : Nat) : Bool := s.wheelLater t (s.wheelLast t i) i

/-- The wheel in force in beat b: that of the last entry that takes effect and has started, wheel 0 before (05 R141). -/
def State.wheelAt (s : State) (t b : Nat) : Nat :=
  (List.range 16).foldl (fun w i =>
    if s.wheelTakes t i && decide (8 * s.getF (pgTIL t) (Reg.TIL_WSEQ_START8.at i) ≤ b) then
      s.getF (pgTIL t) (Reg.TIL_WSEQ_WHEEL.at i) else w) 0

/-- The owner code of each of the four ports in beat b (05 R140, Table 11); none when the wheel is lost (10 R290). -/
def State.portCodes (s : State) (t b : Nat) : List Nat :=
  if s.controlLost (upWheel t) then [] else
  let i := 4 * s.wheelAt t b + b % 8 / 2
  let g := fun (e o : Fld) => s.getF (pgTIL t) ((if b % 2 = 0 then e else o).at i)
  [g Reg.TIL_WHEEL_EVEN_P0 Reg.TIL_WHEEL_ODD_P0, g Reg.TIL_WHEEL_EVEN_P1 Reg.TIL_WHEEL_ODD_P1,
   g Reg.TIL_WHEEL_EVEN_P2 Reg.TIL_WHEEL_ODD_P2, g Reg.TIL_WHEEL_EVEN_P3 Reg.TIL_WHEEL_ODD_P3]

/-- Ports of a class in beat b. -/
def State.portsOf (s : State) (t b cls : Nat) : Nat := ((s.portCodes t b).filter (· == cls)).length

/-! ### Scheduled accesses of the interchange (06 R161, R170, R175, R183; 11 R326, R332) -/

/-- The handle right an access needs (05 Table 3): a departure's is fabric read, an arrival's fabric write, also for the read
of an addition. -/
def FabAcc.right (a : FabAcc) : Nat := if a.cls = cFDP then rFAR else rFAW

/-- The port that host runs stand under. -/
def hostPort : Nat := 47

/-- The word of a request cell that parcel i of a GETR run reads (06 R183): none when the cell is not FULL. -/
def Cell.request (c : Cell) (i : Nat) : Option Word :=
  match c.st, c.frame with
  | .full, some f => some (if 4 * (i % 128) < f.hdr.len then f.data.getD (i % 128) 0 else 0xFFFFFFFF)
  | _, _ => none

/-- The first unit that parcel i of a run reads; none when it reads no scratchpad. -/
def State.sourceUnit (s : State) (e : TtEntry) (i : Nat) : Option Nat :=
  if e.manifest then none
  else if e.kind = ttPUT ∨ e.kind = ttGETQ ∨ e.kind = ttTALLY then some (e.off + 4 * i)
  else if e.kind = ttGETR then
    match (s.ich.cells.get (e.cellR + i / 128) .reset).request i with
    | some w => if w = 0xFFFFFFFF then none else some w.toNat
    | none => none
  else none

/-- The reads that departures of partition p make in beat b: unit j of the parcel in slot k in beat B(k) − 8 + j. -/
def State.departReads (s : State) (p b : Nat) : List FabAcc :=
  allPorts.flatMap (fun l =>
    match s.physOf p (s.gen p) l with
    | none => []
    | some x => (s.liveTt p l).flatMap (fun z =>
      if s.ttActive p z.2 && !s.tileInReset z.2.tile then
        (List.range 4).filterMap (fun j =>
          let k := (b + 8 - j) / slotBeats x
          if slotBeats x * k + j = b + 8 then
            match slotIndex (s.sds x) z.2.start z.2.run k with
            | some i =>
              if 128 * j < lenOf z.2.lastLen z.2.run i ∧ s.slotFate p l x z.1 k = .departs then
                (s.sourceUnit z.2 i).map (fun u => ⟨x, slotBeats x * k - 8, z.2.tile, z.2.handle, u + j, cFDP, false, none⟩)
              else none
            | none => none
          else none)
      else []))

/-- The parcel that waits for parcel i of landing entry e. -/
def State.stagedFor (s : State) (p g l e i : Nat) : Option Staged :=
  s.ich.staged.find? (fun z => z.part == p && z.bank == g && z.port == l && z.entry == e && z.i == i)

/-- The units that landings of partition p write in beat b, or read there for an addition. A landing whose parcel is missing,
faulted or poisoned is written as poison in the same beats, and reads nothing (06 R176). -/
def State.landUnits (s : State) (p b : Nat) (write : Bool) : List FabAcc :=
  let g := s.gen p
  allPorts.flatMap (fun l =>
    match s.physOf p g l with
    | none => []
    | some x => (s.liveLd p l g).flatMap (fun z =>
      let e := z.2
      if e.action ≤ 1 ∧ ((s.part p).decision || e.mark) then
        (List.range 4).filterMap (fun j =>
          let q := e.due + j + (if write && e.action == ldADD then 2 else 0)
          let i := (b - q) / e.per
          if q ≤ b ∧ (b - q) % e.per = 0 ∧ i < e.run then
            let f : Option Frame := if s.ich.faulted.contains (p, l, z.1, i) then none else (s.stagedFor p g l z.1 i).map (·.frame)
            let len : Nat := match f with | some f => f.hdr.len | none => lenOf e.lastLen e.run i
            let adds : Bool := match f with | some f => !f.hdr.poison && e.action == ldADD | none => false
            if 128 * j < len ∧ (write || adds) then
              some ⟨x, e.dueOf i, e.tile, e.handle, e.off + 4 * i + j, cFAR, write, none⟩
            else none
          else none)
      else []))

/-- The units that result runs of partition p read in beat b, or distribution runs write. -/
def State.hostUnits (s : State) (p b : Nat) (write : Bool) : List FabAcc :=
  (s.hif.hostRun.map (fun e => HostRun.ofBits e.2)).filterMap (fun h =>
    if h.valid && h.result != write && h.part == p && s.tenantOn h.tenant && s.partOfTenant h.tenant == p &&
        !s.tileInReset h.tile && decide (h.beat ≤ b) && decide (b < h.beat + h.units) && (write || (s.part p).decision) then
      some ⟨hostPort, h.beat, h.tile, h.handle, h.off + (b - h.beat), if write then cFAR else cFDP, write, some h.tenant⟩
    else none)

/-- The scheduled accesses of one direction that region r's tiles see in beat b. -/
def State.planned (s : State) (r b : Nat) (write : Bool) : List FabAcc :=
  match s.partOfRegion r with
  | none => []
  | some p =>
    if s.prtState p ≠ prtRUNNING then []
    else ((if write then [] else s.departReads p b) ++ s.landUnits p b write ++ s.hostUnits p b write).filter
      (fun a => a.tile / 16 == r)

/-- The handle checks pass (05 R131). -/
def State.fabLive (s : State) (a : FabAcc) : Bool :=
  let hd := s.handle a.tile a.handle
  hd.check (hd.phys a.unit) a.right a.tenant == .pass

/-- Of two accesses of one port or class the one that stands first: by its operation's beat, then by unit (05 R143). -/
def FabAcc.after (a d : FabAcc) : Bool :=
  decide (d.first < a.first) || (a.first == d.first && (decide (d.unit < a.unit) || (a.unit == d.unit && decide (d.port < a.port))))

/-- The accesses of beat b to region r's tiles that the interchange has made so far and whose handle checks passed. -/
def State.madeBy (s : State) (r b : Nat) : List FabAcc :=
  ((List.range 16).flatMap (fun i => (s.tile (16 * r + i)).made)).filterMap (fun e => if e.1 = b then some e.2 else none)

/-- The accesses a region port carries in beat b: of those whose handles pass, the eight of the lowest fabric ports (06 R161).
`me` is an access under way; it and the accesses already made in the beat count whether or not the tables still show them. -/
def State.carried (s : State) (r b : Nat) (write : Bool) (me : List FabAcc) : List FabAcc :=
  let past := (s.madeBy r b).filter (fun a => !me.contains a)
  let l := (s.planned r b write).filter (fun a => s.fabLive a && !me.contains a && !past.contains a)
  (sortBy (fun a d => decide (d.port < a.port) || (a.port == d.port && a.after d))
    ((me ++ past).filter (fun a => a.write == write) ++ l)).take 8

/-- The accesses of the interchange that hold a sheet port of tile t in beat b (05 R143, step 2): of each class as many as the
wheel gives it ports, the FAR ones first. -/
def State.fabHolders (s : State) (t b : Nat) (me : List FabAcc) : List FabAcc :=
  let l := sortBy FabAcc.after ((s.carried (t / 16) b false me ++ s.carried (t / 16) b true me).filter (fun a => a.tile == t))
  (l.filter (fun a => a.cls == cFAR)).take (s.portsOf t b cFAR) ++ (l.filter (fun a => a.cls == cFDP)).take (s.portsOf t b cFDP)

/-- The bank group of an access. -/
def State.fabGroup (s : State) (a : FabAcc) : Nat := bankGroup ((s.handle a.tile a.handle).phys a.unit)

/-- The class of the interchange's access that keeps bank group bg of tile t in beat b (05 R143, step 3). -/
def State.fabWinner (s : State) (t b bg : Nat) (me : List FabAcc) : Option Nat :=
  ((s.fabHolders t b me).find? (fun a => s.fabGroup a == bg)).map (·.cls)

/-! ### Ports beyond the schedule (05 R142, R145; 06 R198) -/

/-- Owners of port uses beyond the schedule, as claims name them: the scrubber and the clear engine under their codes, a
window access under the class whose port it takes. -/
def cWRD : Nat := 17
def cWWR : Nat := 18

/-- The beat a tile is in: that of its sequencer while it runs, else that of its partition's round; without a partition the
beats since the anchor. -/
def State.tileBeat (s : State) (t : Nat) : Nat :=
  if s.seqState t = seqRUNNING then (s.tile t).seq.beat
  else match s.partOfTile t with
    | some p => s.partBeat p
    | none => beatsIn s.gear (s.nt - s.time.anchor)

/-- The tile ignores its wheel for its engines (05 R142). -/
def State.wheelIdle (s : State) (t : Nat) : Bool := s.seqState t != seqRUNNING && s.seqState t != seqSKIPPED

/-- Port uses beyond the schedule made in beat b under a claim that `f` picks. -/
def Tile.uses (x : Tile) (b : Nat) (f : Nat → Bool) : Nat := (x.claims.filter (fun c => c.1 == b && f c.2.2)).length

/-- A port use is left for the scrubber (9), the clear engine (10) or a window access (17 a read, 18 a write): one that the
wheel gives and that no scheduled access takes, or, while the tile ignores its wheel, any port that none takes. -/
def State.hasUse (s : State) (t code : Nat) : Bool :=
  let b := s.tileBeat t
  let x := s.tile t
  let own := if code = cWRD then cFDP else if code = cWWR then cFAR else code
  let taken := s.fabHolders t b []
  if s.wheelIdle t then decide (taken.length + x.uses b (fun _ => true) < 4)
  else decide ((taken.filter (fun a => a.cls == own)).length + x.uses b (· == code) < s.portsOf t b own)

/-- A port use of beat b claims its bank group; claims of other beats are over. -/
def State.claimUse (s : State) (t b bg code : Nat) : State :=
  s.modTile t (fun x => { x with claims := x.claims.filter (fun c => c.1 == b) ++ [(b, bg, code)] })

end Sys2Proof.Machine
end

