-- ==== Sys2Proof/Machine/Sched.lean ====
section
/-! DEFINITION. One beat of a tile: the accesses and effects of the operations in flight (03 R68 to R89), the resolution
of the beat's accesses (05 R143, R144), the checks at issue (04 R125 to R128, 03 R66) and the issue of a bundle. -/

namespace Sys2Proof.Machine

/-! ### Accesses -/

/-- An access that an operation in flight makes in a beat: its class, the place of the operation in the list of flights,
handle operand, unit offset (byte offset when narrow), words when narrow, right needed, slot and opcode, what it writes
(none for a read), and where read data goes. -/
structure Access where
  cls : Nat
  fi : Nat
  o : Opnd
  off : Nat
  narrow : Nat
  right : Nat
  op : Nat
  wr : Option (List (Nat × PV 32))
  dest : Nat
  scale : Bool
  deriving DecidableEq, Repr

/-- OP of an incident record: slot and opcode (10 Table 1). -/
def opCode (slot opc : Nat) : Nat := slot * 0x4000 + opc * 0x100

/-- 32 words of a buffer from word `w0`. -/
def bufUnit (b : Map (PV 32)) (w0 : Nat) : List (Nat × PV 32) :=
  (List.range 32).map (fun k => (k, b.get (w0 + k) (.zero 32)))

/-- Word k of unit r of a transposed block of n units with elements of eb bits (03 R88). -/
def transWord (b : Map (PV 32)) (eb r k : Nat) : PV 32 :=
  let per := 32 / eb
  (List.range per).foldl (fun (a : PV 32) j =>
    let w := b.get ((per * k + j) * 32 + r / per) (.zero 32)
    ⟨a.v ||| BitVec.ofNat 32 (bits w.v.toNat (eb * (r % per) + eb - 1) (eb * (r % per)) * 2 ^ (eb * j)), a.p || w.p⟩)
    (.zero 32)

/-- Words of a narrow access at byte offset `off`, numbered within the unit. -/
def narrowWords (off : Nat) (ws : List (PV 32)) : List (Nat × PV 32) :=
  (ws.zipIdx).map (fun w => (off / 4 % 32 + w.2, w.1))

/-- An access of the beat when `c` holds. -/
def accIf (c : Bool) (a : Access) : List Access := if c then [a] else []

/-- The accesses of a data mover operation in the beat `j` after its issue (03 Table 6). Of its two accesses in a beat
the one of the lower unit index stands first (05 R143). -/
def dmAccesses (fi j : Nat) (kind : DmKind) (n : Nat) (src dst : Opnd) (idx : List IdxSlot) (buf : Map (PV 32)) :
    List Access :=
  let wide := fun (o : Opnd) (off right opc : Nat) (wr : Option (List (Nat × PV 32))) (dest : Nat) =>
    ({ cls := cDMV, fi := fi, o := o, off := off, narrow := 0, right := right, op := opCode 1 opc, wr := wr,
       dest := dest, scale := false } : Access)
  let slot := fun i => idx.getD i .nothing
  match kind with
  | .copy =>
    accIf (decide (3 ≤ j) && decide (j < n + 3)) (wide dst (dst.off + (j - 3)) rDMW 1 (some (bufUnit buf (32 * (j - 3)))) 0)
    ++ accIf (decide (1 ≤ j) && decide (j < n + 1)) (wide src (src.off + (j - 1)) rDMR 1 none (32 * (j - 1)))
  | .fill w =>
    accIf (decide (1 ≤ j) && decide (j < n + 1))
      (wide dst (dst.off + (j - 1)) rDMW 2 (some ((List.range 32).map (fun k => (k, w)))) 0)
  | .trans eb =>
    accIf (decide (1 ≤ j) && decide (j < n + 1)) (wide src (src.off + (j - 1)) rDMR 3 none (32 * (j - 1)))
    ++ accIf (decide (n + 3 ≤ j) && decide (j < 2 * n + 3)) (wide dst (dst.off + (j - n - 3)) rDMW 3
        (some ((List.range 32).map (fun k => (k, transWord buf eb (j - n - 3) k)))) 0)
  | .gatherE s =>
    let u := (j - 2) * s / 128 - 1
    accIf (decide (2 + 128 / s ≤ j) && (j - 2) * s % 128 == 0 && decide (u < s / 2))
      (wide dst (dst.off + u) rDMW 4 (some (bufUnit buf (32 * u))) 0)
    ++ (match slot (j - 1) with
      | .idx i => accIf (decide (1 ≤ j) && decide (j ≤ 64))
          { cls := cDMN, fi := fi, o := src, off := i * s, narrow := s / 4, right := rDMR, op := opCode 1 4, wr := none,
            dest := (j - 1) * (s / 4), scale := false }
      | .nothing => []
      | .poisoned => [])
  | .scatterE s =>
    accIf (decide (1 ≤ j) && decide (j ≤ s / 2)) (wide src (src.off + (j - 1)) rDMR 5 none (32 * (j - 1)))
    ++ (match slot (j - 3) with
      | .idx i => accIf (decide (3 ≤ j) && decide (j < 67))
          { cls := cDMN, fi := fi, o := dst, off := i * s, narrow := s / 4, right := rDMW, op := opCode 1 5,
            wr := some (narrowWords (i * s) ((List.range (s / 4)).map
              (fun k => buf.get ((j - 3) * (s / 4) + k) (.zero 32)))),
            dest := 0, scale := false }
      | .nothing => []
      | .poisoned => [])
  | .gatherR u =>
    accIf (decide (3 ≤ j) && decide (j < 64 * u + 3)) (wide dst (dst.off + (j - 3)) rDMW 6 (some (bufUnit buf (32 * (j - 3)))) 0)
    ++ (match slot ((j - 1) / u) with
      | .idx i => accIf (decide (1 ≤ j) && decide (j < 64 * u + 1))
          (wide src (i * u + (j - 1) % u) rDMR 6 none (32 * (j - 1)))
      | .nothing => []
      | .poisoned => [])
  | .scatterR u =>
    (match slot ((j - 3) / u) with
      | .idx i => accIf (decide (3 ≤ j) && decide (j < 64 * u + 3))
          (wide dst (i * u + (j - 3) % u) rDMW 7 (some (bufUnit buf (32 * (j - 3)))) 0)
      | .nothing => []
      | .poisoned => [])
    ++ accIf (decide (1 ≤ j) && decide (j < 64 * u + 1)) (wide src (src.off + (j - 1)) rDMR 7 none (32 * (j - 1)))

/-- The last beat after issue in which a data mover operation makes an access (03 Table 6). -/
def dmLast (kind : DmKind) (n : Nat) : Nat :=
  match kind with
  | .copy => n + 2
  | .fill _ => n
  | .trans _ => 2 * n + 2
  | .gatherE _ => 66
  | .scatterE _ => 66
  | .gatherR u => 64 * u + 2
  | .scatterR u => 64 * u + 2

/-- The units of a drain's output stream that row j completes (03 R81): rows of `rw` words, `n` rows. -/
def drainUnits (rw n j : Nat) : List Nat :=
  let total := (rw * n + 31) / 32
  let lo := rw * j / 32
  let hi := if j + 1 = n then total else rw * (j + 1) / 32
  (List.range total).filter (fun u => decide (lo ≤ u) && decide (u < hi))

/-- The words of an output unit that the drain produced. -/
def outUnit (b : Map (PV 32)) (total u : Nat) : List (Nat × PV 32) :=
  (List.range 32).filterMap (fun k => if 32 * u + k < total then some (k, b.get (32 * u + k) (.zero 32)) else none)

/-- The accesses of an operation in flight in beat b. -/
def flightAccesses (fi b : Nat) (f : Flight) : List Access :=
  let rd := fun (cls right op : Nat) (o : Opnd) (off dest : Nat) (scale : Bool) =>
    ({ cls := cls, fi := fi, o := o, off := off, narrow := 0, right := right, op := op, wr := none, dest := dest,
       scale := scale } : Access)
  let wr := fun (cls right op : Nat) (o : Opnd) (off : Nat) (ws : List (Nat × PV 32)) =>
    ({ cls := cls, fi := fi, o := o, off := off, narrow := 0, right := right, op := op, wr := some ws, dest := 0,
       scale := false } : Access)
  match f with
  | .ld iss _ o _ => accIf (b == iss + 1)
      { cls := cSCN, fi := fi, o := o, off := o.off, narrow := 1, right := rDMR, op := opCode 0 6, wr := none, dest := 0,
        scale := false }
  | .st iss o d => accIf (b == iss + 1)
      { cls := cSCN, fi := fi, o := o, off := o.off, narrow := 1, right := rDMW, op := opCode 0 7,
        wr := some (narrowWords o.off [d]), dest := 0, scale := false }
  | .dmv iss kind n src dst idx _ buf => dmAccesses fi (b - iss) kind n src dst idx buf
  | .mxload iss _ pair _ o sc _ _ =>
    let g := pairWgt pair
    let u := b - iss - 1
    accIf (decide (u < g.planeUnits)) (rd cMXW rMXR (opCode 2 1) o (o.off + u) (32 * u) false)
    ++ accIf (decide (g.planeUnits ≤ u) && decide (u < g.planeUnits + g.planeScales))
        (rd cMXW rMXR (opCode 2 1) sc (sc.off + (u - g.planeUnits)) (32 * (u - g.planeUnits)) true)
  | .mxstream iss _ _ m _ o sc mc _ _ _ =>
    let g := pairAct (mcField mc.v .pair)
    let at' := fun u => iss + 1 + g.rowBeats * (128 * u / g.bytes)
    (((List.range (g.streamUnits m)).filter (fun u => at' u == b)).map (fun u =>
      rd cMXI rMXR (opCode 2 2) o (o.off + u) (32 * u) false))
    ++ (if b = iss + 1 then (List.range (g.streamScales m)).map (fun v =>
          rd cMXI rMXR (opCode 2 2) sc (sc.off + v) (32 * v) true) else [])
  | .tclr _ _ _ => []
  | .tload iss _ n o _ =>
    let u := b - iss - 1
    accIf (decide (u < 8 * n)) (rd cMXI rMXR (opCode 2 4) o (o.off + u) (32 * u) false)
  | .tdrain iss _ n o sc _ mc out scout =>
    let d := mcField mc.v .dfmt
    let total := drainWords d * n
    let units := if d = 8 then (if iss + 6 ≤ b ∧ b - iss - 6 < 8 * n then [b - iss - 6] else [])
      else if iss + 6 ≤ b ∧ b - iss - 6 < n then drainUnits (drainWords d) n (b - iss - 6) else []
    (units.map (fun u => wr cTDR rMXW (opCode 2 5) o (o.off + u) (outUnit out total u)))
    ++ accIf (isLedger d && b == iss + n + 5) (wr cTDR rMXW (opCode 2 5) sc sc.off (outUnit scout (n / 2) 0))
  | .vres .. => []
  | .pres .. => []
  | .sres .. => []
  | .vld iss _ o _ _ _ => if b = iss + 1 then
      [rd cVXR rVXR (opCode 3 0x28) o o.off 0 false, rd cVXR rVXR (opCode 3 0x28) o (o.off + 1) 32 false] else []
  | .vptld iss _ o _ => accIf (b == iss + 1) (rd cVXR rVXR (opCode 3 0x26) o o.off 0 false)
  | .vst iss o ws => if b = iss + 2 then
      let unit := fun (j : Nat) => (List.range 32).filterMap (fun k =>
        match ws.getD (32 * j + k) none with | some v => some (k, v) | none => none)
      [wr cVXW rVXW (opCode 3 0x29) o o.off (unit 0), wr cVXW rVXW (opCode 3 0x29) o (o.off + 1) (unit 1)] else []
  | .vdispatch .. => []
  | .vdclr _ => []

/-- The beat of an operation's last access or effect. -/
def flightLast (f : Flight) : Nat :=
  match f with
  | .ld iss _ _ _ => iss + 2
  | .st iss _ _ => iss + 1
  | .dmv iss kind n _ _ _ _ _ => iss + dmLast kind n
  | .mxload iss _ pair _ _ _ _ _ => iss + (pairWgt pair).planeUnits + (pairWgt pair).planeScales + 1
  | .mxstream iss _ _ m _ _ _ mc _ _ _ => iss + 2 + (m - 1) * (pairAct (mcField mc.v .pair)).rowBeats + 67
  | .tclr iss _ _ => iss + 1
  | .tload iss _ n _ _ => iss + 9 + 8 * (n - 1)
  | .tdrain iss _ n _ _ _ mc _ _ => if mcField mc.v .dfmt = 8 then iss + 8 * n + 5 else iss + n + 5
  | .vres _ due _ _ _ => due
  | .pres _ due _ _ _ _ _ => due
  | .sres _ due _ _ => due
  | .vld iss _ _ _ _ _ => iss + 2
  | .vptld iss _ _ _ => iss + 2
  | .vst iss _ _ => iss + 2
  | .vdispatch iss _ _ _ _ _ _ => iss + 5
  | .vdclr iss => iss + 1

/-- Put read words into a buffer. -/
def fillBuf (b : Map (PV 32)) (w0 : Nat) (ws : List (PV 32)) : Map (PV 32) :=
  (ws.zipIdx).foldl (fun b w => b.put (w0 + w.2) w.1 (.zero 32)) b

/-- Give an operation the data of one of its reads. -/
def deliver (f : Flight) (a : Access) (ws : List (PV 32)) : Flight :=
  match f with
  | .ld iss sd o _ => .ld iss sd o (ws.headD (.bad 32))
  | .dmv iss k n s d i tt buf => .dmv iss k n s d i tt (fillBuf buf a.dest (ws.map (fun w => ⟨w.v, w.p || tt⟩)))
  | .mxload iss p pr mp o sc e x =>
    if a.scale then .mxload iss p pr mp o sc e (fillBuf x a.dest ws) else .mxload iss p pr mp o sc (fillBuf e a.dest ws) x
  | .mxstream iss p c m t0 o sc mc e x rows =>
    if a.scale then .mxstream iss p c m t0 o sc mc e (fillBuf x a.dest ws) rows
    else .mxstream iss p c m t0 o sc mc (fillBuf e a.dest ws) x rows
  | .tload iss t0 n o buf => .tload iss t0 n o (fillBuf buf a.dest ws)
  | .vld iss vd o m mp buf => .vld iss vd o m mp (fillBuf buf a.dest ws)
  | .vptld iss t o buf => .vptld iss t o (fillBuf buf a.dest ws)
  | .st iss o d => .st iss o d
  | .tclr iss t0 n => .tclr iss t0 n
  | .tdrain iss t0 n o sc c mc x y => .tdrain iss t0 n o sc c mc x y
  | .vres i d v l g => .vres i d v l g
  | .pres i d v m x p g => .pres i d v m x p g
  | .sres i d v x => .sres i d v x
  | .vst i o w => .vst i o w
  | .vdispatch i v l m mp c r => .vdispatch i v l m mp c r
  | .vdclr i => .vdclr i

/-! ### Resolution of a beat (05 R143, R144) -/

/-- An access after the handle checks: the handle, the physical unit and whether it takes part further. -/
structure Checked where
  a : Access
  hd : Handle
  p : Nat
  live : Bool
  deriving DecidableEq, Repr

/-- Step 1: the handle checks of every access of the beat. -/
def checkHandles (s : State) (t b : Nat) (l : List Access) : List Checked × State :=
  l.foldl (fun (acc : List Checked × State) a =>
    let s := acc.2.useHandle t a.o.h
    let hd := s.handle t a.o.h
    let u := if a.narrow = 0 then a.off else a.off / 128
    let p := hd.phys u
    if a.o.bad then (acc.1 ++ [⟨a, hd, p, false⟩], s.refusePoison t)
    else match hd.check p a.right none with
      | .pass => (acc.1 ++ [⟨a, hd, p, true⟩], s)
      | .closed => (acc.1 ++ [⟨a, hd, p, false⟩], s.refuse t .closed a.o.h u p a.op b none)
      | .refused => (acc.1 ++ [⟨a, hd, p, false⟩], s.refuse t .refused a.o.h u p a.op b none)) ([], s)

/-- One suppression: count, flag, first record and at most one incident in the beat (05 R144). Where no port was left no bank
group is contested, and TIER and BG name the access's own (DESIGN CHOICE, log entry 92). -/
def State.suppress (s : State) (t b loser winner p h off op : Nat) : State :=
  let pg := pgTIL t
  let s := s.addF pg Reg.TIL_SPD_COLLCNT_COUNT 1
  let s := if s.getB pg Reg.TIL_SPD_ERR_COLL then s
    else s.setFs pg [(Reg.TIL_SPD_ERR_COLL, 1), (Reg.TIL_SPD_COLL_LOSER, loser), (Reg.TIL_SPD_COLL_WINNER, winner),
      (Reg.TIL_SPD_COLL_BEAT, b), (Reg.TIL_SPD_COLLX_TIER, tierOf p), (Reg.TIL_SPD_COLLX_BG, p % 8)]
  if (s.tile t).collBeats.contains b then s
  else (s.modTile t (fun x => { x with collBeats := b :: x.collBeats })).raiseTile t 0x1004 (tierOf p) op h off openData b

/-- How an access fares: it proceeds, or it is suppressed by a class (0xF when no port was left), or it was refused. -/
inductive Fate where
  | proceeds
  | lost (winner : Nat)
  | refused
  deriving DecidableEq, Repr

/-- Steps 2 to 4 of 05 R143 for the checked accesses of the engines; the interchange's scheduled accesses of the beat stand above
them. -/
def fates (s : State) (t b : Nat) (l : List Checked) : List (Checked × Fate) :=
  let fab := (s.fabHolders t b []).map (fun a => (s.fabGroup a, a.cls))
  let claim := fun (bg : Nat) => (fab.find? (fun e => e.1 == bg)).map (·.2)
  let ix := l.zipIdx
  let wide := fun (c : Checked) => c.live && c.a.narrow == 0
  let hasPort := fun (c : Checked) (i : Nat) =>
    wide c && decide ((ix.filter (fun d => wide d.1 && d.1.a.cls == c.a.cls && decide (d.2 < i))).length
      < s.portsOf t b c.a.cls)
  let beats := fun (d : Checked) (j : Nat) (c : Checked) (i : Nat) =>
    hasPort d j && bankGroup d.p == bankGroup c.p && j != i &&
      (decide (classRank d.a.cls < classRank c.a.cls) || (classRank d.a.cls == classRank c.a.cls && decide (j < i)))
  let wideFate := fun (c : Checked) (i : Nat) =>
    if !hasPort c i then Fate.lost 0xF
    else match claim (bankGroup c.p) with
      | some w => .lost w
      | none => match ix.find? (fun d => beats d.1 d.2 c i && !(ix.any (fun e => beats e.1 e.2 d.1 d.2))) with
        | some d => .lost d.1.a.cls
        | none => .proceeds
  let wideWinner := fun (bg : Nat) => match claim bg with
    | some w => some w
    | none => (ix.find? (fun d => wide d.1 && bankGroup d.1.p == bg && wideFate d.1 d.2 == .proceeds)).map (·.1.a.cls)
  ix.map (fun (c, i) =>
    if !c.live then (c, .refused)
    else if c.a.narrow = 0 then (c, wideFate c i)
    else match wideWinner (bankGroup c.p) with
      | some w => (c, .lost w)
      | none =>
        if c.a.cls == cSCN && ix.any (fun d => d.1.live && d.1.a.cls == cDMN && bankGroup d.1.p == bankGroup c.p)
        then (c, .lost cDMN) else (c, .proceeds))

/-- The accesses of a beat in the order of the steps that decide them: those without a port, those that lost a bank group to
a wide access, and the others (DEDUCED, log entry 43). -/
def inSteps (l : List (Checked × Fate)) : List (Checked × Fate) :=
  let noPort := fun (e : Checked × Fate) => e.1.a.narrow == 0 && e.2 == .lost 0xF
  let lostGroup := fun (e : Checked × Fate) =>
    e.1.a.narrow == 0 && (match e.2 with | .lost w => w != 0xF | .proceeds => false | .refused => false)
  l.filter noPort ++ l.filter lostGroup ++ l.filter (fun e => !noPort e && !lostGroup e)

/-- Carry out the accesses of a beat: the reads' data for each flight, and the state after. -/
def performAll (s : State) (t b : Nat) (l : List (Checked × Fate)) : List (Access × List (PV 32)) × State :=
  let (res, s, ws) := l.foldl (fun (acc : List (Access × List (PV 32)) × State × List (Nat × Nat)) (e : Checked × Fate) =>
    let (res, s, ws) := acc
    let c := e.1
    let n := if c.a.narrow = 0 then 32 else c.a.narrow
    let k0 := if c.a.narrow = 0 then 0 else c.a.off / 4 % 32
    let u := if c.a.narrow = 0 then c.a.off else c.a.off / 128
    match e.2 with
    | .refused => (res ++ [(c.a, badWords n)], s, ws)
    | .lost w => (res ++ [(c.a, badWords n)], s.suppress t b c.a.cls w c.p c.a.o.h u c.a.op, ws)
    | .proceeds =>
      match c.a.wr with
      | none =>
        let (d, s) := s.readWords t c.a.o.h u c.hd c.p ((List.range n).map (· + k0)) c.a.op b
        (res ++ [(c.a, d)], s, ws)
      | some d =>
        let s := s.writeWords t c.a.o.h u c.hd c.p d c.a.op b
        let key := wordKey c.hd.col c.p (match d with | [] => k0 | w :: _ => if c.a.narrow = 0 then 0 else w.1)
        (res, s, if d.isEmpty then ws else ws ++ [(c.p, key)])) ([], s, [])
  (res, s.injectTile t ws)

/-- All accesses of beat b of tile t, resolved together, with their data delivered to the operations in flight. -/
def State.runAccesses (s : State) (t b : Nat) : State :=
  let fl := (s.tile t).flight
  let accs := ((fl.zipIdx).map (fun f => flightAccesses f.2 b f.1)).flatten
  let (cl, s) := checkHandles s t b accs
  let (res, s) := performAll s t b (inSteps (fates s t b cl))
  let fl' := (fl.zipIdx).map (fun f =>
    res.foldl (fun (g : Flight) r => if r.1.fi = f.2 ∧ r.1.wr.isNone then deliver g r.1 r.2 else g) f.1)
  s.modTile t (fun x => { x with flight := fl' })

/-! ### Effects of a beat -/

/-- Write lanes of a vector register under bit masks; a lane written in part keeps its other bits and their poison. -/
def Arch.wrLanes (a : Arch) (vd : Nat) (l : List (Nat × Word × PV 32)) : Arch :=
  l.foldl (fun a e =>
    let old := a.vreg.get (64 * vd + e.1) (.zero 32)
    let v := (old.v &&& ~~~e.2.1) ||| (e.2.2.v &&& e.2.1)
    a.wrV vd e.1 ⟨v, e.2.2.p || (e.2.1 != BitVec.allOnes 32 && old.p)⟩) a

/-- Set Tally row entries. -/
def Arch.setRow (a : Arch) (row : Nat) (xs : List TEnt) : Arch :=
  (xs.zipIdx).foldl (fun a x => a.wrT row x.2 x.1) a

def Arch.row (a : Arch) (row : Nat) : List TEnt := (List.range 64).map (a.rdT row)

/-- Clear a Tally row: entries 0, checksum entry 0, CKV set (03 Table 3). -/
def Arch.clearRow (a : Arch) (row : Nat) : Arch :=
  let a := (List.range 64).foldl (fun a c => a.wrT row c .zero) a
  { a with cksum := a.cksum.put row 0 0, ckvClear := a.ckvClear.put row false false }

/-- The tile that makes a spill reports it (02 R48). -/
def State.spill (s : State) (t op beat : Nat) : State :=
  (s.orFlags t fSPILL).raiseTile t 0x1001 0 op 0xFF 0 openData beat

/-- The stamp threshold of element i: SR uses u = stamp[31:16] (02 R50, R56 to R58). -/
def State.rounding (s : State) (t rm stream i : Nat) : Rnd :=
  if rm = 0 then .rne else if rm = 1 then .rtz
  else
    let p := (s.partOfTile t).getD 0
    let seed := s.get64 (pgPRT p) Reg.PRT_SEED_LO Reg.PRT_SEED_HI
    let step := s.get64 (pgPRT p) Reg.PRT_STEP_LO Reg.PRT_STEP_HI
    let idx := ((s.tile t).arch.stamps.get stream 0 + i) % 2 ^ 32
    .sr ((stamp seed step (s.chipId * 256 + t) stream idx).toNat / 65536)

/-- One 64-element operation of stream `stream` has used its stamp indices (02 R58). -/
def State.useStamps (s : State) (t rm stream : Nat) : State :=
  if rm = 2 then s.modArch t (fun a =>
    { a with stamps := a.stamps.put stream ((a.stamps.get stream 0 + 64) % 2 ^ 32) 0 }) else s

/-- The drain of row j in its read beat: the row is converted as it stands; clearing follows (03 R78, R80 to R82). -/
def drainStep (s : State) (t b : Nat) (f : Flight) : Flight × State :=
  match f with
  | .tdrain iss t0 n o sc clr mc out scout =>
    let d := mcField mc.v .dfmt
    let p := drainBeats d
    let j := (b - iss - 1) / p
    if iss + 1 ≤ b ∧ (b - iss - 1) % p = 0 ∧ j < n then
      let a := (s.tile t).arch
      let xs := a.row (t0 + j)
      let rm := mcField mc.v .rm
      let stream := mcField mc.v .stream
      let miss := d != 8 && !a.ckvClear.get (t0 + j) false && checksumMiss xs (a.cksum.get (t0 + j) 0)
      let row := drainRow d (s.rounding t rm stream) (mcField mc.v .sat == 1) (mc.p || miss)
        (mcSigned mc.v .w - mcSigned mc.v .d) xs
      let s := if d = 8 then s else s.useStamps t rm stream
      let s := s.orFlags t row.flags
      let s := if row.spill then s.spill t (opCode 2 5) b else s
      let s := if miss then
          ((s.setFs (pgTIL t) [(Reg.TIL_MX_STAT_CKMIS, 1), (Reg.TIL_MX_STAT_CKMIS_ROW, t0 + j)]).addF (pgTIL t)
            Reg.TIL_CKMIS_CNT_COUNT 1).raiseTile t 0x1002 0 (opCode 2 5) 0xFF 0
            (((rowSum xs).toInt - (a.cksum.get (t0 + j) 0).toInt) % 2 ^ 64).toNat b
        else s
      let scout := if isLedger d then
          let k := j / 2
          let old := scout.get k (.zero 32)
          scout.put k ⟨old.v ||| BitVec.ofNat 32 (row.scale * 2 ^ (16 * (j % 2))), old.p || row.scalePoison⟩ (.zero 32)
        else scout
      (.tdrain iss t0 n o sc clr mc (fillBuf out (drainWords d * j) row.words) scout, s)
    else (f, s)
  | .ld .. | .st .. | .dmv .. | .mxload .. | .mxstream .. | .tclr .. | .tload .. | .vres .. | .pres .. | .sres ..
  | .vld .. | .vptld .. | .vst .. | .vdispatch .. | .vdclr .. => (f, s)

/-- A row enters the array in beat b: its contributions are formed from the plane as it stands (03 R73, R74). -/
def enterRow (s : State) (t b : Nat) (loading : Bool) (f : Flight) : Flight :=
  match f with
  | .mxstream iss plane chk m t0 o sc mc e x rows =>
    let pair := mcField mc.v .pair
    let r := (pairAct pair).rowBeats
    let i := (b - iss - 2) / r
    let rows := if loading then rows.map (fun z => if z.entry + 65 < b || mc.p then z else { z with opened := true }) else rows
    if iss + 2 ≤ b ∧ (b - iss - 2) % r = 0 ∧ i < m then
      let pl := (s.tile t).arch.plane plane
      let (cols, check) := streamRow pair mc pl e x i
      let other := match pl.pair with | none => false | some q => q != pair
      .mxstream iss plane chk m t0 o sc mc e x
        (rows ++ [⟨t0 + i, b, cols, check, (loading || other) && !mc.p && !pl.poison⟩])
    else .mxstream iss plane chk m t0 o sc mc e x rows
  | .ld .. | .st .. | .dmv .. | .mxload .. | .tclr .. | .tload .. | .tdrain .. | .vres .. | .pres .. | .sres ..
  | .vld .. | .vptld .. | .vst .. | .vdispatch .. | .vdclr .. => f

/-- A load of the plane makes or awaits its reads in beat b: from its first read until the plane is complete. -/
def loadsPlane (b : Nat) (plane : Bool) (f : Flight) : Bool :=
  match f with
  | .mxload iss p _ _ _ _ _ _ => p == plane && decide (iss + 1 ≤ b) && decide (b ≤ flightLast f)
  | .ld .. | .st .. | .dmv .. | .mxstream .. | .tclr .. | .tload .. | .tdrain .. | .vres .. | .pres .. | .sres ..
  | .vld .. | .vptld .. | .vst .. | .vdispatch .. | .vdclr .. => false

/-- The plane an operation streams through. -/
def streamPlane (f : Flight) : Bool :=
  match f with
  | .mxstream _ p _ _ _ _ _ _ _ _ _ => p
  | .ld .. | .st .. | .dmv .. | .mxload .. | .tclr .. | .tload .. | .tdrain .. | .vres .. | .pres .. | .sres ..
  | .vld .. | .vptld .. | .vst .. | .vdispatch .. | .vdclr .. => false

/-- A Tally row whose values are open: every entry and the checksum entry take free values, and so do the flags, while CKV is
cleared by the streams that always clear it (03 R73, R79, 04 R110); a row that ends holding the spill marker raises the
window-spill incident. -/
def State.openRow (s : State) (t row op b : Nat) (clr : Bool) : State :=
  let (xs, s) := (List.range 64).foldl (fun (acc : List TEnt × State) _ =>
    let (v, s) := acc.2.freeBits 129
    (acc.1 ++ [⟨BitVec.ofNat 128 v, v.testBit 128⟩], s)) ([], s)
  let (c, s) := s.freeBits 136
  let (f, s) := s.freeBits 8
  let s := s.modArch t (fun a =>
    let a := a.setRow row xs
    { a with cksum := a.cksum.put row (BitVec.ofNat 136 c) 0,
             ckvClear := if clr then a.ckvClear.put row true false else a.ckvClear })
  let s := s.orFlags t (BitVec.ofNat 8 f &&& (fSPILL ||| fNANIN ||| fGRIDLOSS))
  if xs.any (fun x => x.t == spillMark) then s.spill t op b else s

/-- The contributions of row z of a stream take effect (03 R74, R79; 02 R44). -/
def State.contributeRow (s : State) (t b : Nat) (chk : Bool) (mc : PV 64) (z : StreamRow) : State :=
  let clr := clearsCkv (mcField mc.v .pair) chk (mcSigned mc.v .w)
  if z.opened then s.openRow t z.row (opCode 2 2) b clr
  else
    let a := (s.tile t).arch
    let pairs := List.zipWith TEnt.contribute (a.row z.row) z.cols
    let s := s.modArch t (fun a =>
      let a := a.setRow z.row (pairs.map (·.1))
      let a := if clr then { a with ckvClear := a.ckvClear.put z.row true false } else a
      if chk then { a with cksum := a.cksum.put z.row (a.cksum.get z.row 0 + BitVec.ofInt 136 z.check.sum) 0 } else a)
    let s := s.orFlags t (flagIf (z.cols.any (·.nan)) fNANIN ||| flagIf (z.cols.any (·.loss)) fGRIDLOSS)
    if pairs.any (·.2) then s.spill t (opCode 2 2) b else s

/-- The clears and loads of Tally rows in beat b (03 R78). -/
def State.clearsLoads (s : State) (t b : Nat) (f : Flight) : State :=
  match f with
  | .tclr iss t0 n => if b = iss + 1 then s.modArch t (fun a => (List.range n).foldl (fun a j => a.clearRow (t0 + j)) a) else s
  | .tdrain iss t0 n _ _ clr mc _ _ =>
    let p := drainBeats (mcField mc.v .dfmt)
    let j := (b - iss - 1) / p
    if clr ∧ iss + 1 ≤ b ∧ (b - iss - 1) % p = 0 ∧ j < n then s.modArch t (fun a => a.clearRow (t0 + j)) else s
  | .tload iss t0 n _ buf =>
    let j := (b - iss - 9) / 8
    if iss + 9 ≤ b ∧ (b - iss - 9) % 8 = 0 ∧ j < n then
      let xs := (List.range 64).map (fun c => loadEntry ((List.range 4).map (fun k =>
        buf.get (256 * j + 4 * c + k) (.zero 32))))
      let s := s.modArch t (fun a =>
        let a := a.setRow (t0 + j) (xs.map (·.1))
        { a with cksum := a.cksum.put (t0 + j) (rowSum (xs.map (·.1))) 0, ckvClear := a.ckvClear.put (t0 + j) false false })
      if xs.any (·.2) then s.spill t (opCode 2 4) b else s
    else s
  | .ld .. | .st .. | .dmv .. | .mxload .. | .mxstream .. | .vres .. | .pres .. | .sres ..
  | .vld .. | .vptld .. | .vst .. | .vdispatch .. | .vdclr .. => s

/-- One lane of VDISPATCH in lane order (03 R87, 04 R123). A lane that is poisoned and inactive is written poisoned (DESIGN
CHOICE, log entry 92). -/
def dispatchLane (cap : Nat) (acc : Map Nat × Nat × List (Nat × Word × PV 32)) (i : Nat) (x : PV 32) (active pp : Bool) :
    Map Nat × Nat × List (Nat × Word × PV 32) :=
  let (cnt, drops, out) := acc
  let all := BitVec.allOnes 32
  if x.p then (cnt, drops, out ++ [(i, all, ⟨all, true⟩)])
  else if !active || x.v.getLsbD 31 then (cnt, drops, out ++ [(i, all, ⟨all, pp⟩)])
  else
    let e := x.v.toNat % 256
    let c := cnt.get e 0
    if c < cap then (cnt.put e (c + 1) 0, drops, out ++ [(i, all, ⟨BitVec.ofNat 32 (e * cap + c), pp⟩)])
    else (cnt, drops + 1, out ++ [(i, all, ⟨all, pp⟩)])

/-- The register effects of an operation in beat b. A predicate that a compare writes in part keeps its poison (DESIGN CHOICE, log
entry 92). -/
def flightEffect (s : State) (t b : Nat) (f : Flight) : Flight × State :=
  match f with
  | .ld iss sd _ d => (f, if b = iss + 2 then s.modArch t (fun a => a.wrS (BitVec.ofNat 5 sd) d) else s)
  | .mxload _ plane pair mp _ _ e x =>
    (f, if b = flightLast f then s.modArch t (fun a => a.setPlane plane ⟨some pair, mp, e, x⟩) else s)
  | .mxstream _ _ chk _ _ _ _ mc _ _ rows =>
    (f, rows.foldl (fun s z => if z.entry + 67 = b then s.contributeRow t b chk mc z else s) s)
  | .vres _ due vd l g => (f, if b = due then (s.modArch t (fun a => a.wrLanes vd l)).orFlags t g else s)
  | .pres _ due pd m v p g =>
    (f, if b = due then (s.modArch t (fun a =>
        let old := a.rdP (BitVec.ofNat 3 pd)
        a.wrP (BitVec.ofNat 3 pd) ⟨(old.v &&& ~~~m) ||| (v &&& m), p || (m != BitVec.allOnes 64 && old.p)⟩)).orFlags t g else s)
  | .sres _ due sd v => (f, if b = due then s.modArch t (fun a => a.wrS (BitVec.ofNat 5 sd) v) else s)
  | .vld iss vd _ m mp buf =>
    (f, if b = iss + 2 then s.modArch t (fun a => a.wrLanes vd ((List.range 64).filterMap (fun i =>
        if m.getLsbD i then
          let w := buf.get i (.zero 32)
          some (i, BitVec.allOnes 32, ⟨w.v, w.p || mp⟩) else none))) else s)
  | .vptld iss tb _ buf =>
    (f, if b = iss + 2 then s.modArch t (fun a =>
        { a with
          ptab := (List.range 64).foldl (fun m i =>
            m.put (64 * tb + i) (BitVec.ofNat 6 ((buf.get (i / 4) (.zero 32)).v.toNat / 2 ^ (8 * (i % 4)))) 0) a.ptab,
          ptabPoison := a.ptabPoison.put tb ((List.range 32).any (fun k => (buf.get k (.zero 32)).p)) false }) else s)
  | .vdispatch iss vd lanes m mp cap res =>
    if b = iss + 1 then
      if cap.p then
        (.vdispatch iss vd lanes m mp cap ((List.range 64).map (fun i => (i, BitVec.allOnes 32, ⟨BitVec.allOnes 32, true⟩))), s)
      else
        let n := if cap.v.toNat % 65536 = 0 then 65536 else cap.v.toNat % 65536
        let (cnt, drops, out) := (lanes.zipIdx).foldl (fun acc x =>
          dispatchLane n acc x.2 x.1 (m.getLsbD x.2) mp) ((s.tile t).arch.dcnt, 0, [])
        (.vdispatch iss vd lanes m mp cap out,
          (s.modArch t (fun a => { a with dcnt := cnt })).addF (pgTIL t) Reg.TIL_DISPATCH_DROPS_COUNT drops)
    else (f, if b = iss + 5 then s.modArch t (fun a => a.wrLanes vd res) else s)
  | .vdclr iss => (f, if b = iss + 1 then s.modArch t (fun a => { a with dcnt := [] }) else s)
  | .st .. | .dmv .. | .tclr .. | .tload .. | .tdrain .. | .vst .. => (f, s)

/-- The accesses and effects of beat b of tile t for operations already in flight; finished operations leave the list. Drains read
before the beat's clears and loads of Tally rows take effect (DESIGN CHOICE, log entry 92): a drain that reads a row in the beat
of a TCLR of it takes the value from before the clear. -/
def State.runFlights (s : State) (t b : Nat) : State :=
  let s := s.runAccesses t b
  let fl := (s.tile t).flight
  let (fl, s) := fl.foldl (fun (acc : List Flight × State) f =>
    let (f, s) := drainStep acc.2 t b f
    (acc.1 ++ [f], s)) ([], s)
  let fl := fl.map (fun f => enterRow s t b (fl.any (loadsPlane b (streamPlane f))) f)
  let s := fl.foldl (fun s f => s.clearsLoads t b f) s
  let (fl, s) := fl.foldl (fun (acc : List Flight × State) f =>
    let (f, s) := flightEffect acc.2 t b f
    (acc.1 ++ [f], s)) ([], s)
  s.modTile t (fun x => { x with flight := fl.filter (fun f => decide (b < flightLast f)) })

end Sys2Proof.Machine
end

