-- ==== Sys2Proof/Machine/Issue.lean ====
section
/-! DEFINITION. Issue of a bundle (03 R63 to R66, 04 R94 to R101, R125 to R128): fetch, the checks at issue, the effects in
the issue beat, the operations started, post-increments, counted loops, held beats and the end of a round. -/

namespace Sys2Proof.Machine

/-! ### Stopping -/

/-- A tile reads STOPPED with its beat frozen, and nothing scheduled for this beat or later happens (03 R66, 04 R127). -/
def State.freezeTile (s : State) (t b : Nat) : State :=
  ((s.setSeqState t seqSTOPPED).setF (pgTIL t) Reg.TIL_SEQ_BEAT_BEAT b).modTile t (fun x => { x with flight := [] })

/-- A tile stopped by a control-class incident. -/
def State.stopTile (s : State) (t b code op : Nat) : State :=
  (s.freezeTile t b).raiseTile t code 0 op 0xFF 0 openData b

/-- An illegal bundle, recorded with its slot, REASON and word (04 Tables 17 and 18). -/
def State.illegal (s : State) (t b slot reason code : Nat) (w : Word) : State :=
  let s := s.setFs (pgTIL t) [(Reg.TIL_ILL_STAT_VALID, 1), (Reg.TIL_ILL_STAT_SLOT, slot),
    (Reg.TIL_ILL_STAT_REASON, reason), (Reg.TIL_ILL_STAT_PC, (s.tile t).seq.pc), (Reg.TIL_ILL_WORD_WORD, w.toNat)]
  s.stopTile t b code (opCode slot (if slot = 3 then w.toNat / 2 ^ 26 else w.toNat / 2 ^ 28))

/-! ### Checks that need the tile (04 R125) -/

/-- Bundles of the tile's stream: those its image gives it, or, without an image, those its code handle holds (03 R67, R432; DEDUCED,
log entry 93). -/
def State.streamEnd (s : State) (t : Nat) : Nat :=
  match (s.partOfTile t).bind (fun p => (s.ownSection p).bind (fun c => c.streams.find? (fun z => z.tile == t))) with
  | some z => z.bundles.length
  | none =>
    let hd := s.handle t (s.getF (pgTIL t) Reg.TIL_SEQ_CODE_HANDLE)
    if hd.valid then 8 * (min hd.bound 0x8000 - hd.base) else 0

/-- The loop structure of a LOOP at bundle `pc` of a stream of `len` bundles (03 R65, R67): at most four open, the body within
the enclosing one and within the stream. -/
def loopBad (x : Tile) (len : Nat) (l : BitVec 12) : Bool :=
  decide (4 ≤ x.seq.loops.length) || decide (len ≤ x.seq.pc + l.toNat + 1) ||
    (match x.seq.loops with | [] => false | f :: _ => decide (f.last < x.seq.pc + l.toNat + 1))

/-- Counts beyond 4,096, or a data mover still at work (04 R111, 03 R88). -/
def dmBad (x : Tile) (op : DmOp) (b : Nat) : Option Nat :=
  let tooMany := match op with
    | .gatherR _ _ _ _ dn _ _ => decide (4096 < x.arch.rdDN dn)
    | .scatterR _ _ _ _ dn _ _ => decide (4096 < x.arch.rdDN dn)
    | .nop | .copy .. | .fill .. | .trans .. | .gatherE .. | .scatterE .. => false
  if tooMany then some 6 else if op != .nop && decide (b < x.dmvFree) then some 8 else none

/-- Odd Ledger drains and the overlaps of 03 R75 and 04 R114. -/
def mxBad (x : Tile) (op : MxOp) (b : Nat) : Option Nat :=
  match op with
  | .tdrain _ n _ _ _ _ mc =>
    if isLedger (mcField (x.arch.rdMC mc).v .dfmt) && n.toNat % 2 == 0 then some 4
    else if b < x.rowFree then some 0xA else none
  | .tload .. => if b < x.rowFree then some 0xA else none
  | .mxstream .. => if b + 2 < x.entryFree then some 7 else none
  | .mxload .. => if b < x.weightFree then some 9 else none
  | .nop | .tclr .. => none

/-- What a slot decodes to, or its REASON. -/
def slotReason {α : Type} (d : Dec α) (more : α → Option Nat) : Option Nat :=
  match d with
  | .ill r => some r
  | .ok a => more a

/-- The slot and REASON an illegal bundle is recorded with (04 R102, R128); `len` counts the stream's bundles and `ws` holds the
words SC, DM, MX, VX. -/
def bundleFault (x : Tile) (len b : Nat) (ws : Word × Word × Word × Word) : Option (Nat × Nat × Word) :=
  let (w0, w1, w2, w3) := ws
  let scMore := fun (o : ScOp) => match o with
    | .endOp => if w1 = 0 ∧ w2 = 0 ∧ w3 = 0 then none else some 3
    | .loop l _ => if loopBad x len l then some 5 else none
    | _ => none
  match slotReason (decodeSc w0) scMore with
  | some r => some (0, r, w0)
  | none => match slotReason (decodeDm w1) (fun o => dmBad x o b) with
    | some r => some (1, r, w1)
    | none => match slotReason (decodeMx w2) (fun o => mxBad x o b) with
      | some r => some (2, r, w2)
      | none => match slotReason (decodeVx w3) (fun _ => none) with
        | some r => some (3, r, w3)
        | none => none

/-! ### What a bundle starts -/

/-- A post-increment: an A register and a footprint (04 R100). -/
abbrev Incr := BitVec 4 × Nat

def incIf (c : Bool) (an : BitVec 4) (n : Nat) : List Incr := if c then [(an, n)] else []

/-- The SC operation's write of a register in its issue beat, from the values at the start of the beat (04 R103 to
R109, R122). -/
def scWrite (s0 : State) (t b : Nat) (op : ScOp) (cur : Arch) : Arch :=
  let a := (s0.tile t).arch
  let p := (s0.partOfTile t).getD 0
  match op with
  | .alu f sd sa sb =>
    let x := a.rdS sa
    let y := a.rdS sb
    cur.wrS sd ⟨aluFn f x.v y.v, x.p || y.p⟩
  | .alui f sd sa imm => let x := a.rdS sa; cur.wrS sd ⟨aluFn (aluiAlu f) x.v (imm.signExtend 32), x.p⟩
  | .lui sd imm => cur.wrS sd (.ok (imm.zeroExtend 32 <<< 12))
  | .aseti ad imm => cur.wrA ad (.ok (imm.zeroExtend 32))
  | .aaddi ad as imm => let x := a.rdA as; cur.wrA ad ⟨x.v + imm.signExtend 32, x.p⟩
  | .aadds ad as sx => let x := a.rdA as; let y := a.rdS sx; cur.wrA ad ⟨x.v + y.v, x.p || y.p⟩
  | .afroms ad sx => cur.wrA ad (a.rdS sx)
  | .atos as sx => cur.wrS sx (a.rdA as)
  | .pop f pd pa pb => let x := a.rdP pa; let y := a.rdP pb; cur.wrP pd ⟨popFn f x.v y.v, x.p || y.p⟩
  | .pfroms pd sa sb => let x := a.rdS sa; let y := a.rdS sb; cur.wrP pd ⟨(y.v ++ x.v : BitVec 64), x.p || y.p⟩
  | .pfirst pd sa => let x := a.rdS sa; cur.wrP pd ⟨firstMask x.v.toNat, x.p⟩
  | .ptos high pa sd =>
    let x := a.rdP pa
    cur.wrS sd ⟨if high then x.v.extractLsb' 32 32 else x.v.extractLsb' 0 32, x.p⟩
  | .mcset mc f (.imm v) => let m := a.rdMC mc; cur.wrMC mc ⟨mcWrite m.v f v.toNat, m.p⟩
  | .mcset mc f (.reg sa) => let m := a.rdMC mc; let x := a.rdS sa; cur.wrMC mc ⟨mcWrite m.v f x.v.toNat, m.p || x.p⟩
  | .dnset dn v => cur.wrDN dn (v.toNat + 1)
  | .sys f sd =>
    let v := match f with
      | .rdbeat => b
      | .rdround => s0.round p
      | .rdgtile => s0.chipId * 256 + t
      | .rdsteplo => s0.getF (pgPRT p) Reg.PRT_STEP_LO
      | .rdstephi => s0.getF (pgPRT p) Reg.PRT_STEP_HI
      | .rddrops => s0.getF (pgTIL t) Reg.TIL_DISPATCH_DROPS_COUNT
    cur.wrS sd (.ok (BitVec.ofNat 32 v))
  | .nop | .ld .. | .st .. | .wait _ | .loop .. | .endOp => cur

/-- The scalar load or store an SC operation starts, and its post-increment (04 R100, R107). -/
def scStart (a : Arch) (b : Nat) (op : ScOp) : List Flight × List Incr :=
  let opnd := fun (h : BitVec 6) (an : BitVec 4) (imm : BitVec 12) =>
    let r := a.rdA an
    (⟨h.toNat, (r.v.toNat + 4 * imm.toNat) / 4 * 4, r.p⟩ : Opnd)
  match op with
  | .ld sd h an pi imm => ([.ld b sd.toNat (opnd h an imm) (.bad 32)], incIf pi an 4)
  | .st ss h an pi imm => ([.st b (opnd h an imm) (a.rdS ss)], incIf pi an 4)
  | .nop | .alu .. | .alui .. | .lui .. | .aseti .. | .aaddi .. | .aadds .. | .afroms .. | .atos .. | .pop ..
  | .pfroms .. | .pfirst .. | .ptos .. | .mcset .. | .dnset .. | .wait _ | .loop .. | .endOp | .sys .. => ([], [])

/-- The index vector of a gather or scatter, read at issue (03 R88, R89; 04 R123). A lane that is poisoned and inactive is an empty
slot (DESIGN CHOICE, log entry 92). -/
def indexSlots (a : Arch) (vi : BitVec 4) (p : PV 64) : List IdxSlot :=
  (List.range 64).map (fun i =>
    let x := a.rdV vi i
    if !(p.v.getLsbD i) then .nothing
    else if x.p then .poisoned
    else if x.v = 0xFFFFFFFF then .nothing
    else .idx x.v.toNat)

/-- The words a gather writes for slots that carry nothing: zeros, poisoned where the index or the predicate is. -/
def gatherFill (slots : List IdxSlot) (per : Nat) (taint : Bool) : Map (PV 32) :=
  (slots.zipIdx).foldl (fun m e =>
    if e.1 == .poisoned || taint then
      (List.range per).foldl (fun m k => m.put (e.2 * per + k) (.bad 32) (.zero 32)) m
    else m) []

/-- Element size of GATHER.E and SCATTER.E in bytes (04 Table 10). -/
def elemSize (es : BitVec 2) : Nat := 4 * 2 ^ es.toNat

/-- The data mover operation a DM operation starts, and its post-increments (03 Table 6, 04 R111). -/
def dmStart (a : Arch) (b : Nat) (op : DmOp) : List Flight × List Incr :=
  let none' : Opnd := ⟨0, 0, false⟩
  match op with
  | .nop => ([], [])
  | .copy hs as hd ad dn pis pid =>
    let n := a.rdDN dn
    ([.dmv b .copy n (a.opnd hs as) (a.opnd hd ad) [] false []], incIf pis as n ++ incIf pid ad n)
  | .fill hd ad dn ss pid =>
    let n := a.rdDN dn
    ([.dmv b (.fill (a.rdS ss)) n none' (a.opnd hd ad) [] false []], incIf pid ad n)
  | .trans hs as hd ad sz pis pid =>
    let n := match sz with | .b4 => 32 | .b2 => 64 | .b1 => 128
    ([.dmv b (.trans (1024 / n)) n (a.opnd hs as) (a.opnd hd ad) [] false []], incIf pis as n ++ incIf pid ad n)
  | .gatherE hs vi hd ad es p pid =>
    let z := elemSize es
    let pr := a.rdP p
    let ix := indexSlots a vi pr
    ([.dmv b (.gatherE z) 64 ⟨hs.toNat, 0, false⟩ (a.opnd hd ad) ix pr.p (gatherFill ix (z / 4) pr.p)], incIf pid ad (z / 2))
  | .scatterE hs as hd vi es p pis =>
    let z := elemSize es
    let pr := a.rdP p
    ([.dmv b (.scatterE z) 64 (a.opnd hs as) ⟨hd.toNat, 0, false⟩ (indexSlots a vi pr) pr.p []], incIf pis as (z / 2))
  | .gatherR hs vi hd ad dn p pid =>
    let u := a.rdDN dn
    let pr := a.rdP p
    let ix := indexSlots a vi pr
    ([.dmv b (.gatherR u) 64 ⟨hs.toNat, 0, false⟩ (a.opnd hd ad) ix pr.p (gatherFill ix (32 * u) pr.p)], incIf pid ad (64 * u))
  | .scatterR hs as hd vi dn p pis =>
    let u := a.rdDN dn
    let pr := a.rdP p
    ([.dmv b (.scatterR u) 64 (a.opnd hs as) ⟨hd.toNat, 0, false⟩ (indexSlots a vi pr) pr.p []], incIf pis as (64 * u))

/-- The scale operand an MC register names (04 R113). -/
def scaleOpnd (a : Arch) (m : PV 64) : Opnd :=
  a.opnd (BitVec.ofNat 6 (mcField m.v .sch)) (BitVec.ofNat 4 (mcField m.v .sca))

/-- The post-increment of a scale operand. -/
def scaleIncr (m : PV 64) (n : Nat) : List Incr :=
  incIf (mcField m.v .scpi == 1 && decide (0 < n)) (BitVec.ofNat 4 (mcField m.v .sca)) n

/-- Units a drain writes at least one word into (04 Table 14). -/
def drainFoot (dfmt n : Nat) : Nat := (drainWords dfmt * n + 31) / 32

/-- The operation an MX operation starts, and its post-increments. -/
def mxStart (a : Arch) (b : Nat) (op : MxOp) : List Flight × List Incr :=
  match op with
  | .nop => ([], [])
  | .mxload plane h an pi mc =>
    let m := a.rdMC mc
    let g := pairWgt (mcField m.v .pair)
    ([.mxload b plane (mcField m.v .pair) m.p (a.opnd h an) (scaleOpnd a m) [] []],
      incIf pi an g.planeUnits ++ scaleIncr m g.planeScales)
  | .mxstream plane chk pi mm t0 h an mc =>
    let m := a.rdMC mc
    let n := mm.toNat + 1
    let g := pairAct (mcField m.v .pair)
    ([.mxstream b plane chk n t0.toNat (a.opnd h an) (scaleOpnd a m) m [] [] []],
      incIf pi an (g.streamUnits n) ++ scaleIncr m (g.streamScales n))
  | .tclr t0 n => ([.tclr b t0.toNat (n.toNat + 1)], [])
  | .tload t0 n h an pi => ([.tload b t0.toNat (n.toNat + 1) (a.opnd h an) []], incIf pi an (8 * (n.toNat + 1)))
  | .tdrain t0 n h an pi clr mc =>
    let m := a.rdMC mc
    let d := mcField m.v .dfmt
    ([.tdrain b t0.toNat (n.toNat + 1) (a.opnd h an) (scaleOpnd a m) clr m [] []],
      incIf pi an (drainFoot d (n.toNat + 1)) ++ scaleIncr m (if isLedger d then 1 else 0))

/-- Lanes of a lane-wise operation with full words: results of the active lanes, poisoned with their sources, and the
flags of the active lanes. -/
def laneOp (p : PV 64) (f : Nat → LaneRes × Bool) : List (Nat × Word × PV 32) × AFlags :=
  let l := ((List.range 64).filter (fun i => p.v.getLsbD i)).map (fun i => (i, f i))
  (l.map (fun e => (e.1, BitVec.allOnes 32, ⟨e.2.1.1, e.2.2 || p.p⟩)), l.foldl (fun g e => g ||| e.2.1.2) 0)

/-- A result of lanes as an operation in flight. -/
def vres (b lat : Nat) (vd : BitVec 4) (r : List (Nat × Word × PV 32) × AFlags) : List Flight × List Incr :=
  ([.vres b (b + lat) vd.toNat r.1 r.2], [])

/-- The lanes of a VCVT (04 R117): narrowing writes part of 32-bit lanes, widening reads part of them. -/
def vcvtLanes (a : Arch) (va : BitVec 4) (p : PV 64) (c : VCvt) (part : Nat) (m : PV 64) (rm : Nat → Rnd) :
    List (Nat × Word × PV 32) × AFlags :=
  let w := cvtNarrowWidth c
  let sat := mcField m.v .sat == 1
  let d := mcSigned m.v .d
  let bad := p.p || m.p
  let per := 32 / w
  if cvtNarrows c then
    let one := fun (i : Nat) => cvtLane c (rm i) sat d (a.rdV va i).v.toNat
    let act := (List.range 64).filter (fun i => p.v.getLsbD i)
    ((List.range (64 / per)).filterMap (fun k =>
        let js := (List.range per).filter (fun j => p.v.getLsbD (per * k + j))
        if js.isEmpty then none
        else some (64 * part / per + k,
          js.foldl (fun (x : Word) j => x ||| BitVec.ofNat 32 ((2 ^ w - 1) * 2 ^ (w * j))) 0,
          ⟨js.foldl (fun (x : Word) j => x ||| BitVec.ofNat 32 ((one (per * k + j)).1 * 2 ^ (w * j))) 0,
            bad || js.any (fun j => (a.rdV va (per * k + j)).p)⟩)),
      act.foldl (fun g i => g ||| (one i).2) 0)
  else
    laneOp p (fun i =>
      let e := 64 * part + i
      let src := a.rdV va (e / per)
      let r := cvtLane c (rm i) sat d (bits src.v.toNat (w * (e % per) + w - 1) (w * (e % per)))
      ((BitVec.ofNat 32 r.1, r.2), src.p || m.p))

/-- The operation a VX operation starts, and its post-increments (03 Table 5, 04 Table 13). `s1` has the stamp counters
after the drains of the beat. -/
def vxStart (a : Arch) (s1 : State) (t b : Nat) (op : VxOp) : List Flight × List Incr :=
  let two := fun (f : Word → Word → LaneRes) (va vb : BitVec 4) (p : PV 64) => laneOp p (fun i =>
    let x := a.rdV va i
    let y := a.rdV vb i
    (f x.v y.v, x.p || y.p))
  let three := fun (f : Word → Word → Word → LaneRes) (va vb vc : BitVec 4) (p : PV 64) => laneOp p (fun i =>
    let x := a.rdV va i
    let y := a.rdV vb i
    let z := a.rdV vc i
    (f x.v y.v z.v, x.p || y.p || z.p))
  match op with
  | .nop => ([], [])
  | .vf f vd va vb p rm => vres b 3 vd (two (vfLane f (vrmRnd rm)) va vb (a.rdP p))
  | .vfma vd va vb vc p rm => vres b 3 vd (three (vfmaLane (vrmRnd rm)) va vb vc (a.rdP p))
  | .vbfma vd va vb vc p rm => vres b 3 vd (three (vbfmaLane (vrmRnd rm)) va vb vc (a.rdP p))
  | .vi f vd va vb p => vres b 1 vd (two (fun x y => (viLane f x y, 0)) va vb (a.rdP p))
  | .vsel vd va vb p =>
    let pr := a.rdP p
    vres b 1 vd ((List.range 64).map (fun i =>
      let x := if pr.v.getLsbD i then a.rdV va i else a.rdV vb i
      (i, BitVec.allOnes 32, ⟨x.v, x.p || pr.p⟩)), 0)
  | .vcmp pd va vb p cond =>
    let pr := a.rdP p
    let act := (List.range 64).filter (fun i => pr.v.getLsbD i)
    let r := fun i => vcmpLane cond (a.rdV va i).v (a.rdV vb i).v
    ([.pres b (b + 1) pd.toNat pr.v (act.foldl (fun (m : BitVec 64) i => if (r i).1 then m ||| (1 <<< i) else m) 0)
      (pr.p || act.any (fun i => (a.rdV va i).p || (a.rdV vb i).p)) (act.foldl (fun g i => g ||| (r i).2) 0)], [])
  | .vbcast vd p sx => let x := a.rdS sx; vres b 1 vd (laneOp (a.rdP p) (fun _ => ((x.v, 0), x.p)))
  | .vtos va lane sx => ([.sres b (b + 1) sx.toNat (a.rdV va lane.toNat)], [])
  | .vcvt vd va p c part mc =>
    let m := a.rdMC mc
    vres b 2 vd (vcvtLanes a va (a.rdP p) c part.toNat m (s1.rounding t (mcField m.v .rm) (mcField m.v .stream)))
  | .vtr vd va p fn => vres b 13 vd (laneOp (a.rdP p) (fun i => let x := a.rdV va i; (vtrLane fn x.v, x.p)))
  | .vred f vd va p =>
    let pr := a.rdP p
    let r := reduceTree f ((List.range 64).map (fun i => if pr.v.getLsbD i then (a.rdV va i).v else redIdentity f))
    let bad := (List.range 64).any (fun i => pr.v.getLsbD i && (a.rdV va i).p)
    let l := laneOp pr (fun _ => ((r.1, 0), bad))
    vres b 7 vd (l.1, r.2)
  | .vperm vd va p tb =>
    vres b 2 vd (laneOp (a.rdP p) (fun i =>
      let x := a.rdV va (a.ptab.get (64 * tb.toNat + i) 0).toNat
      ((x.v, 0), x.p || a.ptabPoison.get tb.toNat false)))
  | .vpermv vd va vb p =>
    vres b 2 vd (laneOp (a.rdP p) (fun i =>
      let y := a.rdV vb i
      let x := a.rdV va (y.v.toNat % 64)
      ((x.v, 0), x.p || y.p)))
  | .vptld tb h an pi _ => ([.vptld b tb.toNat (a.opnd h an) []], incIf pi an 1)
  | .vld vd h an pi p => let pr := a.rdP p; ([.vld b vd.toNat (a.opnd h an) pr.v pr.p []], incIf pi an 2)
  | .vst vs h an pi p =>
    let pr := a.rdP p
    ([.vst b (a.opnd h an) ((List.range 64).map (fun i =>
      if pr.v.getLsbD i then let x := a.rdV vs i; some ⟨x.v, x.p || pr.p⟩ else none))], incIf pi an 2)
  | .vdispatch vd va p sx =>
    let pr := a.rdP p
    ([.vdispatch b vd.toNat (a.lanes va) pr.v pr.p (a.rdS sx) []], [])
  | .vdclr => ([.vdclr b], [])

/-- A VCVT in SR mode that can round uses 64 stamp indices (02 R58). -/
def vxStamps (a : Arch) (s : State) (t : Nat) (op : VxOp) : State :=
  match op with
  | .vcvt _ _ _ c _ mc =>
    let m := a.rdMC mc
    if cvtRounds c then s.useStamps t (mcField m.v .rm) (mcField m.v .stream) else s
  | .nop | .vf .. | .vfma .. | .vbfma .. | .vi .. | .vsel .. | .vcmp .. | .vbcast .. | .vtos .. | .vtr .. | .vred ..
  | .vperm .. | .vpermv .. | .vptld .. | .vld .. | .vst .. | .vdispatch .. | .vdclr => s

/-- Post-increments added to the registers as the SC operation leaves them, modulo 2^32 (04 R100). -/
def applyIncrs (a : Arch) (l : List Incr) : Arch :=
  l.foldl (fun a e => let r := a.rdA e.1; a.wrA e.1 ⟨r.v + BitVec.ofNat 32 e.2, r.p⟩) a

/-- The paths a bundle keeps busy (03 R75, R88; 04 R114): first beats in which they are free again. -/
def busyAfter (x : Tile) (a : Arch) (b : Nat) (bd : Bundle) : Tile :=
  let x := match bd.mx with
    | .mxload _ _ _ _ mc =>
      let g := pairWgt (mcField (a.rdMC mc).v .pair)
      { x with weightFree := b + g.planeUnits + g.planeScales + 1 }
    | .mxstream _ _ _ m _ _ _ mc =>
      { x with entryFree := b + 2 + (m.toNat + 1) * (pairAct (mcField (a.rdMC mc).v .pair)).rowBeats }
    | .tload _ n _ _ _ => { x with rowFree := b + 10 + 8 * n.toNat }
    | .tdrain _ n _ _ _ _ mc => { x with rowFree := b + 2 + n.toNat * drainBeats (mcField (a.rdMC mc).v .dfmt) }
    | .nop | .tclr .. => x
  match dmStart a b bd.dm with
  | (.dmv _ k n _ _ _ _ _ :: _, _) => { x with dmvFree := b + dmLast k n + 1 }
  | _ => x

/-! ### The sequencer -/

/-- Resolve the end of loop bodies: the back-edge, or the body left behind (03 R65). -/
def resolveLoops (pc : Nat) : List LoopFrame → Nat × List LoopFrame
  | [] => (pc, [])
  | f :: l =>
    if pc = f.last + 1 then
      if 1 < f.left then (f.first, { f with left := f.left - 1 } :: l) else resolveLoops pc l
    else (pc, f :: l)

/-- The sequencer with its loops resolved. -/
def Seq.settle (q : Seq) : Seq := let r := resolveLoops q.pc q.loops; { q with pc := r.1, loops := r.2 }

/-- The sequencer after it issued `op` in its beat. After bundle 0x3FFFF the count goes on, and no code handle reaches the next
bundle: its fetch is refused (DESIGN CHOICE, log entry 92). -/
def Seq.after (q : Seq) (op : ScOp) : Seq :=
  let q' := { q with pc := q.pc + 1, beat := q.beat + 1, lastIssue := q.beat }
  match op with
  | .wait n => { q' with wait := n.toNat + 1 }
  | .loop l c => { q' with loops := ⟨q.pc + 1, q.pc + l.toNat + 1, c.toNat + 1⟩ :: q.loops }
  | .endOp => { q' with loops := [], wait := 0 }
  | .nop | .alu .. | .alui .. | .lui .. | .aseti .. | .aaddi .. | .aadds .. | .afroms .. | .atos .. | .pop ..
  | .pfroms .. | .pfirst .. | .ptos .. | .ld .. | .st .. | .mcset .. | .dnset .. | .sys .. => q'

/-- The last beat of a tile's round. -/
def State.lastBeat (s : State) (t : Nat) : Nat := s.roundLen ((s.partOfTile t).getD 0) - 1

/-- Time stands at least at the beat a tile is in. -/
def State.atBeat (s : State) (t b : Nat) : State :=
  match s.partOfTile t with
  | some p => s.atLeast (s.beatNt p b)
  | none => s

/-- STEP advances by 1 (09 R267): the stamp counters of the partition's tiles return to 0 (02 R58) and PRT_RUNCNT counts (13
R386). -/
def State.countStep (s : State) (p : Nat) : State :=
  let s := s.set64 (pgPRT p) Reg.PRT_STEP_LO Reg.PRT_STEP_HI (s.get64 (pgPRT p) Reg.PRT_STEP_LO Reg.PRT_STEP_HI + 1)
  (s.addF (pgPRT p) Reg.PRT_RUNCNT_COUNT 1).forEach (s.tilesOf p) (fun s u => s.modArch u (fun a => { a with stamps := [] }))

/-- STEP advances at the end of beat ROUND_LEN − 1 of a round run to its END: here when the last running tile of the partition has
issued END. -/
def State.stepAdvance (s : State) (t : Nat) : State :=
  match s.partOfTile t with
  | none => s
  | some p =>
    let ts := s.tilesOf p
    if ts.any (fun u => s.seqState u == seqRUNNING || s.seqState u == seqSTOPPED) then s else s.countStep p

/-- A legal bundle issues in the tile's beat: the operations in flight pass the beat, then the bundle's own effects,
read from the start of the beat, and its post-increments (04 R94, R97, R100). LOOP_DEPTH is shown at each issue: a loop left behind
counts until the next bundle issues (DESIGN CHOICE, log entry 92). -/
def State.issueLegal (s0 : State) (t : Nat) (bd : Bundle) : State :=
  let x := s0.tile t
  let b := x.seq.beat
  let a := x.arch
  let s := s0.runFlights t b
  let (f0, i0) := scStart a b bd.sc
  let (f1, i1) := dmStart a b bd.dm
  let (f2, i2) := mxStart a b bd.mx
  let (f3, i3) := vxStart a s t b bd.vx
  let s := vxStamps a s t bd.vx
  let s := s.modTile t (fun y =>
    busyAfter { y with
      arch := applyIncrs (scWrite s0 t b bd.sc y.arch) (i0 ++ i1 ++ i2 ++ i3),
      flight := y.flight ++ f0 ++ f1 ++ f2 ++ f3,
      seq := y.seq.after bd.sc } a b bd)
  let s := s.setFs (pgTIL t) [(Reg.TIL_SEQ_STAT_PC, x.seq.pc), (Reg.TIL_SEQ_STAT_LOOP_DEPTH, (s.tile t).seq.loops.length),
    (Reg.TIL_SEQ_BEAT_BEAT, b)]
  if bd.sc = .endOp then (s.setSeqState t seqHALTED).stepAdvance t else s

/-- The round-length checks of 03 R66 on a bundle that issues in the tile's beat: END finds every engine idle (Table 7), an operation
being in flight up to and with the beat of its last access or effect (DEDUCED, log entry 46). -/
def State.lengthBad (s : State) (t : Nat) (isEnd : Bool) : Bool :=
  let x := s.tile t
  let b := x.seq.beat
  if isEnd then b != s.lastBeat t || x.flight.any (fun f => decide (b ≤ flightLast f)) else b == s.lastBeat t

/-- A bundle issues: PC and the loops open are shown (03 R90, Table 9). -/
def State.showIssue (s : State) (t : Nat) : State :=
  let q := (s.tile t).seq
  s.setFs (pgTIL t) [(Reg.TIL_SEQ_STAT_PC, q.pc), (Reg.TIL_SEQ_STAT_LOOP_DEPTH, q.loops.length)]

/-- Issue four words in the tile's beat (04 R125 to R127, 03 R66). -/
def State.issueWords (s : State) (t : Nat) (ws : Word × Word × Word × Word) : State :=
  let x := s.tile t
  let b := x.seq.beat
  let issued := s.showIssue t
  match bundleFault x (s.streamEnd t) b ws with
  | some (slot, r, w) => issued.illegal t b slot r 0x2001 w
  | none =>
    match decodeSc ws.1, decodeDm ws.2.1, decodeMx ws.2.2.1, decodeVx ws.2.2.2 with
    | .ok sc, .ok dm, .ok mx, .ok vx =>
      if s.lengthBad t (sc == .endOp) then issued.stopTile t b 0x2002 (opCode 0 (ws.1.toNat / 2 ^ 28))
      else s.issueLegal t ⟨sc, dm, mx, vx⟩
    | _, _, _, _ => s

/-- Fetch a bundle through the code handle (03 R432, 10 R290). -/
def State.fetchBundle (s : State) (t : Nat) : List (PV 32) × State :=
  let h := s.getF (pgTIL t) Reg.TIL_SEQ_CODE_HANDLE
  let s := s.useHandle t h
  let hd := s.handle t h
  let n := (s.tile t).seq.pc
  let p := hd.base + n / 8
  if !hd.valid || hd.closed || decide (hd.bound ≤ p) || decide (0x8000 ≤ p) then (badWords 4, s)
  else (List.range 4).foldl (fun (acc : List (PV 32) × State) k =>
    let (v, s) := acc.2.readKey t h (n / 8) (p * 32 + 4 * (n % 8) + k) (4 * (n % 8) + k) (hd.ecc == 1) 0x2006 0 (s.tile t).seq.beat
    (acc.1 ++ [v], s)) ([], s)

/-- The words of a bundle. -/
def fourWords (l : List (PV 32)) : Word × Word × Word × Word :=
  ((l.getD 0 (.zero 32)).v, (l.getD 1 (.zero 32)).v, (l.getD 2 (.zero 32)).v, (l.getD 3 (.zero 32)).v)

/-- Fetch and issue the bundle at the sequencer's PC; a poisoned word makes it illegal with REASON 0 and code 0x2006. A
sequencer whose own state is lost issues nothing further (10 R290; DEDUCED, log entry 19). -/
def State.fetchIssue (s : State) (t : Nat) : State :=
  let s := (s.useControl (upWheel t) (pgTIL t) (s.partOfTile t)).2
  let (ok, s) := s.useControl (upSequencer t) (pgTIL t) (s.partOfTile t)
  if !ok then s.freezeTile t (s.tile t).seq.beat else
  let (l, s) := s.fetchBundle t
  let b := (s.tile t).seq.beat
  match (l.zipIdx).find? (fun w => w.1.p) with
  | some (w, slot) => (s.showIssue t).illegal t b slot 0 0x2006 w.v
  | none => s.issueWords t (fourWords l)

/-- A beat of WAIT: no bundle issues. In beat ROUND_LEN − 1 the END that 03 R66 asks for can no longer issue. -/
def State.heldBeat (s : State) (t : Nat) : State :=
  let b := (s.tile t).seq.beat
  let s := s.atBeat t b
  if b = s.lastBeat t then s.stopTile t b 0x2002 0
  else (s.runFlights t b).modTile t (fun x =>
    { x with seq := { x.seq with beat := b + 1, wait := x.seq.wait - 1 } })

/-- The tile runs a round and its sequencer is not stopped. -/
def State.tileRuns (s : State) (t : Nat) : Bool := s.seqState t == seqRUNNING && (s.partOfTile t).isSome

/-- Pass beats in which no bundle issues while `more` holds, at most `n` of them. -/
def State.passBeats (t : Nat) (more : State → Bool) : Nat → State → State
  | 0, s => s
  | n + 1, s => if s.tileRuns t && more s then State.passBeats t more n (s.heldBeat t) else s

/-- Pass `n` beats. -/
def State.passN (s : State) (t n : Nat) : State := State.passBeats t (fun _ => true) n s

/-- Loops settled, and the beats of a WAIT passed, before the next bundle issues. -/
def State.readyToIssue (s : State) (t : Nat) : State :=
  (State.passBeats t (fun s => decide (0 < (s.tile t).seq.wait)) ((s.tile t).seq.wait) s).modTile t
    (fun x => { x with seq := x.seq.settle })

/-- One operation issued by a running tile as the bundle at its PC, the other slots NOP, then `after` further beats in
which no bundle issues. A tile that is not running issues nothing (DESIGN CHOICE, log entry 18). -/
def State.issueOp (s : State) (t : Nat) (bd : Bundle) (after : Nat) : State :=
  if s.tileRuns t then
    let s := s.readyToIssue t
    if s.tileRuns t then
      ((s.atBeat t (s.tile t).seq.beat).issueWords t (encodeSc bd.sc, encodeDm bd.dm, encodeMx bd.mx, encodeVx bd.vx)).passN
        t after
    else s
  else s

end Sys2Proof.Machine
end

