-- ==== Sys2Proof/Machine/Dma.lean ====
section
/-! DEFINITION. Host memory and the DMA requests that reach it: requester IDs, requests of at most 512 B, and the two arbiters of
deficit round robin (11 R317, R318, R336). -/

namespace Sys2Proof.Machine

/-- The host interface makes DMA: the PCIe link is up. -/
def State.dmaOk (s : State) : Bool := s.getB pgHIF Reg.HIF_STAT_LINKUP

/-- The requests, at most 512 B each, of a transfer of n bytes at an address. -/
def dmaCut (addr n : Nat) : List (Nat × Nat) :=
  (List.range ((n + 511) / 512)).map (fun i => (addr + 512 * i, min 512 (n - 512 * i)))

/-- The requests of a transfer, with the requester ID of function fn: 0 the PF, t + 1 the VF of tenant t (11 R317). -/
def State.dma (s : State) (fn : Nat) (write : Bool) (addr n : Nat) : State :=
  { s with sent := s.sent ++ (dmaCut addr n).map (fun e => Out.dma fn write e.1 e.2) }

/-! ### Host memory -/

/-- Function fn writes bytes to host memory. -/
def State.hostWrite (s : State) (fn addr : Nat) (l : List Byte) : State :=
  { s.dma fn true addr l.length with
    hostMem := (l.zipIdx).foldl (fun m b => m.put ((addr + b.2) % 2 ^ 64) b.1 0) s.hostMem }

/-- The bytes that n addresses of host memory hold. -/
def State.hostRead (s : State) (addr n : Nat) : List Byte :=
  (List.range n).map (fun i => s.hostMem.get ((addr + i) % 2 ^ 64) 0)

/-- Ring sizes in bytes: 2^LOG2, LOG2 kept within its limits. -/
def ringSize (log2 lo hi : Nat) : Nat := 2 ^ max lo (min hi log2)

/-- The PF writes bytes into a ring from byte `at0` on: from its end they go on at its start (09 R273). -/
def State.ringWrite (s : State) (base size at0 : Nat) (l : List Byte) : State :=
  let first := size - at0 % size
  (s.hostWrite 0 (base + at0 % size) (l.take first)).hostWrite 0 base (l.drop first)

def State.ringRead (s : State) (base size at0 n : Nat) : List Byte :=
  (List.range n).map (fun i => s.hostMem.get ((base + (at0 + i) % size) % 2 ^ 64) 0)

/-! ### Deficit round robin (11 R336) -/

/-- The requester that is the PF. -/
def dmaPF : Nat := 512

/-- The function whose requester ID a requester's requests carry. -/
def dmaFn (r : Nat) : Nat := if r = dmaPF then 0 else r + 1

/-- A requester's weight; 0 acts as 1. -/
def State.dmaWeight (s : State) (r : Nat) : Nat :=
  max 1 (if r = dmaPF then s.getF pgHIF Reg.HIF_DMA_PFWT_WEIGHT
    else s.getF pgHIF (Reg.HIF_QOS_WEIGHT.at (s.getT r Reg.IGQ_T_CFG_CLASS)))

/-- Requester r asks for more requests, ahead of its youngest `behind`. -/
def Arbiter.add (z : Arbiter) (r : Nat) (l : List (Nat × Nat)) (behind : Nat) : Arbiter :=
  { z with queues := z.queues.modify r [] (fun q => q.take (q.length - behind) ++ l ++ q.drop (q.length - behind)) }

/-- All but the youngest `left` requests of requester r are withdrawn. -/
def Arbiter.drop (z : Arbiter) (r left : Nat) : Arbiter :=
  { z with queues := z.queues.modify r [] (fun q => q.drop (q.length - left)) }

/-- What a deficit lets go of a queue: requests issued, those left, and the deficit left. -/
def dmaIssue : List (Nat × Nat) → Nat → List (Nat × Nat) × List (Nat × Nat) × Nat
  | [], d => ([], [], d)
  | e :: l, d =>
    if e.2 ≤ d then
      let (a, b, k) := dmaIssue l (d - e.2)
      (e :: a, b, k)
    else ([], e :: l, d)

/-- How far on from the requester that is next another one comes. -/
def Arbiter.ahead (z : Arbiter) (r : Nat) : Nat := (r + 513 - z.next) % 513

/-- The next pending requester's turn: those passed over lose their deficits; its own grows by 512 B for each unit of weight. -/
def Arbiter.turn (z : Arbiter) (weight : Nat → Nat) : Arbiter × List (Nat × Nat × Nat) :=
  match z.queues.foldl (fun (a : Option Nat) e => match a with
      | none => some e.1
      | some r => if z.ahead e.1 < z.ahead r then some e.1 else some r) none with
  | none => (z, [])
  | some r =>
    let kept : Map Nat := z.deficit.filter (fun e => decide (z.ahead r ≤ z.ahead e.1))
    let (out, rest, d) := dmaIssue (z.queues.get r []) (kept.get r 0 + weight r * 512)
    ({ next := (r + 1) % 513, deficit := kept.put r d 0, queues := z.queues.put r rest [] }, out.map (fun e => (r, e)))

/-- Turns until requester r waits for at most `left` requests: what is issued, in order. A requester's every turn issues one at
least. -/
def Arbiter.run (z : Arbiter) (weight : Nat → Nat) (r left : Nat) : Nat → Arbiter × List (Nat × Nat × Nat)
  | 0 => (z, [])
  | n + 1 =>
    if (z.queues.get r []).length ≤ left then (z, [])
    else
      let (z, a) := z.turn weight
      let (z, b) := Arbiter.run z weight r left n
      (z, a ++ b)

/-- Turns that are enough for that. -/
def Arbiter.turns (z : Arbiter) (r : Nat) : Nat := (z.queues.get r []).length * z.queues.length

/-- The arbiter of payload fetches runs until requester r waits for at most `left` requests, and issues what it comes to. How much
more it issues in the meantime is timing (DESIGN CHOICE, log entry 99). -/
def State.runFetches (s : State) (r left : Nat) : State :=
  let (z, out) := s.hif.fetchArb.run s.dmaWeight r left (s.hif.fetchArb.turns r)
  { s.modHif (fun h => { h with fetchArb := z }) with
    sent := s.sent ++ out.map (fun e => Out.dma (dmaFn e.1) false e.2.1 e.2.2) }

/-- The arbiter of writes and rings runs until requester r waits for at most `left` requests. -/
def State.runWrites (s : State) (r left : Nat) : State :=
  s.modHif (fun h => { h with writeArb := (h.writeArb.run s.dmaWeight r left (h.writeArb.turns r)).1 })

/-- Requester r asks the arbiter of writes and rings for a transfer of n bytes. -/
def State.askWrite (s : State) (r n : Nat) : State := s.modHif (fun h => { h with writeArb := h.writeArb.add r (dmaCut 0 n) 0 })

/-- A ring transfer of the PF that is made at once, with what waits before it. -/
def State.pfTransfer (s : State) (n : Nat) : State := (s.askWrite dmaPF n).runWrites dmaPF 0

/-- The PF reads n bytes of host memory: an argument of a command or an image (11 R317; 12 R360). -/
def State.fetchHost (s : State) (addr n : Nat) : State := (s.pfTransfer n).dma 0 false addr n

end Sys2Proof.Machine
end

