-- ==== Sys2Proof/Machine/Coding.lean ====
section
/-! DEFINITION. The coding layer of a link (07 R204 to R206): Reed-Solomon code RS(544,514) over GF(2^10), blocks of 257 bits, their
scrambler and lanes. The field and generator are those of IEEE 802.3 Clause 119, and the order of bits in symbols and blocks is the
model's (PRESUMED, log entry 96). -/

namespace Sys2Proof.Machine

/-! ### The field and its polynomials (lowest degree first) -/

/-- Twice a field element. -/
def gfDouble (a : Nat) : Nat := if a < 512 then 2 * a else Nat.xor (2 * a) 0x409

/-- The product of field elements, by the lowest n bits of the second. -/
def gfMulN (a b : Nat) : Nat → Nat
  | 0 => 0
  | n + 1 => Nat.xor (if b % 2 = 1 then a else 0) (gfMulN (gfDouble a) (b / 2) n)

def gfMul (a b : Nat) : Nat := gfMulN a b 10

def gfPow (a : Nat) : Nat → Nat
  | 0 => 1
  | n + 1 => gfMul a (gfPow a n)

/-- The inverse: the power 1,022, which is the product of the powers 2, 4, 8, ... 512. -/
def gfInv (a : Nat) : Nat :=
  ((List.range 9).foldl (fun (z : Nat × Nat) _ => let q := gfMul z.1 z.1; (q, gfMul z.2 q)) (a, 1)).2

/-- The value of a polynomial at a point. -/
def gfEval (p : List Nat) (x : Nat) : Nat := p.foldr (fun c v => Nat.xor c (gfMul x v)) 0

def gfAdd : List Nat → List Nat → List Nat
  | [], q => q
  | p, [] => p
  | a :: p, b :: q => Nat.xor a b :: gfAdd p q

def gfScale (c : Nat) (p : List Nat) : List Nat := p.map (gfMul c)

def gfProd : List Nat → List Nat → List Nat
  | [], _ => []
  | a :: p, q => gfAdd (gfScale a q) (0 :: gfProd p q)

/-! ### The code -/

/-- The generator polynomial: roots α^0 to α^29. -/
def rsGenerator : List Nat := (List.range 30).foldl (fun g j => gfProd g [gfPow 2 j, 1]) [1]

/-- One message symbol through the encoder's register, whose highest place comes first. -/
def rsShift (gen reg : List Nat) (m : Nat) : List Nat :=
  let f := Nat.xor m (reg.headD 0)
  gfAdd (reg.drop 1 ++ [0]) (gfScale f gen)

/-- The 30 parity symbols of 514 message symbols, in the order of transmission. -/
def rsParity (msg : List Nat) : List Nat :=
  let gen := (rsGenerator.take 30).reverse
  msg.foldl (rsShift gen) (List.replicate 30 0)

/-- The 30 syndromes of received symbols, the first sent being the coefficient of the highest degree. -/
def rsSyndromes (rx : List Nat) : List Nat := (List.range 30).map (fun j => gfEval rx.reverse (gfPow 2 j))

/-- State of the search for the error locator: locator, the one before its last growth, degree, steps since, and the discrepancy
then. -/
structure Berlekamp where
  c : List Nat
  b : List Nat
  l : Nat
  m : Nat
  d : Nat
  deriving DecidableEq, Repr

def Berlekamp.step (syn : List Nat) (z : Berlekamp) (n : Nat) : Berlekamp :=
  let d := (List.range (z.l + 1)).foldl (fun a i => Nat.xor a (gfMul (z.c.getD i 0) (syn.getD (n - i) 0))) 0
  if d = 0 then { z with m := z.m + 1 }
  else
    let c := gfAdd z.c (List.replicate z.m 0 ++ gfScale (gfMul d (gfInv z.d)) z.b)
    if 2 * z.l ≤ n then ⟨c, z.c, n + 1 - z.l, 1, d⟩ else { z with c := c, m := z.m + 1 }

/-- The error locator of a list of syndromes. -/
def rsLocator (syn : List Nat) : Berlekamp := (List.range 30).foldl (Berlekamp.step syn) ⟨[1], [1], 0, 1, 1⟩

/-- The values of a polynomial's odd terms: its derivative. -/
def gfDeriv : List Nat → List Nat
  | [] => []
  | [_] => []
  | _ :: a :: p => a :: (match gfDeriv p with | [] => [] | q => 0 :: q)

/-- Decode received symbols: the corrected ones and how many were wrong; none when more than 15 are (07 R205). -/
def rsDecode (rx : List Nat) : Option (List Nat × Nat) :=
  let syn := rsSyndromes rx
  if syn.all (· == 0) then some (rx, 0)
  else
    let z := rsLocator syn
    let n := rx.length
    let at0 := (List.range n).filter (fun i => gfEval z.c (gfInv (gfPow 2 (n - 1 - i))) == 0)
    let om := (gfProd syn z.c).take 30
    let dv := gfDeriv z.c
    let fixed := rx.zipIdx.map (fun e =>
      if at0.contains e.2 then
        let x := gfPow 2 (n - 1 - e.2)
        Nat.xor e.1 (gfMul x (gfMul (gfEval om (gfInv x)) (gfInv (gfEval dv (gfInv x)))))
      else e.1)
    if z.l ≤ 15 ∧ at0.length = z.l ∧ (rsSyndromes fixed).all (· == 0) then some (fixed, z.l) else none

/-! ### Blocks, scrambler and lanes -/

/-- A block: its frame mark and its two flits, the first sent first. -/
structure Block where
  mark : Bool
  flits : Nat × Nat
  deriving DecidableEq, Repr

/-- n bits of a number, the highest first. -/
def bitsHigh (v : Nat) : Nat → List Bool
  | 0 => []
  | n + 1 => v.testBit n :: bitsHigh v n

def natOfBits (l : List Bool) : Nat := l.foldl (fun n b => 2 * n + (if b then 1 else 0)) 0

/-- The scrambler x^58 + x^39 + 1 over bits in the order sent; z holds the last 58 scrambled bits, the latest lowest. -/
def scramble : Nat → List Bool → List Bool × Nat
  | z, [] => ([], z)
  | z, b :: l =>
    let o := b ^^ z.testBit 38 ^^ z.testBit 57
    let r := scramble ((2 * z + (if o then 1 else 0)) % 2 ^ 58) l
    (o :: r.1, r.2)

def descramble : Nat → List Bool → List Bool × Nat
  | z, [] => ([], z)
  | z, b :: l =>
    let r := descramble ((2 * z + (if b then 1 else 0)) % 2 ^ 58) l
    ((b ^^ z.testBit 38 ^^ z.testBit 57) :: r.1, r.2)

/-- The bits of a block in the order sent: the mark, then the scrambled flits. -/
def Block.bits (z : Nat) (b : Block) : List Bool × Nat :=
  let r := scramble z (bitsHigh b.flits.1 128 ++ bitsHigh b.flits.2 128)
  (b.mark :: r.1, r.2)

/-- Symbols of ten bits, the first sent lowest. -/
def toSymbols : List Bool → Nat → List Nat
  | _, 0 => []
  | l, n + 1 => natOfBits (l.take 10).reverse :: toSymbols (l.drop 10) n

/-- The codeword of 20 blocks, and the scrambler's state after it. -/
def encodeBlocks (z : Nat) (bs : List Block) : List Nat × Nat :=
  let r := bs.foldl (fun (a : List Bool × Nat) b => let x := b.bits a.2; (a.1 ++ x.1, x.2)) ([], z)
  let m := toSymbols r.1 514
  (m ++ rsParity m, r.2)

/-- The blocks of a corrected codeword. -/
def decodeBlocks (z : Nat) (cw : List Nat) : List Block × Nat :=
  let l := (cw.take 514).flatMap (fun v => (bitsHigh v 10).reverse)
  (List.range 20).foldl (fun (a : List Block × Nat) j =>
    let b := (l.drop (257 * j)).take 257
    let r := descramble a.2 (b.drop 1)
    (a.1 ++ [⟨b.headD false, natOfBits (r.1.take 128), natOfBits (r.1.drop 128)⟩], r.2)) ([], z)

/-- The lane that symbol i of a codeword goes to. -/
def laneOf (i : Nat) : Nat := i % 8

/-! ### Frames in the stream of flits (07 R206) -/

/-- What a receiver knows of the stream: flits left of the frame under way (of one whose LEN is still to come, which stands in its
second flit, none yet), whether framing is lost, and whether an idle flit was received. -/
structure Framing where
  left : Nat
  wait : Bool
  lost : Bool
  idle : Bool
  deriving DecidableEq, Repr

/-- One flit of a good codeword; a frame's length follows from its CLASS and LEN. `mark` is its block's frame mark when it is the block's first. -/
def Framing.flit (z : Framing) (mark : Bool) (v : Nat) : Framing :=
  let z := if mark then { z with left := 0, wait := false, lost := false } else z
  if z.lost then z
  else if z.wait then
    let len := v / 2 ^ 96 % 2 ^ 16
    { z with wait := false, left := (32 + len) / 16 - 2 }
  else if 0 < z.left then { z with left := z.left - 1 }
  else if v = 0 then { z with idle := true }
  else if v / 2 ^ 122 % 4 = 1 then { z with wait := true }
  else if v / 2 ^ 122 % 4 = 3 then { z with lost := true }
  else { z with left := if v / 2 ^ 122 % 4 = 2 then 0 else 33 }

/-- The flits of a codeword's blocks. -/
def Framing.blocks (z : Framing) (bs : List Block) : Framing :=
  bs.foldl (fun z b => (z.flit b.mark b.flits.1).flit false b.flits.2) z

end Sys2Proof.Machine
end

