-- ==== Sys2Proof/Machine/Domains.lean ====
section
/-! DEFINITION. The time domains of a chip and the choice of their parents (08 R234, R237, R238). -/

namespace Sys2Proof.Machine

def State.dom (s : State) (b : Bool) : Domain := if b then s.time.domB else s.time.domA

def State.modDom (s : State) (b : Bool) (f : Domain → Domain) : State :=
  { s with time := if b then { s.time with domB := f s.time.domB } else { s.time with domA := f s.time.domA } }

/-- Domain `b` is the selected one. -/
def State.selected (s : State) (b : Bool) : Bool := s.getB pgTMB Reg.TMB_STAT_SEL == b

/-- MGT_BOOT.TIME shows whether time is acquired (12 Table 11). -/
def State.noteTime (s : State) : State :=
  { s.setF pgMGT Reg.MGT_BOOT_TIME (if s.hasTime then 1 else 0) with
    time := { s.time with noMaster := s.time.noMaster && !s.hasTime } }

def State.setDomState (s : State) (b : Bool) (st : Nat) : State :=
  (s.setF pgTMB (if b then Reg.TMB_STAT_STATE_B else Reg.TMB_STAT_STATE_A) st).noteTime

/-- The domain's time minus NT, in 2^−40 ns: 0 on its master, and that of A on the B master while A is valid (08 R234). -/
def State.domOff (s : State) (b : Bool) : Int :=
  if s.domState b = domMASTER then
    (if b then (if s.domGood false && s.domState false != domMASTER then s.time.domA.off else s.time.domB.off) else 0)
  else (s.dom b).off

/-- NT with 8 fractional bits. -/
def State.ntq8 (s : State) : Nat := s.nt / 2 ^ 32

def Link.peerTime (l : Link) (b : Bool) : PeerTime := if b then l.timeB else l.timeA

def Link.setPeerTime (l : Link) (b : Bool) (t : PeerTime) : Link :=
  if b then { l with timeB := t } else { l with timeA := t }

/-- DIST as TMB_PARENT holds it. -/
def State.dist (s : State) (b : Bool) : Nat :=
  s.getF pgTMB (if b then Reg.TMB_PARENT_DIST_B else Reg.TMB_PARENT_DIST_A)

/-- The link carries time: it is in CAL or UP. -/
def State.carriesTime (s : State) (x : Nat) : Bool := s.linkState x == lnkCAL || s.linkState x == lnkUP

/-! ### Parents (08 R237) -/

/-- The parent of a domain as TMB_PARENT shows it. -/
def State.setParent (s : State) (b : Bool) (o : Option Nat) : State :=
  let d := match o with
    | none => if s.domState b = domMASTER then 0 else 255
    | some x => match ((s.link x).peerTime b).ann with | none => 255 | some a => min (a.dist + 1) 254
  let p := match o with | none => 0x3F | some x => x
  let s := s.modDom b (fun z => { z with parent := o })
  if b then (s.setF pgTMB Reg.TMB_PARENT_PORT_B p).setF pgTMB Reg.TMB_PARENT_DIST_B d
  else (s.setF pgTMB Reg.TMB_PARENT_PORT_A p).setF pgTMB Reg.TMB_PARENT_DIST_A d

/-- The best parent of a domain: in CAL or UP, LOCK announced, lowest DIST, then lowest port (08 R237). -/
def State.bestParent (s : State) (b : Bool) (ok : Nat → Bool) : Option Nat :=
  (allPorts.foldl (fun (best : Option (Nat × Nat)) x =>
    match ((s.link x).peerTime b).ann with
    | none => best
    | some a =>
      if s.carriesTime x && a.lock && ok x then
        match best with
        | none => some (x, a.dist)
        | some (_, d) => if a.dist < d then some (x, a.dist) else best
      else best) none).map (·.1)

/-- Choose the parent anew; a domain without time that finds one starts its acquisition. One that is acquiring keeps the samples taken
against the parent before (DESIGN CHOICE, log entry 102). -/
def State.chooseParent (s : State) (b : Bool) : State :=
  if s.domState b = domMASTER then s
  else
    let o := s.bestParent b (fun _ => true)
    let fresh := o.isSome && (s.dom b).parent != o
    let s := s.setParent b o
    let s := if fresh then s.modDom b (fun d => { d with lastEx := s.nt }) else s
    if o.isSome && (s.domState b == domNONE || s.domState b == domLOST) then
      (s.setDomState b domACQUIRING).modDom b (fun d => { d with samples := [], annNt := s.nt })
    else s

/-- A parent's link leaves CAL and UP: the parent is chosen anew. -/
def State.leaveParent (s : State) (x : Nat) : State :=
  s.forEach [false, true] (fun s b => if (s.dom b).parent == some x && !s.carriesTime x then s.chooseParent b else s)

end Sys2Proof.Machine
end

