-- ==== Sys2Proof/Machine/Fabric.lean ====
section
/-! DEFINITION. Units of scratchpad moved by the interchange and by host runs (06 R161, R170, R175; 05 R131, R134, R143). -/

namespace Sys2Proof.Machine

/-- The port that an incident names for an access. -/
def FabAcc.op (a : FabAcc) (kind : Nat) : Nat := (if a.port = hostPort then 0 else a.port) * 256 + kind * 16

/-- One unit access of the interchange in beat b: the handle checks, the region port's limit, the wheel's ports and the bank
groups, in that order, against the other accesses of the beat, those already made among them. `some (handle, unit)` when it proceeds; `kind` and `slot`
are the incident's. -/
def State.fabricAccess (s : State) (a : FabAcc) (b kind slot : Nat) : Option (Handle × Nat) × State :=
  let t := a.tile
  let s := s.useHandle t a.handle
  let hd := s.handle t a.handle
  let p := hd.phys a.unit
  let op := a.op kind
  match hd.check p a.right a.tenant with
  | .closed => (none, s.refuse t .closed a.handle a.unit p op b a.tenant)
  | .refused => (none, s.refuse t .refused a.handle a.unit p op b a.tenant)
  | .pass =>
    let s := s.modTile t (fun x => { x with made := x.made ++ [(b, a)] })
    if !(s.carried (t / 16) b a.write [a]).contains a then
      let part := (s.partOfTile t).getD 0
      let port := if a.port = hostPort then 0 else a.port
      (none, (s.ichFlag Reg.ICH_STAT_REGCAP part port slot).raiseIch 0x1008 part port kind slot (t * 2 ^ 32 + p) a.tenant)
    else
      let l := s.fabHolders t b [a]
      if !l.contains a then (none, s.suppress t b a.cls 0xF p a.handle a.unit op)
      else match l.find? (fun d => s.fabGroup d == bankGroup p) with
        | none => (none, s)
        | some d =>
          if d = a then (some (hd, p), s)
          else (none, s.suppress t b a.cls d.cls p a.handle a.unit op)

/-- The incidents that an access has raised since state s0 carry its tenant (10 Table 1). -/
def State.forTenant (s s0 : State) (t : Option Nat) : State :=
  let n := s0.incidents.length
  { s with incidents := s.incidents.take n ++ (s.incidents.drop n).map (fun i => { i with tenant := t }) }

/-- Read the unit; a refused or suppressed read returns poisoned zeros. -/
def State.fabricRead (s : State) (a : FabAcc) (b kind slot : Nat) : List (PV 32) × State :=
  match s.fabricAccess a b kind slot with
  | (some (hd, p), z) =>
    let (ws, z) := z.readWords a.tile a.handle a.unit hd p (List.range 32) (a.op kind) b
    (ws, z.forTenant s a.tenant)
  | (none, z) => (badWords 32, z.forTenant s a.tenant)

/-- Write words from word 0 of the unit. -/
def State.fabricWrite (s : State) (a : FabAcc) (b kind slot : Nat) (ws : List (PV 32)) : State :=
  match s.fabricAccess a b kind slot with
  | (some (hd, p), z) =>
    ((z.writeWords a.tile a.handle a.unit hd p ((ws.zipIdx).map (fun w => (w.2, w.1))) (a.op kind) b).injectTile a.tile
      [(p, wordKey hd.col p 0)]).forTenant s a.tenant
  | (none, z) => z.forTenant s a.tenant

end Sys2Proof.Machine
end

