-- ==== Sys2Proof/Machine/Interchange.lean ====
section
/-! DEFINITION. Scheduled traffic: departures, arrivals, landings, pigeonhole cells and replays (06 R169 to R184, R190;
07 R212 to R217, R229; 01 R30 to R32, R431). -/

namespace Sys2Proof.Machine

/-! ### Manifests (01 R30 to R32, R431) -/

/-- Parcels of the manifest of an entry chip (R431). -/
def manifestParcels (e : EntryChip) : Nat := max 1 ((e.count + 3967) / 3968)

/-- The entry chip of that ID in a partition's image. -/
def State.entryChip (s : State) (p c : Nat) : Option EntryChip :=
  (s.part p).image.bind (fun im => im.entryChips.find? (fun e => e.chip == c))

/-- The collection made at the first start of round n (10 R300). -/
def State.collection (s : State) (p n : Nat) : Option Collection :=
  (s.part p).collections.find? (fun c => c.round == n)

/-- What an entry chip sends for the round after the present one: RUN under ALWAYS, or when its collection filled a slot
(R31). -/
def State.disposition (s : State) (p : Nat) : Bool :=
  match (s.part p).image with
  | none => false
  | some im => !im.onDemand || ((s.collection p (s.round p)).map (fun c => !c.entries.isEmpty)).getD false

/-- The payload of manifest parcel i (R30, Table 3). -/
def State.manifestPayload (s : State) (p : Nat) (e : EntryChip) (i : Nat) : List Word :=
  let c := s.collection p (s.round p)
  let slots : List Nat := match c with
    | none => []
    | some c => (c.entries.map (·.rslot)).filter (fun r =>
        decide (e.base + 3968 * i ≤ r) && decide (r < e.base + 3968 * (i + 1)))
  let filled : List Nat := (slots.foldl (fun (l : List Nat) r => if l.contains r then l else r :: l) []).map (fun r => r - e.base - 3968 * i)
  let fill := filled.foldl (fun n b => n + 2 ^ b) 0
  let ns := match c with | none => 0 | some c => c.nt / nsUnit
  bytesToWords (leBytes (s.round p + 1) 4 ++ leBytes (bit (s.disposition p) 0) 1 ++ leBytes i 1 ++
    leBytes filled.length 2 ++ leBytes ns 4 ++ leBytes 0 4 ++ leBytes fill 496)

/-- A manifest parcel is valid for round k (R32). -/
def manifestValid (f : Frame) (e : Option EntryChip) (k : Nat) : Bool :=
  match e with
  | none => false
  | some e =>
    let b := wordBytes f.data
    let fill := leNat (slice b 16 512)
    let part := leNat (slice b 5 6)
    !f.hdr.poison && leNat (slice b 0 4) == k && decide (leNat (slice b 4 5) ≤ 1) &&
      leNat (slice b 6 8) == popCount (BitVec.ofNat 3968 fill) && part == f.hdr.offset &&
      decide (part < manifestParcels e) && decide (fill < 2 ^ (e.count - 3968 * part))

/-- Take a manifest parcel that the chip accepts for itself (R32, R431): an invalid one raises code 0x1030. -/
def State.takeManifest (s : State) (p x : Nat) (f : Frame) : State :=
  let k := (s.round p + 1) % 2 ^ 32
  if !f.hdr.manifest || f.hdr.dst != s.chipId then s
  else if manifestValid f (s.entryChip p f.hdr.src) k then
    s.modPart p (fun z => { z with manifests := z.manifests ++
      [⟨k, f.hdr.src, f.hdr.offset, leNat (slice (wordBytes f.data) 4 5) == 1⟩] })
  else s.raiseIch 0x1030 p x f.hdr.kind f.hdr.slot openData none

/-! ### Sending a parcel on a port (07 R212, R217, R223, R224) -/

/-- Scheduled traffic of partition p may leave by port x. -/
def State.carries (s : State) (p x : Nat) : Bool := s.linkState x == lnkUP && (s.link x).resumed.contains p

/-- The first slot at or after `slot` that is not used. -/
def freeSlot (used : Nat → Bool) (slot : Nat) : Nat → Nat
  | 0 => slot
  | n + 1 => if used slot then freeSlot used (slot + 1) n else slot

/-- The next scheduled parcel of a link or of the interchange carries POISON (13 R378). -/
def State.injectPoison (s : State) (x : Nat) (f : Frame) : Frame × State :=
  if s.linkInjects x 3 then ({ f with hdr := { f.hdr with poison := true } }, s.injected (linkPage x)) else (f, s)

/-- The slot in which a parcel of partition p that is scheduled for `slot` of port x leaves: its own, or on a port without SDS the
first one that is not taken and no HOLD slot; none when that comes too late (07 R217; 06 R168). `taken` are the starts of the slots
taken on the port. -/
def State.departSlot (s : State) (p x slot : Nat) (taken : List Nat) : Option Nat :=
  let start := fun k => s.beatNt p (slotBeats x * k)
  let d := if s.sds x then slot else freeSlot (fun k => taken.contains (start k) || s.holdAt x (start k)) slot 65
  if slot + s.getL x Reg.ICL_ELASTIC_MAX_SLOTS < d ∨ s.slots p x ≤ d then none else some d

/-- An injection armed on a page of the interchange poisons the parcel that departs (13 Table 4). -/
def State.injectIch (s : State) (f : Frame) : Frame × State :=
  match [0x020, 0x021, 0x022, 0x023].find? (fun g => s.getB g Reg.BLK_ERR_INJ_ARM && s.getF g Reg.BLK_ERR_INJ_KIND == 3) with
  | some g => ({ f with hdr := { f.hdr with poison := true } }, s.injected g)
  | none => (f, s)

/-- The interchange sends a parcel it has built: in the slot it leaves in it takes the next SEQ, and a poisoned one is counted; one that
would leave too late is dropped and counted (06 R170; 07 R212, R217). -/
def State.sendParcel (s : State) (p x slot : Nat) (f : Frame) : State :=
  if !s.carries p x then s
  else
    let start := fun k => s.beatNt p (slotBeats x * k)
    let own := start slot
    match s.departSlot p x slot (s.link x).taken with
    | none => (s.linkCount x Reg.ICL_ELDROP_COUNT Reg.ICL_ERR_ELDROP).modLink x (fun l => { l with left := own :: l.left })
    | some d =>
      let (f, s) := (s.atLeast (start d)).injectIch f
      let s := if f.hdr.poison then s.addF pgICH Reg.ICH_POISONOUT_COUNT 1 else s
      let (f, s) := s.injectPoison x f
      let f := { f with hdr := { f.hdr with seq := (s.link x).sNext } }
      ((s.keepSent x f).modLink x (fun l => { l with taken := start d :: l.taken, left := own :: l.left })).putFrame x f

/-! ### Departures (06 R169 to R172, R181, R183) -/

/-- The header of a parcel that departs from its source (06 R171). -/
def ttHeader (s : State) (p : Nat) (e : TtEntry) (i slot kind hopsNow : Nat) (fwded : Bool) : Hdr :=
  { ver := 1, cls := 0, gen := s.gen p == 1, poison := false, kind := kind, fwded := fwded, retry := false,
    last := i + 1 == e.run, manifest := e.manifest, postcode := e.postcode, src := s.chipId, dst := e.dst,
    round := s.round p, slot := slot, hops := e.hops * 16 + hopsNow, seq := 0, len := lenOf e.lastLen e.run i, offset := i }

/-- Words beyond LEN are sent as 0. -/
def cutWords (len : Nat) (l : List Word) : List Word :=
  let k := (len + 3) / 4
  l.take k ++ List.replicate (128 - min k l.length) 0

/-- A suppressed departure (06 R169): counted, flagged and reported once, its slot left idle. -/
def State.suppressSlot (s : State) (p x kind slot : Nat) (w : SlotFate) : State :=
  let s := match w with
    | .departs => s
    | .unleased => (s.ichFlag Reg.ICH_STAT_UNLEASED p x slot).raiseIch 0x2003 p x kind slot openData none
    | .pastEnd => (s.ichFlag Reg.ICH_STAT_PASTEND p x slot).raiseIch 0x2004 p x kind slot openData none
    | .conflict => (s.ichFlag Reg.ICH_STAT_SLOTCONF p x slot).raiseIch 0x2005 p x kind slot openData none
  if w = .departs then s else s.addF pgICH Reg.ICH_SUPPRESS_COUNT 1

/-- Parcel i of entry e on logical port l departs now, if the entry is live, of one of the kinds given and active: `f` has
its entry, physical port and slot. -/
def State.departing (s : State) (p l e i : Nat) (kinds : List Nat) (f : State → TtEntry → Nat → Nat → State) : State :=
  let s := (s.usePort p (s.gen p) l).useEntry false p l (s.gen p) e
  match (s.liveTt p l).find? (fun z => z.1 == e), s.physOf p (s.gen p) l with
  | some (_, en), some x =>
    if kinds.contains en.kind && decide (i < en.run) && s.ttActive p en then
      let slot := slotOf (s.sds x) en.start i
      let s := s.useLease x slot
      match s.slotFate p l x e slot with
      | .departs => f s en x slot
      | w => s.suppressSlot p x en.kind slot w
    else s
  | _, _ => s

/-- Read the units of a parcel from its source tile: unit j in beat B − 8 + j (06 R170). -/
def State.readParcel (s : State) (p : Nat) (e : TtEntry) (x slot first len : Nat) : List (PV 32) × State :=
  let b := slotBeats x * slot - 8
  (List.range ((len + 127) / 128)).foldl (fun (a : List (PV 32) × State) j =>
    let s := a.2.atLeast (a.2.beatNt p (b + j))
    let (ws, s) := s.fabricRead ⟨x, b, e.tile, e.handle, first + j, cFDP, false, none⟩ (b + j) e.kind slot
    (a.1 ++ ws, s)) ([], s)

/-- A PUT, GETQ or TALLY parcel (06 R170, R171), or a manifest parcel (01 R431). -/
def State.sendSource (s : State) (p i : Nat) (e : TtEntry) (x slot : Nat) : State :=
  let h := ttHeader s p e i slot e.kind 1 false
  if e.manifest then
    match s.entryChip p s.chipId with
    | none => s.sendParcel p x slot ⟨h, List.replicate 128 0⟩
    | some c => s.sendParcel p x slot ⟨h, cutWords h.len (s.manifestPayload p c i)⟩
  else if s.tileInReset e.tile then s
  else
    let (ws, s) := s.readParcel p e x slot (e.off + 4 * i) h.len
    s.sendParcel p x slot ⟨{ h with poison := ws.any (·.p) }, cutWords h.len (ws.map (·.v))⟩

/-- A timetable run's parcel departs (06 R170). -/
def execTimetableDeparture (p : PartId) (l : PortId) (e : BitVec 15) (i : BitVec 12) (s : State) :
    Host.Outcome State Fault Refusal :=
  .next (s.departing p.val l.val e.toNat i.toNat [ttPUT, ttGETQ, ttTALLY]
    (fun s en x slot => s.sendSource p.val i.toNat en x slot))

/-- The cell of the interchange. -/
def State.cell (s : State) (c : Nat) : Cell := s.ich.cells.get c .reset

def State.setCell (s : State) (c : Nat) (v : Cell) : State :=
  s.modIch (fun z => { z with cells := z.cells.put c v .reset })

/-- The parcels of live GETR runs that read cell c in this round, as (beat of departure, port) of those that depart. -/
def State.cellReaders (s : State) (p c : Nat) : List (Nat × Nat) :=
  allPorts.flatMap (fun l =>
    match s.physOf p (s.gen p) l with
    | none => []
    | some x =>
      ((s.liveTt p l).filter (fun z => z.2.kind == ttGETR && s.ttActive p z.2 && decide (z.2.cellR ≤ c))).flatMap (fun z =>
        let lo := 128 * (c - z.2.cellR)
        ((List.range (min z.2.run (lo + 128) - lo)).map (fun k => slotOf (s.sds x) z.2.start (lo + k))).filterMap (fun k =>
          if s.slotFate p l x z.1 k = .departs then some (slotBeats x * k, x) else none)))

/-- A GETR parcel (06 R183). -/
def State.sendGetr (s : State) (p i : Nat) (e : TtEntry) (x slot : Nat) : State :=
  if e.manifest then s.sendSource p i e x slot
  else if s.tileInReset e.tile then s
  else
    let h := ttHeader s p e i slot ttGETR 1 false
    let b := slotBeats x * slot
    let c := e.cellR + i / 128
    let cell := s.cell c
    let s := s.atLeast (s.beatNt p (b - 9))
    let later := (s.cellReaders p c).any (fun z => decide (b < z.1) || (z.1 == b && decide (x < z.2)))
    let s := if later then s else s.setCell c .reset
    match cell.request i with
    | some w =>
      if w = 0xFFFFFFFF then s.sendParcel p x slot ⟨h, List.replicate 128 0⟩
      else
        let (ws, s) := s.readParcel p e x slot w.toNat h.len
        s.sendParcel p x slot ⟨{ h with poison := ws.any (·.p) }, cutWords h.len (ws.map (·.v))⟩
    | none => s.sendParcel p x slot ⟨{ h with poison := true }, List.replicate 128 0⟩

/-- A GETR run's parcel departs (06 R183). -/
def execGetrDeparture (p : PartId) (l : PortId) (e : BitVec 15) (i : BitVec 12) (s : State) :
    Host.Outcome State Fault Refusal :=
  .next (s.departing p.val l.val e.toNat i.toNat [ttGETR] (fun s en x slot => s.sendGetr p.val i.toNat en x slot))

/-- An FWD parcel: the stored parcel with its header rewritten, or the poisoned substitute; the cell becomes EMPTY
(06 R181). -/
def State.sendFwd (s : State) (p i : Nat) (e : TtEntry) (x slot : Nat) : State :=
  let c := e.cellF + i
  let cell := s.cell c
  let s := (s.atLeast (s.beatNt p (slotBeats x * slot - 1))).setCell c .reset
  let sub : Frame := ⟨{ ttHeader s p e i slot e.fkind e.fhop true with poison := true }, List.replicate 128 0⟩
  let f := match cell.st, cell.frame with
    | .full, some f =>
      if f.hdr.dst = e.dst ∧ f.hdr.postcode = e.postcode ∧ f.hdr.kind = e.fkind ∧ f.hdr.hops / 16 = e.hops ∧
          f.hdr.hops % 16 + 1 = e.fhop then
        { data := cutWords f.hdr.len f.data
          hdr := { f.hdr with slot := slot, round := s.round p, gen := s.gen p == 1,
                                hops := f.hdr.hops / 16 * 16 + e.fhop, offset := i, fwded := true, retry := false } }
      else sub
    | _, _ => sub
  s.sendParcel p x slot f

/-- A parked parcel is sent on (06 R181). -/
def execFwdDeparture (p : PartId) (l : PortId) (e : BitVec 15) (i : BitVec 12) (s : State) :
    Host.Outcome State Fault Refusal :=
  .next (s.departing p.val l.val e.toNat i.toNat [ttFWD] (fun s en x slot => s.sendFwd p.val i.toNat en x slot))

/-! ### Pigeonhole cells (06 R179 to R182) -/

def cellBad : Cell := ⟨.bad, none⟩

/-- Four words as a Tally entry's bits (06 R184: eight entries in a unit). -/
def entryBits (l : List Word) (k : Nat) : BitVec 128 :=
  BitVec.ofNat 128 (leNat (wordBytes ((l.drop (4 * k)).take 4)))

def entryWords (x : BitVec 128) : List Word := bytesToWords (leBytes x.toNat 16)

/-- Add the first n entries of two word lists, `bad k` the poison of entry k of the first (02 R41, R42, R47): the sums with their
poison, and whether a spill is reported. -/
def addEntries (a b : List Word) (bad : Nat → Bool) (n : Nat) : List (PV 32) × Bool :=
  (List.range n).foldl (fun (r : List (PV 32) × Bool) k =>
    let z := (TEnt.add ⟨entryBits a k, bad k⟩ ⟨entryBits b k, false⟩)
    (r.1 ++ (entryWords z.1.t).map (fun w => ⟨w, z.1.p⟩), r.2 || z.2)) ([], false)

/-- A sum produced the spill marker: SPILL and code 0x1001 (06 R184, 02 R48). -/
def State.ichSpill (s : State) (p x kind slot extra : Nat) : State :=
  (s.ichFlag Reg.ICH_STAT_SPILL p x slot).raiseIch 0x1001 p x kind slot extra none

/-- An accepted PARK, REQ or MERGE parcel reaches its cell (06 R180, R182). Whose header a merged cell keeps the spec does
not state: it is a free choice between the cell's and the parcel's (DESIGN CHOICE, log entry 20). A cell that holds a poisoned sum
carries it in the POISON of its parcel (DEDUCED, log entry 94). -/
def State.intoCell (s : State) (p x c action : Nat) (f : Frame) : State :=
  let cell := s.cell c
  if action = ldMERGE then
    if cell.st = .bad then s
    else if f.hdr.poison then s.setCell c cellBad
    else
      let (hdr, old, s) := match cell.frame with
        | none => (f.hdr, List.replicate 128 0, s)
        | some g => let (k, s) := s.freeBits 1; (if k = 1 then { f.hdr with poison := g.hdr.poison } else g.hdr, g.data, s)
      let z := addEntries old f.data (fun _ => hdr.poison) 32
      let s := s.setCell c ⟨.full, some ⟨{ hdr with poison := z.1.any (·.p) }, z.1.map (·.v)⟩⟩
      if z.2 then s.ichSpill p x f.hdr.kind f.hdr.slot openData else s
  else if cell.st = .empty then
    s.setCell c (if f.hdr.poison then cellBad else ⟨.full, some f⟩)
  else
    ((s.setCell c cellBad).addF pgICH Reg.ICH_CELLOVR_COUNT 1 |>.ichFlag Reg.ICH_STAT_CELLOVR p x f.hdr.slot).raiseIch
      0x1014 p x f.hdr.kind f.hdr.slot openData none

/-! ### Arrivals (06 R174 to R176) -/

/-- The beats at whose start a parcel of this landing is no longer in time (06 R175). -/
def LdEntry.deadline (e : LdEntry) (i : Nat) : Nat := if e.action ≤ 1 then e.dueOf i else e.dueOf i + 1

/-- The destination of parcel i as an incident's EXTRA names it: tile and unit, open for a cell (log entry 90). -/
def LdEntry.extra (e : LdEntry) (i : Nat) : Nat := if e.action ≤ 1 then e.tile * 2 ^ 32 + e.off + 4 * i else openData

/-- A landing miss, with or without an entry. -/
def State.landingMiss (s : State) (p x : Nat) (h : Hdr) (extra : Nat) : State :=
  ((s.addF pgICH Reg.ICH_LANDMISS_COUNT 1).ichFlag Reg.ICH_STAT_LANDMISS p x h.slot).raiseIch 0x1010 p x h.kind h.slot extra
    none

/-- Mark the destination of parcel i of landing entry e: it is poisoned at its due beat. -/
def State.markFaulted (s : State) (p l e i : Nat) : State :=
  s.modIch (fun z => { z with faulted := (p, l, e, i) :: z.faulted })

/-- The parcel's route ends here, or goes on, as its landing says (06 R174). -/
def routeFits (own : Nat) (e : LdEntry) (h : Hdr) : Bool :=
  if e.action = ldPARK ∨ e.action = ldMERGE then h.dst != own && decide (h.hops % 16 < h.hops / 16)
  else h.dst == own && h.hops % 16 == h.hops / 16

/-- An accepted parcel waits for its due beat, or goes to its cell (06 R175, R180); its bytes beyond LEN are ignored (07 R208). The
staging cells of a port have no limit here: the 512 of 06 R179 cannot be exceeded within the limit of R177, and the spec gives no
outcome beyond it (DESIGN CHOICE, log entry 92). -/
def State.acceptParcel (s : State) (p g x l e i : Nat) (en : LdEntry) (f : Frame) : State :=
  let f := { f with data := cutWords f.hdr.len f.data }
  let s := s.takeManifest p x f
  let s := s.modIch (fun z => { z with staged := z.staged ++ [⟨p, g, l, e, i, s.nt, f⟩] })
  if en.action ≤ 1 then s else s.intoCell p x (en.cell + i) en.action f

/-- The reset drain of a partition, or of the tile that a parcel is for (12 R366). -/
def State.partInReset (s : State) (p : Nat) : Bool := s.mgmt.resets.contains (.part p)

/-- Resolve a staged parcel (06 R174, R176; 10 R294; 12 R366). -/
def State.resolve (s : State) (x : Nat) (f : Frame) : State :=
  let h := f.hdr
  let p := h.postcode / 2 ^ 14
  let g := if h.gen then 1 else 0
  let swapped : Bool := match (s.part p).swapNt with
    | none => false
    | some t => decide (s.nt < t + s.getF pgICH Reg.ICH_DRAIN_NS_NS * nsUnit)
  if s.partInReset p then s.addF pgMGT Reg.MGT_RSTDISC_COUNT 1
  else if s.prtState p = prtHOLDING then s.addF pgICH Reg.ICH_LATE_COUNT 1
  else if s.prtState p ≠ prtRUNNING then s.landingMiss p x h openData
  else if g ≠ s.gen p ∧ ¬ swapped then
    ((s.addF pgICH Reg.ICH_GENMIS_COUNT 1).ichFlag Reg.ICH_STAT_GENMIS p x h.slot).raiseIch 0x1012 p x h.kind h.slot openData none
  else
    match s.logicalOf p g x with
    | none => s.landingMiss p x h openData
    | some l =>
      let covers := (s.liveLd p l g).filterMap (fun z =>
        if (s.part p).decision || z.2.mark then
          (slotIndex (s.sds x) z.2.start z.2.run h.slot).map (fun i => (z.1, z.2, i)) else none)
      let s := if 1 < covers.length then s.ichFlag Reg.ICH_STAT_MULTI p x h.slot else s
      match covers with
      | [] => s.landingMiss p x h openData
      | (e, en, i) :: _ =>
        let s := s.useEntry true p l g e
        if en.action ≤ 1 ∧ s.tileInReset en.tile then s.addF pgMGT Reg.MGT_RSTDISC_COUNT 1
        else if h.round ≠ s.round p ∨ s.beatNt p (en.deadline i) ≤ s.nt then s.addF pgICH Reg.ICH_LATE_COUNT 1
        else if h.postcode ≠ en.postcode then
          (((s.addF pgICH Reg.ICH_DEADLETTER_COUNT 1).ichFlag Reg.ICH_STAT_DEADLETTER p x h.slot).raiseIch 0x1011 p x h.kind
            h.slot (en.extra i) none).markFaulted p l e i
        else if h.kind ≠ en.pkind ∨ h.hops % 16 ≠ en.hopsSeen ∨ h.offset ≠ i ∨ ¬ routeFits s.chipId en h then
          (s.landingMiss p x h (en.extra i)).markFaulted p l e i
        else s.acceptParcel p g x l e i en f

/-! ### The link exerciser's parcels (07 R228, R229) -/

/-- One bit of the PRBS31 stream x^31 + x^28 + 1. -/
def prbsBit (z : BitVec 31) : Bool × BitVec 31 :=
  let b := z.getLsbD 30 ^^ z.getLsbD 27
  (b, z <<< 1 ||| (if b then 1 else 0))

/-- The next word of the stream, its first bit lowest (DESIGN CHOICE, log entry 21). -/
def prbsWord (z : BitVec 31) : Word × BitVec 31 :=
  (List.range 32).foldl (fun (a : Word × BitVec 31) k =>
    let r := prbsBit a.2
    (if r.1 then a.1 ||| (1#32 <<< k) else a.1, r.2)) (0, z)

/-- The next n words. -/
def prbsWords (z : BitVec 31) : Nat → List Word × BitVec 31
  | 0 => ([], z)
  | n + 1 => let r := prbsWord z; let t := prbsWords r.2 n; (r.1 :: t.1, t.2)

/-- The start of an exerciser slot: slots run from the beat anchor at the gear in force (DESIGN CHOICE, log entry 21). -/
def State.exrSlotNt (s : State) (x slot : Nat) : Nat := s.time.anchor + beatsNt s.gear (slotBeats x * slot)

/-- The beat that exerciser slots are counted from. -/
def State.exrBeat (s : State) : Nat := beatsIn s.gear (s.nt - s.time.anchor)

/-- The exerciser runs the link layer of the port without an image (07 R229). -/
def State.exercises (s : State) (x : Nat) : Bool := s.linkState x == lnkUP && s.getL x Reg.ICL_EXR_CTL_MODE == 3

/-- The states of the stream at the starts of the next n parcels, each with its SEQ from q on, and the state after them. -/
def prbsParcels (z : BitVec 31) (q : Nat) : Nat → List (Nat × BitVec 31) × BitVec 31
  | 0 => ([], z)
  | n + 1 =>
    let r := prbsParcels (prbsWords z 128).2 ((q + 1) % 65536) n
    ((q, z) :: r.1, r.2)

/-- What the checker expects of a parcel whose SEQ lies `ahead` beyond the highest received before it, and the stream after it: the
stream goes on over the parcels that are missing, whose places are kept for their replays; a parcel that continues it at once after a
SEQ that no parcel had goes on from there; a replay meets its kept place (07 R229; DESIGN CHOICE, log entry 21). -/
def Link.expect (l : Link) (ahead seq : Nat) (data : List Word) : Option (BitVec 31) × Link :=
  if 1 ≤ ahead ∧ ahead < 32768 then
    let gap := prbsParcels l.exrRx ((seq + 65536 - (ahead - 1)) % 65536) (min (ahead - 1) 1024)
    let fits := fun (z : BitVec 31) => decide ((prbsWords z 128).1 = data)
    if fits gap.2 ∨ ¬ fits l.exrRx then
      (some gap.2, { l with
        exrRx := (prbsWords gap.2 128).2,
        exrMiss := (l.exrMiss ++ gap.1).filter (fun e => decide (seqDiff seq e.1 < 1024)) })
    else (some l.exrRx, { l with exrRx := (prbsWords l.exrRx 128).2 })
  else ((l.exrMiss.find? (fun e => e.1 == seq)).map (·.2), { l with exrMiss := l.exrMiss.filter (fun e => e.1 != seq) })

/-- The checker takes a good parcel: its SEQ, which follows the highest received before it or fills a gap, its payload against the
stream, and the time from its SLOT to the end of staging. -/
def State.exrCheck (s : State) (x : Nat) (high : Option Nat) (fresh : Bool) (f : Frame) : State :=
  let ahead := seqDiff f.hdr.seq (match high with | none => 65535 | some h => h)
  let l := s.link x
  let skipped := decide (1 < ahead) && decide (ahead < 32768) && decide ((prbsWords l.exrRx 128).1 = f.data)
  let (z, l') := if fresh then l.expect ahead f.hdr.seq f.data else (none, l)
  let good := match z with | some z => decide ((prbsWords z 128).1 = f.data) | none => false
  let lat := (s.nt - s.exrSlotNt x f.hdr.slot) / 2 ^ 32
  let s := (s.setLink x l').addL x Reg.ICL_EXR_RX_COUNT 1
  let s := if good && !skipped then s else s.addL x Reg.ICL_EXR_ERR_COUNT 1
  let s := s.setL x Reg.ICL_EXR_LATMIN_NS (min lat (s.getL x Reg.ICL_EXR_LATMIN_NS))
  s.setL x Reg.ICL_EXR_LATMAX_NS (max lat (s.getL x Reg.ICL_EXR_LATMAX_NS))

/-- Link echo: a good parcel is sent back with its SEQ reassigned, once both ends have time (07 R201). -/
def State.exrEcho (s : State) (x : Nat) (f : Frame) : State :=
  if !s.timedLink x then s
  else
    let (f, s) := s.injectPoison x ⟨{ f.hdr with seq := (s.link x).sNext }, cutWords f.hdr.len f.data⟩
    (s.keepSent x f).putFrame x f

/-! ### Reception (07 R211, R212, R227) -/

/-- The first slot-length boundary of the local time base at or after a time of it. -/
def State.calBoundary (s : State) (x at0 : Nat) : Nat :=
  let l := max 1 (beatsNt s.gear (slotBeats x))
  (at0 + l - 1) / l * l

/-- Send a calibration parcel at a boundary of the local time base. -/
def State.calSend (s : State) (x at0 : Nat) (f : Frame) : State :=
  (s.passLocal (s.calBoundary x at0 - s.ltb)).putFrame x f

/-- The near end starts a trial: a calibration parcel whose departure is kept (07 R227). Header fields that R227 does not give are
the model's (DESIGN CHOICE, log entry 22). -/
def State.startTrial (s : State) (x : Nat) : State :=
  let l := s.link x
  let h : Hdr :=
    { ver := 1, cls := 0, gen := false, poison := false, kind := 0, fwded := false, retry := false, last := false,
      manifest := false, postcode := 0, src := s.chipId, dst := s.getL x Reg.ICL_LEDGER0_PEER_CHIP, round := 0, slot := 0,
      hops := 0x11, seq := l.rplTrials % 65536, len := 512, offset := 0 }
  let f : Frame := ⟨h, List.replicate 128 0⟩
  let s := s.calSend x s.ltb f
  s.modLink x (fun l => { l with calSent := some f, calT0 := s.ltb, calT3 := none })

/-- The near end's trial parcel is NAKed: it is sent again at the first boundary at or after h + 8 (07 R227). -/
def State.calReplay (s : State) (x seq : Nat) : State :=
  match (s.link x).calSent with
  | none => s
  | some f =>
    if f.hdr.seq = seq then
      (s.addL x Reg.ICL_RPLTX_COUNT 1).calSend x (s.ltb + beatsNt s.gear 8) { f with hdr := { f.hdr with retry := true } }
    else s

/-- A calibration parcel in CAL (07 R227). The near end keeps the time of its return. The far end returns the peer's first delivery
and reports t2 − t1, which is the device's own and free (DESIGN CHOICE, log entry 22), and NAKs it; of the replay it reports t4 − t1. -/
def State.calParcel (s : State) (x : Nat) (f : Frame) : State :=
  let report := fun (s : State) (step d : Nat) => s.sendSym x 6 step (beBytes d 8 ++ beBytes f.hdr.seq 2)
  if f.hdr.src = s.chipId then s.modLink x (fun l => { l with calT3 := some s.ltb })
  else if f.hdr.retry then report s 2 ((s.ltb - (s.link x).calT1) / 2 ^ 32)
  else
    let (d, s) := s.freeBits 64
    let s := s.modLink x (fun l => { l with calT1 := s.ltb })
    report ((s.putFrame x f).sendNak x false f.hdr.seq 0) 1 d

/-- A scheduled parcel arrives (07 R211, R212; 06 R174); a link in CAL or HOLD carries none but calibration parcels (07 Table 8).
The frame ends where its CLASS and LEN say (R206). -/
def State.receiveParcel (s : State) (x : Nat) (l : List Byte) (bad : Bool) : State :=
  let st := s.linkState x
  if (st ≠ lnkUP ∧ st ≠ lnkCAL ∧ st ≠ lnkHOLD) ∨ ((s.link x).framing ∧ bad = false) then s
  else
    let exr := s.exercises x
    let whole := decide (frameLen l ≤ l.length)
    let l := l.take (frameLen l)
    if bad || !whole || decide (l.length < 32) || !crcHolds l then
      let s := s.frameFailed x
      if exr then s.addL x Reg.ICL_EXR_ERR_COUNT 1 else s
    else
      let f := Frame.parse l
      let s := s.modLink x (fun k => { k with lastGood := s.nt })
      if f.hdr.ver ≠ 1 ∨ f.hdr.cls = 3 then
        let s := s.malformed x
        if f.hdr.cls = 0 then (s.takeSched x f.hdr.seq).2 else s
      else if f.hdr.cls ≠ 0 then s
      else if !f.hdr.schedValid l.length (st != lnkUP) then (s.malformed x).takeSched x f.hdr.seq |>.2
      else if f.hdr.kind = 0 then s.calParcel x f
      else if st ≠ lnkUP then s
      else
        let high := (s.link x).sHigh
        let (fresh, s) := s.takeSched x f.hdr.seq
        if exr then s.exrCheck x high fresh f
        else if !fresh then s
        else if s.getL x Reg.ICL_EXR_CTL_MODE = 6 then s.exrEcho x f
        else s.resolve x f

def execScheduledParcelReceive (port : PortId) (bytes : List Byte) (bad : Bool) (s : State) :
    Host.Outcome State Fault Refusal :=
  .next (s.receiveParcel port.val bytes bad)

/-! ### Due beats (06 R175, R176) -/

/-- The words of unit j of a landing of `len` bytes. -/
def unitWords (len j : Nat) : Nat := min 32 ((len + 3) / 4 - 32 * j)

/-- Write `len` bytes of poisoned words in the beats of the landing; their data bits are free (DESIGN CHOICE, log entry 23). -/
def State.poisonUnits (s : State) (p x : Nat) (en : LdEntry) (i slot len : Nat) : State :=
  let b := en.dueOf i + (if en.action = ldADD then 2 else 0)
  s.forEach (List.range ((len + 127) / 128)) (fun s j =>
    let (ws, s) := s.freeWords (unitWords len j)
    (s.atLeast (s.beatNt p (b + j))).fabricWrite ⟨x, en.dueOf i, en.tile, en.handle, en.off + 4 * i + j, cFAR, true, none⟩ (b + j)
      en.pkind slot (ws.map (fun w => ⟨w, true⟩)))

/-- A WRITE landing: unit j in beat Q + j. -/
def State.landWrite (s : State) (p x : Nat) (en : LdEntry) (i : Nat) (f : Frame) : State :=
  let b := en.dueOf i
  s.forEach (List.range ((f.hdr.len + 127) / 128)) (fun s j =>
    (s.atLeast (s.beatNt p (b + j))).fabricWrite ⟨x, b, en.tile, en.handle, en.off + 4 * i + j, cFAR, true, none⟩ (b + j)
      f.hdr.kind f.hdr.slot (((f.data.drop (32 * j)).take (unitWords f.hdr.len j)).map (fun w => ⟨w, f.hdr.poison⟩)))

/-- An ADD landing: unit j is read in beat Q + j, added entry by entry, and written in beat Q + j + 2 (06 R175, R184). An entry
read is poisoned when one of its words is. -/
def State.landAdd (s : State) (p x : Nat) (en : LdEntry) (i : Nat) (f : Frame) : State :=
  let b := en.dueOf i
  let units := List.range ((f.hdr.len + 127) / 128)
  let acc := fun j write => (⟨x, b, en.tile, en.handle, en.off + 4 * i + j, cFAR, write, none⟩ : FabAcc)
  let (rd, s) := units.foldl (fun (a : List (List (PV 32)) × State) j =>
    let s := a.2.atLeast (a.2.beatNt p (b + j))
    let (ws, s) := s.fabricRead (acc j false) (b + j) f.hdr.kind f.hdr.slot
    (a.1 ++ [ws], s)) ([], s)
  s.forEach units (fun s j =>
    let n := unitWords f.hdr.len j / 4
    let old := rd.getD j (badWords 32)
    let z := addEntries (old.map (·.v)) (f.data.drop (32 * j)) (fun k => ((old.drop (4 * k)).take 4).any (·.p)) n
    let s := (s.atLeast (s.beatNt p (b + j + 2))).fabricWrite (acc j true) (b + j + 2) f.hdr.kind f.hdr.slot z.1
    if z.2 then s.ichSpill p x f.hdr.kind f.hdr.slot (en.tile * 2 ^ 32 + en.off + 4 * i + j) else s)

/-- The due beat of parcel i of landing entry e (06 R175, R176, R178). Into a tile that is in reset nothing lands: a parcel that waits
is discarded and counted, and no incident is raised (12 R366). -/
def State.landingDue (s : State) (p l e i : Nat) : State :=
  let g := s.gen p
  let s := (s.usePort p g l).useEntry true p l g e
  match (s.liveLd p l g).find? (fun z => z.1 == e) with
  | none => s
  | some (_, en) =>
    if s.prtState p ≠ prtRUNNING ∨ en.run ≤ i ∨ ¬ ((s.part p).decision || en.mark) then s
    else
      let x := (s.physOf p g l).getD l
      let slot := slotOf (s.sds x) en.start i
      let marked := s.ich.faulted.contains (p, l, e, i)
      let mine := fun (z : Staged) => z.part == p && z.bank == g && z.port == l && z.entry == e && z.i == i
      let found := s.ich.staged.find? mine
      let s := s.atLeast (s.beatNt p (en.deadline i))
      let s := s.modIch (fun z => { z with
        staged := z.staged.filter (fun k => !mine k), faulted := z.faulted.filter (fun k => k != (p, l, e, i)) })
      let lost := marked || found.isNone
      if en.action ≤ 1 ∧ s.tileInReset en.tile then
        if found.isSome then s.addF pgMGT Reg.MGT_RSTDISC_COUNT 1 else s
      else
      let s := if lost && !marked then
          ((s.addF pgICH Reg.ICH_LATE_COUNT 1).ichFlag Reg.ICH_STAT_LATE p x slot).raiseIch 0x1013 p x en.pkind slot
            (en.extra i) none
        else s
      if 1 < en.action then (if lost then s.setCell (en.cell + i) cellBad else s)
      else
        match found with
        | none => s.poisonUnits p x en i slot (lenOf en.lastLen en.run i)
        | some z =>
          if marked then s.poisonUnits p x en i slot (lenOf en.lastLen en.run i)
          else if en.action = ldWRITE then s.landWrite p x en i z.frame
          else if z.frame.hdr.poison then s.poisonUnits p x en i slot z.frame.hdr.len
          else s.landAdd p x en i z.frame

def execLandingDueBeat (p : PartId) (l : PortId) (e : BitVec 15) (i : BitVec 12) (s : State) :
    Host.Outcome State Fault Refusal :=
  .next (s.landingDue p.val l.val e.toNat i.toNat)

/-- DRAINING clears at the swap NT + ICH_DRAIN_NS (06 R190). -/
def execGenerationDrainEnd (p : PartId) (s : State) : Host.Outcome State Fault Refusal :=
  .next (if s.getB pgICH (Reg.ICH_SWAP_DRAINING.at p.val) then
    match (s.part p.val).swapNt with
    | none => s.setF pgICH (Reg.ICH_SWAP_DRAINING.at p.val) 0
    | some t => (s.atLeast (t + s.getF pgICH Reg.ICH_DRAIN_NS_NS * nsUnit)).setF pgICH (Reg.ICH_SWAP_DRAINING.at p.val) 0
  else s)

/-! ### Replays (07 R214 to R217) -/

/-- The parcel of a pending replay, still held, of the round that its partition runs. -/
def State.replayOf (s : State) (x : Nat) (q : PendingReplay) : Option Frame :=
  (s.link x).sBuf.find? (fun f => f.hdr.seq == q.seq && (s.exercises x || f.hdr.round == s.round (f.hdr.postcode / 2 ^ 14)))

/-- The start of a slot in which the parcel of a pending replay may go: of its partition's round, or of the exerciser's slots. -/
def State.replayStart (s : State) (x slot p : Nat) : Nat :=
  if s.exercises x then s.exrSlotNt x slot else s.beatNt p (slotBeats x * slot)

/-- Pending replay q may depart in slot `slot` of port x (07 R215, R217), which no HOLD run leaves idle (06 R168). The exerciser's
parcels need no partition (07 R229). -/
def State.replayFits (s : State) (x slot : Nat) (q : PendingReplay) : Bool :=
  match s.replayOf x q with
  | none => false
  | some f =>
    let p := f.hdr.postcode / 2 ^ 14
    decide (q.beat + 8 ≤ slotBeats x * slot) && !(s.link x).taken.contains (s.replayStart x slot p) &&
      (if s.exercises x then !s.sds x || slot % 16 == 15
       else s.prtState p == prtRUNNING && s.carries p x && decide (slot < s.slots p x) && !s.holdAt x (s.replayStart x slot p) &&
         (!s.sds x || slot % 16 == 15 || s.retrySlot p x slot))

/-- The first pending replay, in the order in which the NAKs arrived, that may depart in the slot does so (07 R216). -/
def execReplayDeparture (port : PortId) (slot : BitVec 24) (s : State) : Host.Outcome State Fault Refusal :=
  let x := port.val
  .next (match (s.link x).pend.find? (s.replayFits x slot.toNat) with
    | none => s
    | some q =>
      match s.replayOf x q with
      | none => s
      | some f =>
        let p := f.hdr.postcode / 2 ^ 14
        let start := s.replayStart x slot.toNat p
        let s := s.atLeast start
        let (f, s) := s.injectPoison x { f with hdr := { f.hdr with retry := true } }
        let s := (s.addL x Reg.ICL_RPLTX_COUNT 1).modLink x (fun l => { l with
          pend := l.pend.filter (fun k => k != q), taken := start :: l.taken })
        s.putFrame x f)

end Sys2Proof.Machine
end

