-- ==== Sys2Proof/Machine/Link.lean ====
section
/-! DEFINITION. The link layer: control symbols, acknowledgement, credits, the unscheduled class and link loss (07 R211 to
R215, R218 to R223, R225, R227; 15 R422, R424). -/

namespace Sys2Proof.Machine

/-! ### Credits (07 R221) -/

/-- Units committed on a VC: held, and granted beyond those accepted. -/
def Link.commit (l : Link) (v : Nat) : Nat :=
  l.buf.get v 0 + (l.lim.get v 0 + 2 ^ 32 - l.rcv.get v 0) % 2 ^ 32

/-- Raise lim[v]. -/
def Link.grantMore (l : Link) (v n : Nat) : Link := { l with lim := l.lim.put v ((l.lim.get v 0 + n) % 2 ^ 32) 0 }

/-- The grants of one run: first the reserves, then 33 units at a time to the VC that n steps lead to from after the one last
served, which moves as VCs are served. -/
def Link.grant (l : Link) (vmin vmax : Nat → Nat) : Link :=
  let l := [0, 1, 2, 3].foldl (fun (l : Link) v =>
    if l.commit v < vmin v then l.grantMore v (vmin v - l.commit v) else l) l
  [0, 1, 2, 3].foldl (fun (l : Link) n =>
    let v := (l.lastV + 1 + n) % 4
    let shared := [0, 1, 2, 3].foldl (fun a k => a + (l.commit k - vmin k)) 0
    if (l.lim.get v 0 + 2 ^ 32 - l.rcv.get v 0) % 2 ^ 32 < 66 ∧ l.commit v + 33 ≤ vmax v ∧
        shared + 33 ≤ 4096 - (vmin 0 + vmin 1 + vmin 2 + vmin 3) then
      { l.grantMore v 33 with lastV := v } else l) l

/-- Send the CREDIT of a VC. -/
def State.sendCredit (s : State) (x v : Nat) : State := s.sendSym x 3 v (beBytes ((s.link x).lim.get v 0) 4)

/-- Run the grants after an accept or a free; each limit that changes is sent. -/
def State.grant (s : State) (x : Nat) : State :=
  let old := s.link x
  let s := s.setLink x (old.grant (fun v => s.getL x (Reg.ICL_VC_MIN.at v)) (fun v => s.getL x (Reg.ICL_VC_MAX.at v)))
  s.forEach [0, 1, 2, 3] (fun s v => if (s.link x).lim.get v 0 = old.lim.get v 0 then s else s.sendCredit x v)

/-! ### Link loss (07 R223; 15 R424) -/

/-- Send a TRAIN symbol (07 Table 6). -/
def State.sendTrain (s : State) (x : Nat) (resuming : Bool) : State :=
  s.sendSym x 5 (s.linkState x) (beBytes s.chipId 2 ++ [BitVec.ofNat 8 x] ++ beBytes (bit resuming 0) 1 ++
    beBytes (s.link x).uExp 2)

/-- A request that asks for an answer. -/
def Hdr.asks (h : Hdr) : Bool := h.kind == 2 || h.kind == 3

/-- Answer a request that will not be served: a local requester at once, another chip by a CPL. -/
def State.answer (s : State) (h : Hdr) (status : Nat) : State :=
  if h.src = s.chipId then s.emit (.response h.slot status []) else s.sendCpl h status

/-- The requests of a tag: the parts of one operation. -/
def State.operation (s : State) (tag : Nat) : List Request :=
  allPorts.flatMap (fun x => (s.link x).requests.filter (fun r => r.tag == tag))

def State.endOperation (s : State) (tag : Nat) : State :=
  s.forEach allPorts (fun s x => s.modLink x (fun l => { l with requests := l.requests.filter (fun r => r.tag != tag) }))

/-- A request over link x has its answer: a part that fails leaves the words it asked for poisoned. When every part of the operation
has one, the requester's completion carries the status of the first part that failed, and the data of the parts in order (10 R291). -/
def State.answered (s : State) (x : Nat) (r : Request) (status : Nat) (data : List Word) : State :=
  let ws := if status = 0 then data.map PV.ok else if data.isEmpty then badWords r.len else data.map (fun v => ⟨v, true⟩)
  let s := s.modLink x (fun l => { l with requests := l.requests.replace r { r with answer := some (status, ws) } })
  let op := s.operation r.tag
  if op.all (fun q => q.answer.isSome) then
    let parts := op.filterMap (·.answer)
    (s.endOperation r.tag).emit (.response r.tag (((parts.map (·.1)).find? (· != 0)).getD 0) (parts.flatMap (·.2)))
  else s

/-- DROP: every unscheduled packet queued for the link or held in it is discarded, those of its receive pool that wait to be served
or forwarded among them, and requests are answered with LINK_DOWN (15 R424); the unscheduled sequence space and the credits of the
link start anew (DEDUCED, log entry 24). -/
def State.dropUnscheduled (s : State) (x : Nat) : State :=
  let l := s.link x
  let reqs := l.requests
  let lost := (l.uBuf ++ l.queue.map (·.frame) ++ (l.pool.filter (fun k => !k.done)).map (·.frame)).filter (fun f => f.hdr.asks &&
    !(f.hdr.src == s.chipId && reqs.any (fun r => r.tag == f.hdr.slot)))
  let s := s.setLink x { l with
    uNext := 0, uBuf := [], uBack := [], uExp := 0, queue := [], pool := [], lim := [], rcv := [], buf := [], sent := [],
    peer := [], ackU := 0, nakNt := none }
  let s := s.forEach allPorts (fun s y => s.modLink y (fun z => { z with queue := z.queue.filter (fun q =>
    match q.origin with | some o => o.1 != x | none => true) }))
  let s := s.forEach (l.queue.filterMap (·.origin)) (fun s o => s.poolDone o.1 o.2)
  let s := s.forEach (reqs.filter (fun r => r.answer.isNone)) (fun s r => s.answered x r 1 [])
  s.forEach lost (fun s f => s.answer f.hdr 1)

/-- Scheduled traffic of the link ends: its replay buffer is emptied and its sequence space starts anew (07 R223). -/
def Link.dropScheduled (l : Link) : Link :=
  { l with sNext := 0, sBuf := [], pend := [], sHigh := none, sGot := [], sSpan := 0, sExp := 0, ackS := 0, resumed := [],
           taken := [], left := [] }

/-- A link that leaves CAL and UP carries no time: what it knows of the peer's exchanges is over, and only XSEQ counts on (08 R235,
R236). -/
def PeerTime.ended (t : PeerTime) : PeerTime := { PeerTime.reset with xseq := t.xseq }

def Link.dropTime (l : Link) : Link := { l with timeA := l.timeA.ended, timeB := l.timeB.ended, peerLock := false }

/-- Enter TRAIN for a new attempt. ATTEMPTS counts those since the link left UP, and stays at its greatest value (07 Table 12;
DEDUCED, log entry 25). -/
def State.enterTrain (s : State) (x : Nat) : State :=
  let n := min 15 (s.getL x Reg.ICL_STATE_ATTEMPTS + 1)
  (((s.setLinkState x lnkTRAIN).setL x Reg.ICL_STATE_ATTEMPTS n).modLink x (fun l => { l with tries := l.tries + 1 })).sendTrain x false

/-- The first attempt of a training (DEDUCED, log entry 25). -/
def State.startTraining (s : State) (x : Nat) : State := (s.modLink x (fun l => { l with tries := 0 })).enterTrain x

/-- A link in UP declares loss with a cause (07 R223, Table 12). -/
def State.declareLoss (s : State) (x cause : Nat) : State :=
  if s.linkState x ≠ lnkUP then s
  else
    let s := s.raiseLink x 0x3001 cause
    let s := ((s.setL x Reg.ICL_STATE_CAUSE cause).setL x Reg.ICL_ERR_LOSS 1).setL x Reg.ICL_STATE_SCHED 0
    let s := (s.setL x Reg.ICL_STATE_ATTEMPTS 0).modLink x (fun l => { l.dropScheduled.dropTime with lossNt := some s.nt })
    if s.getL x Reg.ICL_DOWN_MODE_MODE = 0 then ((s.dropUnscheduled x).startTraining x).leaveParent x
    else ((s.setLinkState x lnkHOLD).sendTrain x true).leaveParent x

/-! ### Control symbols (07 R210 to R215, R218, R221, R225, R227) -/

/-- The link carries frames. -/
def State.carriesFrames (s : State) (x : Nat) : Bool := s.linkState x == lnkUP || s.linkState x == lnkCAL

/-- Frees the replay buffer up to NEXT. -/
def execAck (port : PortId) (sym : BitVec 128) (bad : Bool) (s : State) : Host.Outcome State Fault Refusal :=
  let x := port.val
  .next (s.receiveSym x sym bad 1 (fun s =>
    let next := symField sym 2 3
    let held := fun (f : Frame) => decide (seqDiff f.hdr.seq next < 32768)
    if !s.carriesFrames x then s
    else if symLow sym = 8 then s.modLink x (fun l => { l with uBuf := l.uBuf.filter held, uBack := l.uBack.filter held })
    else s.modLink x (fun l => { l with
      sBuf := l.sBuf.filter held, pend := l.pend.filter (fun q => decide (seqDiff q.seq next < 32768)) })))

/-- One scheduled SEQ of a NAK (07 R214, R215). -/
def State.takeNak (s : State) (x seq : Nat) : State :=
  let l := s.link x
  if seqDiff seq l.sNext < 32768 then s
  else
    match l.sBuf.find? (fun f => f.hdr.seq == seq) with
    | none => s.linkCount x Reg.ICL_NAKSTALE_COUNT Reg.ICL_ERR_NAKSTALE
    | some f =>
      if l.pend.any (fun q => q.seq == seq) then s
      else
        let h := if s.exercises x then s.exrBeat else s.partBeat (f.hdr.postcode / 2 ^ 14)
        s.modLink x (fun l => { l with pend := l.pend ++ [⟨seq, h⟩] })

/-- Asks for replays: of the scheduled SEQs it names, of a calibration trial, or of every unscheduled packet from its SEQ on. -/
def execNak (port : PortId) (sym : BitVec 128) (bad : Bool) (s : State) : Host.Outcome State Fault Refusal :=
  let x := port.val
  .next (s.receiveSym x sym bad 2 (fun s =>
    let seq := symField sym 2 3
    let mask := symField sym 4 5
    if !s.carriesFrames x && s.linkState x != lnkHOLD then s
    else
      let s := s.addL x Reg.ICL_NAKRX_COUNT 1
      if s.linkState x ≠ lnkUP ∧ symLow sym = 0 then s.calReplay x seq
      else if !s.carriesFrames x then s
      else if symLow sym = 8 then
        let l := s.link x
        if seqDiff seq l.uNext < 32768 then s
        else if l.uBuf.any (fun f => f.hdr.seq == seq) then
          s.modLink x (fun l => { l with uBack := l.uBuf.dropWhile (fun f => f.hdr.seq != seq) })
        else s.linkCount x Reg.ICL_NAKSTALE_COUNT Reg.ICL_ERR_NAKSTALE
      else
        s.forEach (seq :: ((List.range 16).filter mask.testBit).map (fun k => (seq + 1 + k) % 65536))
          (fun s q => s.takeNak x q)))

/-- A LIMIT is adopted when it lies ahead of the one in force. -/
def execCredit (port : PortId) (sym : BitVec 128) (bad : Bool) (s : State) : Host.Outcome State Fault Refusal :=
  let x := port.val
  .next (s.receiveSym x sym bad 3 (fun s =>
    let v := symLow sym
    let limit := symField sym 2 5
    let cur := (s.link x).peer.get v 0
    if s.carriesFrames x && decide ((limit + 2 ^ 32 - cur) % 2 ^ 32 < 2 ^ 31) then
      s.modLink x (fun l => { l with peer := l.peer.put v limit 0 })
    else s))

/-- The peer's identity enters the ledger (07 R222, Table 13). -/
def execTrain (port : PortId) (sym : BitVec 128) (bad : Bool) (s : State) : Host.Outcome State Fault Refusal :=
  let x := port.val
  .next (s.receiveSym x sym bad 5 (fun s =>
    if s.linkState x = lnkTRAIN ∨ s.linkState x = lnkHOLD then
      let chip := symField sym 2 3
      let s := (s.setL x Reg.ICL_LEDGER0_PEER_CHIP chip).setL x Reg.ICL_LEDGER0_PEER_PORT (symByte sym 4)
      s.modLink x (fun l => { l with
        train := some ⟨chip, symByte sym 4, symLow sym, symByte sym 5 == 1, symField sym 6 7⟩ })
    else s))

/-- A report of one calibration trial (07 R227): step 1 brings t2 − t1, which with the return of the trial parcel gives its value;
step 2 brings t4 − t1 and ends the trial, and until 1,024 are complete the next one starts. The step codes and this order are the
model's (DESIGN CHOICE, log entry 22). -/
def execCal (port : PortId) (sym : BitVec 128) (bad : Bool) (s : State) : Host.Outcome State Fault Refusal :=
  let x := port.val
  .next (s.receiveSym x sym bad 6 (fun s =>
    if s.linkState x ≠ lnkCAL ∧ s.linkState x ≠ lnkHOLD then s
    else
      let t := symField sym 2 9
      let l := s.link x
      if symLow sym = 1 then
        match l.calT3 with
        | none => s
        | some t3 => s.setLink x { l with
            latMax := max l.latMax (((t3 - l.calT0) / 2 ^ 32 - t) / 2), latTrials := l.latTrials + 1, calT3 := none }
      else if symLow sym = 2 then
        let s := s.setLink x { l with rplMax := max l.rplMax t, rplTrials := l.rplTrials + 1, calSent := none }
        if l.rplTrials + 1 < 1024 then s.startTrial x else s
      else s))

/-- The link declares loss at once (07 R225). -/
def execHold (port : PortId) (sym : BitVec 128) (bad : Bool) (s : State) : Host.Outcome State Fault Refusal :=
  .next (s.receiveSym port.val sym bad 7 (fun s => s.declareLoss port.val 4))

/-- An exerciser marker: it lets a foreign checker align and changes nothing of a link (07 R229). Its bytes 2 to 11 are 0, and one with
other bytes there is malformed (DESIGN CHOICE, log entry 21: the spec gives them no content). -/
def execExr (port : PortId) (sym : BitVec 128) (bad : Bool) (s : State) : Host.Outcome State Fault Refusal :=
  .next (s.receiveSym port.val sym bad 8 id)

/-! ### Timers (07 R213, R221) -/

/-- 500 ns after the last ACK of a class, a good frame received since is acknowledged. -/
def execAckTimerExpiry (port : PortId) (unsch : Bool) (s : State) : Host.Outcome State Fault Refusal :=
  let x := port.val
  let l := s.link x
  .next (if s.carriesFrames x && decide (0 < (if unsch then l.ackU else l.ackS)) then
    (s.atLeast ((if unsch then l.ackUNt else l.ackSNt) + 500 * nsUnit)).sendAck x unsch else s)

/-- Every LIMIT is sent again at least every 1 µs. -/
def execCreditRefreshExpiry (port : PortId) (s : State) : Host.Outcome State Fault Refusal :=
  .next (if s.carriesFrames port.val then s.forEach [0, 1, 2, 3] (fun s v => s.sendCredit port.val v) else s)

/-- The oldest served packet leaves the pool and its units are granted again. -/
def execReceivePoolFree (port : PortId) (s : State) : Host.Outcome State Fault Refusal :=
  let x := port.val
  .next (match (s.link x).pool.find? (·.done) with
    | none => s
    | some k =>
      (s.modLink x (fun l => { l with
        pool := l.pool.filter (fun z => z.id != k.id), buf := l.buf.put k.vc (l.buf.get k.vc 0 - k.units) 0 })).grant x)

/-! ### Free flits (07 R220) -/

/-- The boundary Tb of an armed gear change, in the units of `State.nt`: what TMB_GEAR_AT holds, so that a plain write of it moves the Tb
of an armed change at once (DESIGN CHOICE, log entry 102). -/
def State.gearAt (s : State) : Nat := s.get64 pgTMB Reg.TMB_GEAR_AT_LO Reg.TMB_GEAR_AT_HI * nsUnit

/-- A gear change is armed that takes effect at a round-start position at NT `x` (08 R249). -/
def State.gearDue (s : State) (x : Nat) : Bool := s.getB pgTMB Reg.TMB_GEAR_ARM && decide (s.gearAt ≤ x)

/-- The decision for round n (01 R31); the first round, which no manifests precede, runs (DEDUCED, log entry 29). -/
def State.willRun (s : State) (p n : Nat) : Bool :=
  (s.part p).maxRound.isNone || (s.part p).manifests.any (fun m => m.round == n && m.run)

/-- An armed swap of partition p whose T has come by NT `at0`. -/
def State.swapDue (s : State) (p at0 : Nat) : Bool :=
  s.getB pgICH (Reg.ICH_SWAP_ARM.at p) &&
    decide (s.get64 pgICH (Reg.ICH_TT_SWAP_LO.at p) (Reg.ICH_TT_SWAP_HI.at p) * nsUnit ≤ at0)

/-- R189 stops a swap at NT `at0`: the shadow bank's port names are no permutation, a drain is under way, or the bank is held. -/
def State.swapStopped (s : State) (p at0 : Nat) : Bool :=
  let g := s.gen p
  let drains := match (s.part p).swapNt with
    | none => false
    | some z => s.getB pgICH (Reg.ICH_SWAP_DRAINING.at p) && decide (at0 < z + s.getF pgICH Reg.ICH_DRAIN_NS_NS * nsUnit)
  !s.isPermutation p (1 - g) || drains || (s.part p).heldBank == some (1 - g)

/-- The replay of the aborted round starts at the next round-start position: by default two rounds after the aborted one,
with EMERG where a gear lower than that of the emergency takes effect or has done so, with LINK at the NT that RESUME named
(10 R298; 08 R254). -/
def State.replayDue (s : State) (p : Nat) : Bool :=
  let x := s.part p
  let j := s.getF pgETU (Reg.ETU_RCV_ABORT_ROUND.at p)
  if x.link then (match x.replayAt with | none => false | some t => t == x.nextNt)
  else if x.emerg then
    (s.gearDue x.nextNt && decide (x.emergGear < s.getF pgTMB Reg.TMB_GEAR_NEXT)) || decide (x.emergGear < s.gear)
  else x.nextRound == (j + 2) % 2 ^ 32

/-- The state as the next round of partition p will find it, where one is to begin: its NT and gear, its bank, and whether it runs. -/
def State.nextView (s : State) (p : Nat) : Option State :=
  let x := s.part p
  let view := fun (at0 gen : Nat) (runs : Bool) =>
    let s := (s.setF pgICH (Reg.ICH_SWAP_GEN.at p) gen).setF (pgPRT p) Reg.PRT_STAT_STATE prtRUNNING
    s.modPart p (fun x => { x with
      startNt := at0, gear := if s.gearDue at0 then s.getF pgTMB Reg.TMB_GEAR_NEXT else s.gear, decision := runs })
  if s.prtState p = prtLOADED then x.launchNt.map (fun t => view t (s.gen p) true)
  else if s.prtState p = prtRUNNING then
    if x.fenceAsked || (match x.stopNt with | some t => decide (t ≤ x.nextNt) | none => false) then none
    else
      let swaps := s.swapDue p x.nextNt && !s.swapStopped p x.nextNt
      some (view x.nextNt (if swaps then 1 - s.gen p else s.gen p) (s.willRun p x.nextRound))
  else if s.prtState p = prtHOLDING ∧ s.replayDue p ∧ ¬ x.fenceAsked then
    (x.starts.find? (fun z => z.round == s.getF pgETU (Reg.ETU_RCV_ABORT_ROUND.at p))).map (fun z => view x.nextNt z.gen z.runs)
  else none

/-- The slots of physical port x in which partition p's entries leave a parcel in the present round. -/
def State.ownSlots (s : State) (p x : Nat) : List Nat :=
  match s.logicalOf p (s.gen p) x with
  | none => []
  | some l => (s.liveTt p l).flatMap (fun z =>
      if s.ttActive p z.2 && z.2.kind != ttRETRY && z.2.kind != ttHOLD then
        ((List.range z.2.run).map (slotOf (s.sds x) z.2.start)).filter (fun k => s.slotFate p l x z.1 k == .departs)
      else [])

/-- The slots of port x that HOLD runs of partition p leave idle in the present round. -/
def State.holdSlots (s : State) (p x : Nat) : List Nat :=
  match s.logicalOf p (s.gen p) x with
  | none => []
  | some l => (s.liveTt p l).flatMap (fun z =>
      if z.2.kind = ttHOLD then
        ((List.range z.2.run).map (slotOf (s.sds x) z.2.start)).filter (fun k => s.slotFate p l x z.1 k == .departs)
      else [])

/-- The starts at which the parcels of slots `l` of partition p leave port x, those that a taken slot displaces among them (07 R217). -/
def State.placed (s : State) (p x : Nat) (l : List Nat) : List Nat :=
  let start := fun k => s.beatNt p (slotBeats x * k)
  ((sortBy (fun (a b : Nat) => decide (b < a)) l).foldl (fun (a : List Nat × List Nat) k =>
    if (s.link x).left.contains (start k) then a
    else match s.departSlot p x k a.1 with
      | none => a
      | some d => (start d :: a.1, start d :: a.2)) ((s.link x).taken, [])).2

/-- The starts of the slots in which the exerciser of port x sends, of the next few. -/
def State.exrStarts (s : State) (x : Nat) : List Nat :=
  let first := s.getL x Reg.ICL_EXR_SLOTS_FIRST
  let k0 := s.exrBeat / slotBeats x
  ((List.range 18).map (k0 + ·)).filterMap (fun k =>
    if first ≤ k ∧ (k - first) % max 1 (s.getL x Reg.ICL_EXR_SLOTS_PERIOD) = 0 then some (s.exrSlotNt x k) else none)

/-- Starts from now on of the scheduled departures of port x and of its HOLD slots: those of the rounds under way, with displaced
parcels where they will leave and replays, the first slots of rounds about to begin, and the exerciser's. -/
def State.nextStarts (s : State) (x : Nat) : List Nat :=
  let l0 := slotBeats x
  let near := fun (z : State) (p : Nat) => ((z.ownSlots p x ++ z.holdSlots p x).filter (· < 18)).map (fun k => z.beatNt p (l0 * k))
  let round := (allParts.filter (fun p => s.prtState p == prtRUNNING)).flatMap (fun p =>
    let k0 := s.partBeat p / l0
    s.placed p x (s.ownSlots p x) ++ (s.holdSlots p x).map (fun k => s.beatNt p (l0 * k)) ++
      ((List.range 18).filterMap (fun j =>
        if (s.link x).pend.any (s.replayFits x (k0 + j)) then some (s.beatNt p (l0 * (k0 + j))) else none)))
  let next := allParts.flatMap (fun p => match s.nextView p with | none => [] | some z => near z p)
  let exr := if s.exercises x then
      s.exrStarts x ++ ((List.range 18).filterMap (fun j =>
        let k := s.exrBeat / l0 + j
        if (s.link x).pend.any (s.replayFits x k) then some (s.exrSlotNt x k) else none))
    else []
  (round ++ next ++ exr).filter (fun t => decide (s.nt ≤ t))

/-- A frame of n flits may start now: the port is in no HOLD slot and in no parcel, and the frame ends before the next departure
or HOLD slot. A flit lasts 0.08 ns on a board port and 0.064 ns on a sub-trunk (07 R204). -/
def State.flitsFree (s : State) (x n : Nat) : Bool :=
  let f := if x < 15 then 80 else 64
  !s.holdAt x s.nt && (s.link x).taken.all (fun t => decide (s.nt < t) || decide (34 * f * nsUnit ≤ 1000 * (s.nt - t))) &&
    (s.nextStarts x).all (fun t => decide (n * f * nsUnit ≤ 1000 * (t - s.nt)))

/-! ### Unscheduled packets (07 R218 to R221; 15 R422, R424) -/

/-- A packet that may start in a gap of so many flits: it fits there and before the next departure, it has credit, and the replay
buffer holds it. -/
def State.mayStart (s : State) (x gap : Nat) (f : Frame) : Bool :=
  let l := s.link x
  let v := f.hdr.vc
  let held := l.uBuf.foldl (fun n g => n + 32 + 4 * g.data.length) 0
  decide (f.flits ≤ gap) && s.flitsFree x f.flits && decide (f.units ≤ (l.peer.get v 0 + 2 ^ 32 - l.sent.get v 0) % 2 ^ 32) &&
    decide (held + 32 + 4 * f.data.length ≤ 262144) && (s.linkState x == lnkUP || v == 0)

/-- The packet that starts next: the first of its VC, VC0 before VC2 before VC1 and VC3 in turn. -/
def State.nextPacket (s : State) (x gap : Nat) : Option Queued :=
  let l := s.link x
  ([0, 2] ++ (if l.last13 then [3, 1] else [1, 3])).findSome? (fun (v : Nat) =>
    (l.queue.find? (fun (q : Queued) => q.frame.hdr.vc == v)).filter (fun q => s.mayStart x gap q.frame))

/-- Start a new packet. -/
def State.startPacket (s : State) (x : Nat) (q : Queued) : State :=
  let l := s.link x
  let v := q.frame.hdr.vc
  let f := { q.frame with hdr := { q.frame.hdr with seq := l.uNext } }
  let own := f.hdr.asks && f.hdr.src == s.chipId
  let s := s.setLink x { l with
    uNext := (l.uNext + 1) % 65536, uBuf := l.uBuf ++ [f], queue := l.queue.erase q,
    sent := l.sent.put v ((l.sent.get v 0 + f.units) % 2 ^ 32) 0,
    last13 := if v = 1 then true else if v = 3 then false else l.last13,
    requests := if own then l.requests ++ [⟨f.hdr.slot, f.hdr.dst, f.hdr.postcode / 2 ^ 14,
      if f.hdr.kind = 3 then (f.data.headD 0).toNat / 4 else 0, none⟩] else l.requests }
  let s := match q.origin with | none => s | some o => s.poolDone o.1 o.2
  s.putFrame x f

/-- In a gap of `gap` flits, as other frames on the port leave it, a port sends an unscheduled replay, or else a new packet (07 R220).
Control symbols leave at once: their wait for a free flit is not held (PRESUMED, log entry 96). -/
def execUnscheduledPacketSend (port : PortId) (gap : BitVec 12) (s : State) : Host.Outcome State Fault Refusal :=
  let x := port.val
  .next (if !s.carriesFrames x then s
    else match (s.link x).uBack with
      | f :: rest =>
        if f.flits ≤ gap.toNat ∧ s.flitsFree x f.flits then
          ((s.addL x Reg.ICL_RPLTX_COUNT 1).modLink x (fun l => { l with uBack := rest })).putFrame x
            { f with hdr := { f.hdr with retry := true } }
        else s
      | [] =>
        match s.nextPacket x gap.toNat with
        | none => s
        | some q => s.startPacket x q)

/-! ### Reception (07 R206, R211, R218, R219, R221) -/

/-- A packet of the next SEQ is taken: the sequence advances; `units` are accepted, and freed at once unless kept. -/
def State.takeUnsch (s : State) (x v units : Nat) (kept : Bool) : State :=
  (s.modLink x (fun l => { l with
    uExp := (l.uExp + 1) % 65536, rcv := l.rcv.put v ((l.rcv.get v 0 + units) % 2 ^ 32) 0,
    buf := if kept then l.buf.put v (l.buf.get v 0 + units) 0 else l.buf })).countGood x true

/-- Route an accepted packet: kept for its command here, queued on its egress port, or discarded without a route. -/
def State.routePacket (s : State) (x : Nat) (f : Frame) : State :=
  match s.route f.hdr.dst with
  | .here => s.toPool x f false false
  | .port y =>
    let g := { f with hdr := { f.hdr with hops := f.hdr.hops - 1, fwded := true, retry := false } }
    (s.toPool x f true false).enqueue y g (some (x, (s.link x).poolId))
  | .miss =>
    let s := (s.toPool x f true true).addF 0x023 Reg.ICH_URT_MISS_COUNT 1
    if f.hdr.asks then s.sendCpl f.hdr 3 else s

/-- An unscheduled packet arrives. In CAL the link carries VC0 alone: a packet of another VC is discarded with no effect (07 Table 8;
DEDUCED, log entry 55). A packet beyond the commitment of its VC is discarded and uses up its SEQ all the same, so that it is not
asked for again (DESIGN CHOICE, log entry 100). -/
def State.receivePacket (s : State) (x : Nat) (l : List Byte) (bad : Bool) : State :=
  if !s.carriesFrames x || ((s.link x).framing && !bad) then s
  else if bad || decide (l.length < frameLen l) || decide (l.length < 32) || !crcHolds (l.take (frameLen l)) then s.frameFailed x
  else
    let l := l.take (frameLen l)
    let f := Frame.parse l
    let s := s.modLink x (fun k => { k with lastGood := s.nt })
    if f.hdr.cls ≠ 1 ∨ (s.linkState x = lnkCAL ∧ f.hdr.ver = 1 ∧ f.hdr.vc ≠ 0) then s
    else
      let lost := f.hdr.dst != s.chipId && f.hdr.hopsLeft == 0
      let badly := f.hdr.ver != 1 || !f.hdr.unschValid l.length f.data || lost
      let s := if badly then s.malformed x else s
      if f.hdr.seq ≠ (s.link x).uExp then s.nakUnsch x
      else
        let v := f.hdr.vc
        let k := s.link x
        if badly then (s.takeUnsch x v f.units false).grant x
        else if (k.lim.get v 0 + 2 ^ 32 - k.rcv.get v 0) % 2 ^ 32 < f.units then
          let s := (s.linkCount x Reg.ICL_CREDOVF_COUNT Reg.ICL_ERR_CREDOVF).raiseLink x 0x1021 openData
          s.takeUnsch x v 0 false
        else ((s.takeUnsch x v f.units true).routePacket x f).grant x

def execUnscheduledPacketReceive (port : PortId) (bytes : List Byte) (bad : Bool) (s : State) :
    Host.Outcome State Fault Refusal :=
  .next (s.receivePacket port.val bytes bad)

end Sys2Proof.Machine
end

