-- ==== Sys2Proof/Machine/Scalar.lean ====
section
/-! DEFINITION. The sequencer and scalar rows (03 R63 to R68, 04 R102 to R112). -/

namespace Sys2Proof.Machine

/-- Run the beats of a tile up to the next due beat of an operation in flight of the kind `due` picks out; `due` is given
the operation and the tile's beat. -/
def State.passTo (s : State) (t : Nat) (due : Flight → Nat → Option Nat) : State :=
  let b := (s.tile t).seq.beat
  match ((s.tile t).flight.filterMap (fun f => due f b)).foldl (fun (m : Option Nat) d =>
      match m with | none => some d | some x => some (min x d)) none with
  | none => s
  | some d => s.passN t (d + 1 - b)

/-- The back-edge of a loop whose last bundle has issued. -/
def State.backEdge (s : State) (t : Nat) : State :=
  if s.tileRuns t then s.modTile t (fun x => { x with seq := x.seq.settle }) else s

/-- One beat of the sequencer of a running tile. -/
def State.sequencerBeat (s : State) (t : Nat) : State :=
  if s.tileRuns t then
    if 0 < (s.tile t).seq.wait then s.heldBeat t
    else ((s.backEdge t).atBeat t (s.tile t).seq.beat).fetchIssue t
  else s

/-- ALU (04 R103, Table 4): the function of Sa and Sb into Sd in the issue beat. -/
def execAlu (t : TileId) (f : AluFn) (sd sa sb : BitVec 5) (s : State) : Host.Outcome State Fault Refusal :=
  .next (s.issueOp t.val ⟨.alu f sd sa sb, .nop, .nop, .nop⟩ 0)

/-- ALUI (04 R103): the function of Sa and the sign-extended immediate into Sd. -/
def execAlui (t : TileId) (f : AluiFn) (sd sa : BitVec 5) (imm : BitVec 14) (s : State) : Host.Outcome State Fault Refusal :=
  .next (s.issueOp t.val ⟨.alui f sd sa imm, .nop, .nop, .nop⟩ 0)

/-- LUI (04 R104): IMM20 << 12 into Sd. -/
def execLui (t : TileId) (sd : BitVec 5) (imm : BitVec 20) (s : State) : Host.Outcome State Fault Refusal :=
  .next (s.issueOp t.val ⟨.lui sd imm, .nop, .nop, .nop⟩ 0)

/-- ASETI (04 R105): Ad = IMM17, zero-extended. -/
def execAseti (t : TileId) (ad : BitVec 4) (imm : BitVec 17) (s : State) : Host.Outcome State Fault Refusal :=
  .next (s.issueOp t.val ⟨.aseti ad imm, .nop, .nop, .nop⟩ 0)

/-- AADDI (04 R105): Ad = As + IMM17, sign-extended. -/
def execAaddi (t : TileId) (ad as : BitVec 4) (imm : BitVec 17) (s : State) : Host.Outcome State Fault Refusal :=
  .next (s.issueOp t.val ⟨.aaddi ad as imm, .nop, .nop, .nop⟩ 0)

/-- AADDS (04 R105): Ad = As + Sx. -/
def execAadds (t : TileId) (ad as : BitVec 4) (sx : BitVec 5) (s : State) : Host.Outcome State Fault Refusal :=
  .next (s.issueOp t.val ⟨.aadds ad as sx, .nop, .nop, .nop⟩ 0)

/-- AFROMS (04 R105): Ad = Sx. -/
def execAfroms (t : TileId) (ad : BitVec 4) (sx : BitVec 5) (s : State) : Host.Outcome State Fault Refusal :=
  .next (s.issueOp t.val ⟨.afroms ad sx, .nop, .nop, .nop⟩ 0)

/-- ATOS (04 R105): Sx = As. -/
def execAtos (t : TileId) (as : BitVec 4) (sx : BitVec 5) (s : State) : Host.Outcome State Fault Refusal :=
  .next (s.issueOp t.val ⟨.atos as sx, .nop, .nop, .nop⟩ 0)

/-- PAND (04 R106, Table 6). -/
def execPand (t : TileId) (pd pa pb : BitVec 3) (s : State) : Host.Outcome State Fault Refusal :=
  .next (s.issueOp t.val ⟨.pop .pand pd pa pb, .nop, .nop, .nop⟩ 0)

/-- POR (04 R106, Table 6). -/
def execPor (t : TileId) (pd pa pb : BitVec 3) (s : State) : Host.Outcome State Fault Refusal :=
  .next (s.issueOp t.val ⟨.pop .por pd pa pb, .nop, .nop, .nop⟩ 0)

/-- PXOR (04 R106, Table 6). -/
def execPxor (t : TileId) (pd pa pb : BitVec 3) (s : State) : Host.Outcome State Fault Refusal :=
  .next (s.issueOp t.val ⟨.pop .pxor pd pa pb, .nop, .nop, .nop⟩ 0)

/-- PANDN (04 R106, Table 6). -/
def execPandn (t : TileId) (pd pa pb : BitVec 3) (s : State) : Host.Outcome State Fault Refusal :=
  .next (s.issueOp t.val ⟨.pop .pandn pd pa pb, .nop, .nop, .nop⟩ 0)

/-- PFROMS (04 R106): bits [31:0] from Sa, [63:32] from Sb. -/
def execPfroms (t : TileId) (pd : BitVec 3) (sa sb : BitVec 5) (s : State) : Host.Outcome State Fault Refusal :=
  .next (s.issueOp t.val ⟨.pfroms pd sa sb, .nop, .nop, .nop⟩ 0)

/-- PFIRST (04 R106): bit i set for every i < Sa. -/
def execPfirst (t : TileId) (pd : BitVec 3) (sa : BitVec 5) (s : State) : Host.Outcome State Fault Refusal :=
  .next (s.issueOp t.val ⟨.pfirst pd sa, .nop, .nop, .nop⟩ 0)

/-- PTOSLO (04 R106): Pa[31:0] into an S register. -/
def execPtoslo (t : TileId) (pa : BitVec 3) (sd : BitVec 5) (s : State) : Host.Outcome State Fault Refusal :=
  .next (s.issueOp t.val ⟨.ptos false pa sd, .nop, .nop, .nop⟩ 0)

/-- PTOSHI (04 R106): Pa[63:32] into an S register. -/
def execPtoshi (t : TileId) (pa : BitVec 3) (sd : BitVec 5) (s : State) : Host.Outcome State Fault Refusal :=
  .next (s.issueOp t.val ⟨.ptos true pa sd, .nop, .nop, .nop⟩ 0)

/-- LD (04 R107, 03 R68): one narrow read in beat issue + 1; the S register follows in SCALAR_LOAD_WRITEBACK. -/
def execLd (t : TileId) (sd : BitVec 5) (h : BitVec 6) (an : BitVec 4) (pi : Bool) (imm : BitVec 12) (s : State) : Host.Outcome State Fault Refusal :=
  .next (s.issueOp t.val ⟨.ld sd h an pi imm, .nop, .nop, .nop⟩ 1)

/-- In beat issue + 2 a scalar load writes its S register (03 R68). -/
def execScalarLoadWriteback (t : TileId) (s : State) : Host.Outcome State Fault Refusal :=
  .next (s.passTo t.val (fun f _ => match f with | .ld iss _ _ _ => some (iss + 2) | _ => none))

/-- ST (04 R107, 03 R68): one narrow write in beat issue + 1. -/
def execSt (t : TileId) (ss : BitVec 5) (h : BitVec 6) (an : BitVec 4) (pi : Bool) (imm : BitVec 12) (s : State) : Host.Outcome State Fault Refusal :=
  .next (s.issueOp t.val ⟨.st ss h an pi imm, .nop, .nop, .nop⟩ 1)

/-- MCSET (04 R109): one field of an MC register in the issue beat. -/
def execMcset (t : TileId) (mc : BitVec 3) (field : McField) (src : McSrc) (s : State) : Host.Outcome State Fault Refusal :=
  .next (s.issueOp t.val ⟨.mcset mc field src, .nop, .nop, .nop⟩ 0)

/-- DNSET (04 R112): a DN register from an immediate that holds the value less 1. -/
def execDnset (t : TileId) (dn : BitVec 4) (v : BitVec 16) (s : State) : Host.Outcome State Fault Refusal :=
  .next (s.issueOp t.val ⟨.dnset dn v, .nop, .nop, .nop⟩ 0)

/-- WAIT (03 R64): issue is held for n beats after the bundle; the field holds n − 1. -/
def execWait (t : TileId) (n : BitVec 16) (s : State) : Host.Outcome State Fault Refusal :=
  .next (s.issueOp t.val ⟨.wait n, .nop, .nop, .nop⟩ 0)

/-- The beats a WAIT holds have passed (03 R64). -/
def execWaitExpiry (t : TileId) (s : State) : Host.Outcome State Fault Refusal :=
  .next (State.passBeats t.val (fun s => decide (0 < (s.tile t.val).seq.wait)) ((s.tile t.val).seq.wait) s)

/-- LOOP (03 R65): opens a counted loop; the fields hold L − 1 and C − 1. -/
def execLoop (t : TileId) (l : BitVec 12) (c : BitVec 16) (s : State) : Host.Outcome State Fault Refusal :=
  .next (s.issueOp t.val ⟨.loop l c, .nop, .nop, .nop⟩ 0)

/-- After the last bundle of a body the first follows, or the loop is left (03 R65). -/
def execLoopBackEdge (t : TileId) (s : State) : Host.Outcome State Fault Refusal :=
  .next (s.backEdge t.val)

/-- END (03 R66): ends the stream of the round in beat ROUND_LEN − 1; any other beat is a round-length mismatch. -/
def execEndOp (t : TileId) (s : State) : Host.Outcome State Fault Refusal :=
  .next (s.issueOp t.val ⟨.endOp, .nop, .nop, .nop⟩ 0)

/-- RDBEAT (04 R108, Table 7). -/
def execRdbeat (t : TileId) (sd : BitVec 5) (s : State) : Host.Outcome State Fault Refusal :=
  .next (s.issueOp t.val ⟨.sys .rdbeat sd, .nop, .nop, .nop⟩ 0)

/-- RDROUND (04 R108, Table 7). -/
def execRdround (t : TileId) (sd : BitVec 5) (s : State) : Host.Outcome State Fault Refusal :=
  .next (s.issueOp t.val ⟨.sys .rdround sd, .nop, .nop, .nop⟩ 0)

/-- RDGTILE (04 R108, Table 7). -/
def execRdgtile (t : TileId) (sd : BitVec 5) (s : State) : Host.Outcome State Fault Refusal :=
  .next (s.issueOp t.val ⟨.sys .rdgtile sd, .nop, .nop, .nop⟩ 0)

/-- RDSTEPLO (04 R108, Table 7). -/
def execRdsteplo (t : TileId) (sd : BitVec 5) (s : State) : Host.Outcome State Fault Refusal :=
  .next (s.issueOp t.val ⟨.sys .rdsteplo sd, .nop, .nop, .nop⟩ 0)

/-- RDSTEPHI (04 R108, Table 7). -/
def execRdstephi (t : TileId) (sd : BitVec 5) (s : State) : Host.Outcome State Fault Refusal :=
  .next (s.issueOp t.val ⟨.sys .rdstephi sd, .nop, .nop, .nop⟩ 0)

/-- RDDROPS (04 R108, Table 7). -/
def execRddrops (t : TileId) (sd : BitVec 5) (s : State) : Host.Outcome State Fault Refusal :=
  .next (s.issueOp t.val ⟨.sys .rddrops sd, .nop, .nop, .nop⟩ 0)

/-- One beat of the sequencer (03 R63): the bundle at the PC is fetched and issued, or a beat of a WAIT passes. -/
def execBundleIssue (t : TileId) (s : State) : Host.Outcome State Fault Refusal :=
  .next (s.sequencerBeat t.val)

end Sys2Proof.Machine
end

