-- ==== Sys2Proof/Machine/Scrub.lean ====
section
/-! DEFINITION. The slot wheel, the scrubber, the clear engine and upsets of stored bits (05 R141, R142, R145, R151 to
R158; 10 R311). -/

namespace Sys2Proof.Machine

/-! ### Port uses -/

/-- A bank group is claimed in beat b by a scheduled access, of an engine, of the interchange or of a host run, or by an earlier
port use of the beat (05 R145). -/
def State.bgBusy (s : State) (t b bg : Nat) : Bool :=
  let accs := if s.seqState t = seqRUNNING then
    (((s.tile t).flight.zipIdx).map (fun f => flightAccesses f.2 b f.1)).flatten else []
  let cl := (checkHandles s t b accs).1
  ((fates s t b cl).any (fun e => e.2 == .proceeds && bankGroup e.1.p == bg)) || (s.fabHolders t b []).any (fun a => s.fabGroup a == bg) ||
    (s.tile t).claims.any (fun c => c.1 == b && c.2.1 == bg)

/-! ### Reads and writes of the scrubber -/

/-- A valid, well-formed Class W handle that covers a unit (05 R152). -/
def State.coverW (s : State) (t unit : Nat) : Option (Nat × Handle) :=
  ((List.range 64).map (fun h => (h, s.handle t h))).find? (fun e =>
    e.2.valid && !e.2.closed && !e.2.malformed && e.2.classW && decide (e.2.base ≤ unit) && decide (unit < e.2.bound))

/-- The rowsum unit of a unit's sheet (05 R151). -/
def Handle.rowsumUnit (h : Handle) (unit : Nat) : Nat := h.rsum + 8 * (unit / 256 - h.base / 256) + unit % 8

/-- What the scrubber finds in word k of a unit: its data with poison, and whether it is lost. -/
def Tile.scrubWord (x : Tile) (unit k : Nat) : PV 32 × Bool :=
  let c := x.spd.get (32 * unit + k) 0
  match eccRead c with
  | .good => (.ok (c.extractLsb' 0 32), false)
  | .correctable d => (.ok d, false)
  | .poison => (⟨c.extractLsb' 0 32, true⟩, false)
  | .uncorrectable => (⟨c.extractLsb' 0 32, true⟩, true)

/-- Write a word; in Inspector mode its seal is kept (10 R311), else it is 0 (05 R150). -/
def Tile.scrubWrite (x : Tile) (keep : Bool) (unit k : Nat) (v : PV 32) : Tile :=
  let key := 32 * unit + k
  { x with spd := x.spd.put key (storeWord v.v v.p (keep && (x.spd.get key 0).getLsbD 39)) 0 }

/-- Count and queue the corrected words of a unit read by the scrubber, which corrects under a DETECT handle too (DESIGN CHOICE,
log entry 92). -/
def State.scrubCorrect (s : State) (t unit : Nat) : State :=
  (List.range 32).foldl (fun s k =>
    match eccRead ((s.tile t).spd.get (32 * unit + k) 0) with
    | .correctable _ => ((s.addF (pgTIL t) Reg.TIL_SPD_CECNT_COUNT 1).setF (pgTIL t) Reg.TIL_SPD_ERR_CE 1).queueWriteBack
        t unit k
    | .good => s
    | .poison => s
    | .uncorrectable => s) s

/-! ### The four kinds of work (05 R154) -/

/-- One port use, under `code`, for the repair at the head of the queue (05 R153). -/
def State.serveRepair (s : State) (t b code : Nat) : Option State :=
  let pop := fun (s : State) => s.modTile t (fun x => { x with repairs := x.repairs.drop 1 })
  let redo := fun (s : State) (r : Repair) => s.modTile t (fun x => { x with repairs := r :: x.repairs.drop 1 })
  let use := fun (s : State) (u : Nat) => s.claimUse t b (bankGroup u) code
  let keep := s.inspecting t
  match (s.tile t).repairs with
  | [] => none
  | .writeBack u k :: _ =>
    if s.bgBusy t b (bankGroup u) then none
    else
      let s := pop (use s u)
      match eccRead ((s.tile t).spd.get (32 * u + k) 0) with
      | .correctable d => some (s.modTile t (fun x => x.scrubWrite keep u k (.ok d)))
      | .good => some s
      | .poison => some s
      | .uncorrectable => some s
  | .rebuild u w h st row sum touched :: _ =>
    let hd := match s.coverW t u with | some e => e.2 | none => s.handle t h
    let rs := hd.rowsumUnit u
    if st = 0 then
      if s.bgBusy t b (bankGroup u) then none
      else
        let s := use s u
        let x := s.tile t
        let ws := (List.range 32).map (x.scrubWord u)
        if ((ws.zipIdx).any (fun e => e.1.2 && e.2 != w)) then some (((pop s).scrubCorrect t u).unrepairable t u h b)
        else some ((redo s (.rebuild u w h 1 (fillBuf [] 0 (ws.map (·.1))) 0 false)).scrubCorrect t u)
    else if st = 1 then
      if s.bgBusy t b (bankGroup rs) then none
      else
        let s := use s rs
        let (v, lost) := (s.tile t).scrubWord rs (u / 8 % 32)
        if lost then some (((pop s).scrubCorrect t rs).unrepairable t u h b)
        else some ((redo s (.rebuild u w h 2 row v.v touched)).scrubCorrect t rs)
    else if s.bgBusy t b (bankGroup u) then none
    else if touched then some ((pop (use s u)).unrepairable t u h b)
    else
      let others := (List.range 32).foldl (fun (a : Word) k => if k = w then a else a ^^^ (row.get k (.zero 32)).v) sum
      let s := (pop (use s u)).modTile t (fun x =>
        (List.range 32).foldl (fun x k => x.scrubWrite keep u k (if k = w then .ok others else row.get k (.zero 32))) x)
      some (s.addF (pgTIL t) Reg.TIL_SPD_REPCNT_COUNT 1)

/-- Take the first unit of a list of ranges that `ok` allows among the next eight of each. -/
def takeUnit (ok : Nat → Bool) : List (Nat × Nat) → Option (Nat × List (Nat × Nat))
  | [] => none
  | (lo, hi) :: l =>
    match (List.range 8).find? (fun k => decide (lo + k < hi) && ok (lo + k)) with
    | some k =>
      let keep := fun (r : Nat × Nat) => if r.1 < r.2 then [r] else []
      some (lo + k, keep (lo, lo + k) ++ keep (lo + k + 1, hi) ++ l)
    | none => (takeUnit ok l).map (fun r => (r.1, (lo, hi) :: r.2))

/-- Ranges in rising order with what they share counted once. -/
def mergeRanges (l : List (Nat × Nat)) : List (Nat × Nat) :=
  ((sortBy (fun (a d : Nat × Nat) => decide (d.1 < a.1)) l).foldl (fun (a : List (Nat × Nat) × Nat) r =>
    (if max a.2 r.1 < r.2 then a.1 ++ [(max a.2 r.1, r.2)] else a.1, max a.2 r.2)) ([], 0)).1

/-- Units left to clear, each counted once. -/
def Tile.clearLeft (x : Tile) : Nat := (mergeRanges (x.clear.flatMap (·.ranges))).foldl (fun n r => n + (r.2 - r.1)) 0

/-- Clear one unit: data 0, check bits valid, seal 0, and the sheet unsealed (05 R156, R157). -/
def Tile.clearUnit (x : Tile) (u : Nat) : Tile :=
  let x := x.noteWrite u
  { x with spd := x.spd.filter (fun e => e.1 / 32 != u), rv := x.rv.put (sheetOf u) false false }

/-- Clear every unit of some ranges, with what `Tile.noteWrite` does for each. -/
def Tile.clearRanges (x : Tile) (l : List (Nat × Nat)) : Tile :=
  let inside := fun (u : Nat) => l.any (fun r => decide (r.1 ≤ u) && decide (u < r.2))
  { x with
    spd := x.spd.filter (fun e => !inside (e.1 / 32)), rv := x.rv.filter (fun e => !(List.range 32).any (fun i => inside (sheetRow e.1 i)))
    repairs := (x.repairs.filter (fun r => match r with | .writeBack u _ => !inside u | .rebuild .. => true)).map
      (fun r => match r with
        | .rebuild u w h st row sum _ => if inside u ∧ 0 < st then .rebuild u w h st row sum true else r
        | .writeBack _ _ => r)
    reseal := x.reseal.filter (fun z => !(List.range 32).any (fun i => inside (sheetRow z.sheet i))) }

/-- One port use of the clear engine: tenants in increasing number, then the other jobs (their place after the tenants' is a
DESIGN CHOICE, log entry 92); a job that is not a tenant's leaves the list when its last unit is cleared. -/
def State.serveClear (s : State) (t b code : Nat) : Option State :=
  let rec go : List ClearJob → Option (Nat × List ClearJob)
    | [] => none
    | j :: l =>
      if j.ranges.isEmpty then (go l).map (fun r => (r.1, j :: r.2))
      else match takeUnit (fun u => !s.bgBusy t b (bankGroup u)) j.ranges with
        | some (u, rs) => some (u, if rs.isEmpty && j.tenant.isNone then l else { j with ranges := rs } :: l)
        | none => (go l).map (fun r => (r.1, j :: r.2))
  match go (s.tile t).clear with
  | none => none
  | some (u, js) => some ((s.claimUse t b (bankGroup u) code).modTile t (fun x => { x.clearUnit u with clear := js }))

/-- The sheets of the tile that reseals wait for: unsealed and under a valid Class W handle (05 R152). -/
def State.unsealedSheets (s : State) (t : Nat) : List (Nat × Handle) :=
  ((List.range 64).map (s.handle t)).foldl (fun (acc : List (Nat × Handle)) h =>
    if h.valid && !h.closed && !h.malformed && h.classW then
      acc ++ (((List.range ((h.bound - h.base) / 32)).map (fun i => h.base / 32 + i)).filter (fun sh =>
        !(s.tile t).rv.get sh false && acc.all (fun e => e.1 != sh))).map (fun sh => (sh, h))
    else acc) []

/-- The reseal that a port use of beat b goes on with: the one in service while a valid Class W handle still covers its sheet
with the same rowsum unit, else the first unsealed sheet whose bank group is free. A sheet whose reseal met an uncorrectable word
comes up again in its turn of that order (DESIGN CHOICE, log entry 92). -/
def State.resealNext (s : State) (t b : Nat) : Option Reseal :=
  let l := s.unsealedSheets t
  let row0 := fun (e : Nat × Handle) => sheetRow e.1 0
  match (s.tile t).reseal.filter (fun z => l.any (fun e => e.1 == z.sheet && e.2.rowsumUnit (row0 e) == z.target)) with
  | some z => some z
  | none => (l.find? (fun e => !s.bgBusy t b (bankGroup (row0 e)))).map (fun e => ⟨e.1, 0, [], e.2.rowsumUnit (row0 e)⟩)

/-- One port use of a reseal: a row read, or the rowsum unit written (05 R152). -/
def State.serveReseal (s : State) (t b code : Nat) : Option State :=
  match s.resealNext t b with
  | none => none
  | some z =>
    let u := sheetRow z.sheet z.rows
    if z.rows < 32 then
      if s.bgBusy t b (bankGroup u) then none
      else
        let s := s.claimUse t b (bankGroup u) code
        let ws := (List.range 32).map ((s.tile t).scrubWord u)
        if ws.any (·.2) then
          some (((s.modTile t (fun x => { x with reseal := none })).setF (pgTIL t) Reg.TIL_SPD_ERR_PATROL 1).raiseTile t 0x1006
            (tierOf u) 0 0xFF 0 openData b)
        else
          let sum := ws.foldl (fun (a : Word) w => a ^^^ w.1.v) 0
          some ((s.modTile t (fun x =>
            { x with reseal := some { z with rows := z.rows + 1, sums := z.sums.put z.rows (.ok sum) (.zero 32) } })).scrubCorrect
              t u)
    else if s.bgBusy t b (bankGroup z.target) then none
    else
      let keep := s.inspecting t
      some ((s.claimUse t b (bankGroup z.target) code).modTile t (fun x =>
        let x := (List.range 32).foldl (fun x k => x.scrubWrite keep z.target k (z.sums.get k (.zero 32))) x
        { x with reseal := none, rv := x.rv.put z.sheet true false }))

/-- Units of bank group g of 24 (05 R137). -/
def bgUnits (g : Nat) : Nat := if g < 8 then 0x1000 else 0x4800

/-- Unit i of bank group g. -/
def bgUnit (g i : Nat) : Nat := (if g < 8 then 0 else if g < 16 then 0x8000 else 0x2C000) + 8 * i + g % 8

/-- One port use of the patrol (05 R154): the next bank group in turn that is free and not yet through its pass. -/
def State.servePatrol (s : State) (t b code : Nat) : Option State :=
  let x := s.tile t
  match ((List.range 24).map (fun k => (x.patrolNext + k) % 24)).find? (fun g =>
      decide (x.patrol.get g 0 < bgUnits g) && !s.bgBusy t b g) with
  | none => none
  | some g =>
    let u := bgUnit g (x.patrol.get g 0)
    let s := (s.claimUse t b g code).modTile t (fun x =>
      { x with patrol := x.patrol.put g (x.patrol.get g 0 + 1) 0, patrolNext := (g + 1) % 24 })
    let s := s.scrubCorrect t u
    let s := (List.range 32).foldl (fun s k =>
      match eccRead ((s.tile t).spd.get (32 * u + k) 0) with
      | .uncorrectable =>
        match (s.tile t).rv.get (sheetOf u) false, s.coverW t u with
        | true, some (h, _) => s.queueRepair t u k h b
        | _, _ => (s.setF (pgTIL t) Reg.TIL_SPD_ERR_PATROL 1).raiseTile t 0x1006 (tierOf u) 0 0xFF 0 openData b
      | .good => s
      | .poison => s
      | .correctable _ => s) s
    if (List.range 24).all (fun g => (s.tile t).patrol.get g 0 == bgUnits g) then
      some ((s.modTile t (fun x => { x with patrol := [] })).addF (pgTIL t) Reg.TIL_SPD_PATROL_PASSES 1)
    else some s

/-- The first of several kinds of work that can be served. -/
def firstSome (s : State) : List (Option State) → State
  | [] => s
  | some s' :: _ => s'
  | none :: l => firstSome s l

/-- An SCR port use: repairs, clear work, reseals, the patrol (05 R154). -/
def execScrubberPortUse (t : TileId) (s : State) : Host.Outcome State Fault Refusal :=
  let b := s.tileBeat t.val
  .next (if s.hasUse t.val cSCR then
    firstSome s [s.serveRepair t.val b cSCR, s.serveClear t.val b cSCR, s.serveReseal t.val b cSCR, s.servePatrol t.val b cSCR] else s)

/-- A CLR port use: clear work, repairs, reseals, the patrol (05 R154). -/
def execClearPortUse (t : TileId) (s : State) : Host.Outcome State Fault Refusal :=
  let b := s.tileBeat t.val
  .next (if s.hasUse t.val cCLR then
    firstSome s [s.serveClear t.val b cCLR, s.serveRepair t.val b cCLR, s.serveReseal t.val b cCLR, s.servePatrol t.val b cCLR] else s)

/-- The handles of a tile that belong to a tenant. -/
def State.tenantHandles (s : State) (t tenant : Nat) : List Nat :=
  (List.range 64).filter (fun h => s.getB (pgTIL t) (Reg.TIL_HND_VALID.at h) &&
    s.getF (pgTIL t) (Reg.TIL_HND_OWNER.at h) == tenant)

/-- Close the tenant's handles on a tile and queue the clearing of their units (05 R156); a tenant whose handles are
closed already is left as it is. -/
def State.closeTenant (s : State) (t tenant : Nat) : State :=
  let hs := s.tenantHandles t tenant
  if hs.isEmpty || (s.tile t).clear.any (fun j => j.tenant == some tenant) then s
  else
    let rs := hs.map (fun h => (s.getF (pgTIL t) (Reg.TIL_HND_BASE.at h), s.getF (pgTIL t) (Reg.TIL_HND_BOUND.at h)))
    let s := s.forEach hs (fun s h => s.setF (pgTIL t) (Reg.TIL_HND_CLOSED.at h) 1)
    s.modTile t (fun x =>
      let (lo, hi) := x.clear.partition (fun j => match j.tenant with | some u => decide (u < tenant) | none => false)
      { x with clear := lo ++ [⟨some tenant, mergeRanges rs, hs⟩] ++ hi })

/-- All of a tenant's units on the tile are written: CLOSED clears and the job ends (05 R156, step 3). -/
def execTenantClearComplete (t : TileId) (tenant : TenantId) (s : State) : Host.Outcome State Fault Refusal :=
  .next (match (s.tile t.val).clear.find? (fun j => j.tenant == some tenant.val) with
    | none => s
    | some j =>
      if j.ranges.isEmpty then
        let s := s.forEach j.closed (fun s h => s.setF (pgTIL t.val) (Reg.TIL_HND_CLOSED.at h) 0)
        s.modTile t.val (fun x => { x with clear := x.clear.filter (fun j => j.tenant != some tenant.val) })
      else s)

/-- Change-list entry i makes its wheel the one in force from beat 8 × START8, when it is valid and starts later than the
last entry that took effect (05 R141). A running tile passes the beats up to it. -/
def execSlotWheelChange (t : TileId) (i : Fin 16) (s : State) : Host.Outcome State Fault Refusal :=
  let pg := pgTIL t.val
  let st := s.getF pg (Reg.TIL_WSEQ_START8.at i.val)
  let x := s.tile t.val
  let later := match x.wheelStart with | none => true | some z => decide (z < st)
  .next (if s.wheelTakes t.val i.val && later then
      let s := s.passN t.val (8 * st - x.seq.beat)
      s.modTile t.val (fun x => { x with wheel := s.getF pg (Reg.TIL_WSEQ_WHEEL.at i.val), wheelStart := some st })
    else s)

/-- The block that reports a fault of a shared structure. -/
def sharedPage : SharedPart → Nat
  | .sds => pgALI
  | .cellRange => pgPH
  | .datapath => pgICH
  | .hif => pgHIF
  | .timebase => pgTMB

/-- An upset inverts bits of a stored word (05 R148, R150), of a control word, or of a copy of a bank pointer; the next use
checks it (10 R290, 11 R331). One of a structure that serves several partitions is found at once, and is of no partition, so that the
chip is reset (10 R289; DESIGN CHOICE, log entry 99). -/
def execStoredBitUpset (u : Upset) (s : State) : Host.Outcome State Fault Refusal :=
  .next (match u with
    | .word t unit word mask =>
      if unit.toNat < spdUnits then
        s.modTile t.val (fun x =>
          let key := 32 * unit.toNat + word.toNat
          { x with spd := x.spd.put key (x.spd.get key 0 ^^^ mask) 0 })
      else s
    | .shared k => s.raiseCode 0x2006 (sharedPage k) 0 none
    | u => { s with upsets := s.upsets ++ [u] })

end Sys2Proof.Machine
end

