-- ==== Sys2Proof/Machine/Window.lean ====
section
/-! DEFINITION. Unscheduled packets for the chip itself: remote windows, responses and messages (06 R195 to R199; 07 R219;
12 R366). -/

namespace Sys2Proof.Machine

/-- The oldest packet of a kind that waits in a port's pool for the chip itself. -/
def State.waiting (s : State) (x kind : Nat) : Option PoolPkt :=
  (s.link x).pool.find? (fun k => !k.fwd && !k.done && k.frame.hdr.kind == kind)

/-- Serve a packet of a kind: one that the chip created for itself first, which then leaves its pool, or the oldest of port x, which stays
in the pool served. `f` is told the port. -/
def State.serve (s : State) (x kind : Nat) (f : State → Nat → PoolPkt → State) : State :=
  match s.waiting selfPort kind with
  | some k => f (s.modLink selfPort (fun l => { l with pool := l.pool.filter (fun z => z.id != k.id) })) selfPort k
  | none =>
    match s.waiting x kind with
    | none => s
    | some k => f (s.poolDone x k.id) x k

/-! ### Outcomes (06 R197) -/

/-- The request is discarded or refused. -/
def State.rwtRefuse (s : State) (h : Hdr) : State :=
  let s := (s.addF 0x023 Reg.RWT_MISS_COUNT 1).setF 0x023 Reg.RWT_STAT_MISS 1
  if h.kind = 1 then s else s.sendCpl h 3

/-- The handle refuses a unit of bytes lo to hi − 1, or belongs to a tenant. -/
def State.windowBarred (s : State) (t hn lo hi right : Nat) : Bool :=
  let hd := s.handle t hn
  decide (hd.owner < 0x200) ||
    (List.range ((hi + 127) / 128 - lo / 128)).any (fun j => hd.check (hd.phys (lo / 128 + j)) right none != .pass)

/-- Take a request of the window class: one for a scope in reset is refused, or discarded and counted when it is posted (12 R366);
else the first case of Table 19 that holds, under the window it matched when it was staged, or a job for the interchange. -/
def State.windowRequest (s : State) (x : Nat) (k : PoolPkt) : State :=
  let h := k.frame.hdr
  let inReset := fun (s : State) => if h.kind = 1 then s.addF pgMGT Reg.MGT_RSTDISC_COUNT 1 else s.sendCpl h 3
  if s.partInReset (h.postcode / 2 ^ 14) then inReset s
  else match k.win with
  | none => s.rwtRefuse h
  | some w =>
    let len := if h.kind = 3 then (k.frame.data.headD 0).toNat else h.len
    let t := w.tile
    let hn := w.handle
    let lo := 128 * w.off + 16 * h.offset
    let s := s.useHandle t hn
    if s.tileInReset t then inReset s
    else if 16 * w.size < 16 * h.offset + len ∨
        (h.kind = 3 ∧ (len = 0 ∨ 2048 < len ∨ len % 16 ≠ 0)) then s.rwtRefuse h
    else if s.windowBarred t hn lo (lo + len) (if h.kind = 3 then rFAR else rFAW) then s.rwtRefuse h
    else if h.kind = 3 ∧ h.poison then s.sendCpl h 4
    else s.modIch (fun z => { z with windows := z.windows ++ [⟨x, k.id, k.frame, t, hn, lo, len, 0, []⟩] })

def execWrite (port : PortId) (s : State) : Host.Outcome State Fault Refusal :=
  .next (s.serve port.val 1 State.windowRequest)

def execWritec (port : PortId) (s : State) : Host.Outcome State Fault Refusal :=
  .next (s.serve port.val 2 State.windowRequest)

def execRead (port : PortId) (s : State) : Host.Outcome State Fault Refusal :=
  .next (s.serve port.val 3 State.windowRequest)

/-! ### Moving the units (06 R198) -/

/-- Units that a request touches. -/
def WinJob.units (j : WinJob) : Nat := (j.byte + j.len + 127) / 128 - j.byte / 128

/-- Word k of handle unit u belongs to the request. -/
def WinJob.holds (j : WinJob) (u k : Nat) : Bool := decide (j.byte / 4 ≤ 32 * u + k) && decide (32 * u + k < (j.byte + j.len) / 4)

/-- The key of the accesses that window requests make by a region port in a beat. -/
def windowKey (t b : Nat) (write : Bool) : Nat := (t / 16 * 2 + (if write then 1 else 0)) * 2 ^ 25 + b

/-- A port use of the tile's present beat, and one of its region port, are left for a window access, beside the scheduled ones
(06 R161, R198). -/
def State.windowPort (s : State) (t : Nat) (write : Bool) : Bool :=
  let b := s.tileBeat t
  s.hasUse t (if write then cWWR else cWRD) &&
    decide ((s.carried (t / 16) b write []).length + s.ich.regUse.get (windowKey t b write) 0 < 8)

/-- Take that port use for a bank group. -/
def State.windowClaim (s : State) (t bg : Nat) (write : Bool) : State :=
  let b := s.tileBeat t
  (s.claimUse t b bg (if write then cWWR else cWRD)).modIch (fun z =>
    { z with regUse := z.regUse.modify (windowKey t b write) 0 (· + 1) })

/-- The next unit of a request is moved in the present beat, if its port uses and its bank group are free: read, or written; a
unit that the request covers in part is read and written back with the words merged, no other write coming between. -/
def State.windowUnit (s : State) (j : WinJob) : Option (WinJob × State) :=
  let t := j.tile
  let b := s.tileBeat t
  let op := j.port * 256 + j.frame.hdr.kind * 16
  let u := j.byte / 128 + j.moved
  let hd := s.handle t j.handle
  let p := hd.phys u
  let rd := j.frame.hdr.kind == 3
  let whole := (List.range 32).all (j.holds u)
  if s.bgBusy t b (bankGroup p) || ((rd || !whole) && !s.windowPort t false) then none
  else
    let s1 := if rd || !whole then s.windowClaim t (bankGroup p) false else s
    if !rd && !s1.windowPort t true then none
    else
      let (old, s) := if rd || !whole then s1.readWords t j.handle u hd p (List.range 32) op b else (badWords 32, s1)
      if rd then some ({ j with moved := j.moved + 1, buf := j.buf ++ old }, s)
      else
        let w := fun k => (⟨j.frame.data.getD (32 * u + k - j.byte / 4) 0, j.frame.hdr.poison⟩ : PV 32)
        let s := (s.windowClaim t (bankGroup p) true).writeWords t j.handle u hd p ((List.range 32).map (fun k =>
          (k, if j.holds u k then w k else old.getD k (.zero 32)))) op b
        some ({ j with moved := j.moved + 1 }, s.injectTile t [(p, wordKey hd.col p 0)])

/-- Units of a request that the present beat lets move, at most n of them. -/
def State.windowUnits (s : State) (j : WinJob) : Nat → WinJob × State
  | 0 => (j, s)
  | n + 1 =>
    match s.windowUnit j with
    | none => (j, s)
    | some (j', s') => State.windowUnits s' j' n

/-- The answer to a request whose units have all been moved (06 R197). -/
def State.windowAnswer (s : State) (j : WinJob) : State :=
  let h := j.frame.hdr
  let served := fun (s : State) => s.addF 0x023 Reg.RWT_SERVED_COUNT 1
  if h.kind = 3 then
    let ws := (j.buf.drop (j.byte % 128 / 4)).take (j.len / 4)
    let f := mkPacket s 4 2 (h.postcode / 2 ^ 14) h.src h.round h.slot h.offset (ws.any (·.p)) (ws.map (·.v))
    (served s).submit f
  else
    let s := if h.poison then s else served s
    if h.kind = 1 then s else s.sendCpl h (if h.poison then 4 else 0)

/-- The oldest accepted request moves the units that the present beat has port uses for; when none is left it is answered. -/
def execWindowAccessComplete (s : State) : Host.Outcome State Fault Refusal :=
  .next (match s.ich.windows with
    | [] => s
    | j :: l =>
      let (j, s) := s.windowUnits j (j.units - j.moved)
      if j.moved < j.units then s.modIch (fun z => { z with windows := j :: l })
      else (s.modIch (fun z => { z with windows := l })).windowAnswer j)

/-! ### Responses and messages (07 R219, Table 6; 12 R366) -/

/-- The request that a response answers: one of its tag, sent to its chip and not yet answered, with its link. -/
def State.requestOf (s : State) (h : Hdr) : Option (Nat × Request) :=
  allPorts.findSome? (fun x => ((s.link x).requests.find? (fun r => r.tag == h.slot && r.dst == h.src && r.answer.isNone)).map
    (fun r => (x, r)))

/-- A response ends the request of its tag that the chip sent; one for a partition in reset is discarded and counted. -/
def State.takeResponse (s : State) (k : PoolPkt) (status : Nat) (data : List Word) : State :=
  let h := k.frame.hdr
  match s.requestOf h with
  | none => s
  | some (x, r) =>
    if s.partInReset (h.postcode / 2 ^ 14) then
      (s.endOperation r.tag).addF pgMGT Reg.MGT_RSTDISC_COUNT 1
    else s.answered x r status data

/-- Data of a READ reaches its requester; with POISON set its status says so. -/
def execRdata (port : PortId) (s : State) : Host.Outcome State Fault Refusal :=
  .next (s.serve port.val 4 (fun s _ k => s.takeResponse k (if k.frame.hdr.poison then 4 else 0) k.frame.data))

/-- A completion reaches its requester. -/
def execCpl (port : PortId) (s : State) : Host.Outcome State Fault Refusal :=
  .next (s.serve port.val 5 (fun s _ k => s.takeResponse k ((k.frame.data.headD 0).toNat % 256) []))

end Sys2Proof.Machine
end

