-- ==== Sys2Proof/Machine/LinkState.lean ====
section
/-! DEFINITION. Link states, loss, calibration and the link exerciser (07 R203, R205, R222 to R231; 15 R417 to R420). -/

namespace Sys2Proof.Machine

/-- The exerciser holds the link out of TRAIN (07 R228). -/
def State.exrHolds (s : State) (x : Nat) : Bool :=
  let m := s.getL x Reg.ICL_EXR_CTL_MODE
  m == 1 || m == 4 || m == 5

/-- A link may leave DOWN or FAILED: enabled, with the chip ID set (13 R384), and not held by the exerciser. -/
def State.mayTrain (s : State) (x : Nat) : Bool :=
  s.getL x Reg.ICL_CTL_EN == 1 && s.getB pgDEV Reg.DEV_CHIP_ID_SET && !s.exrHolds x

/-- A signal on a link in DOWN starts training (07 Table 8). -/
def execSignalDetect (port : PortId) (s : State) : Host.Outcome State Fault Refusal :=
  .next (if s.linkState port.val = lnkDOWN ∧ s.mayTrain port.val then s.startTraining port.val else s)

/-! ### Wiring (15 R417, R418, R420) -/

/-- The peer of a port agrees with the wiring rules. -/
def State.wiredRight (s : State) (x chip port : Nat) : Bool :=
  let c := s.chipId
  let b := chipBoard c
  let p := chipPos c
  chip != c &&
    (if x < 15 then
      let q := if x < p then x else x + 1
      chip == chipRack c * 128 + b * 16 + q && port == boardPortTo q p
    else if x < 22 then
      let b' := if x - 15 < b then x - 15 else x - 14
      chip == chipRack c * 128 + b' * 16 + p && port == trunkTo b' b
    else chipPos chip == p && chipRack chip != chipRack c && decide (22 ≤ port) && decide (port ≤ 46))

/-- In mode 0x1 a link that is DOWN or FAILED sends its pattern on the lanes (07 R228). -/
def State.sendPattern (s : State) (x : Nat) : State :=
  if s.getL x Reg.ICL_EXR_CTL_MODE = 1 ∧ (s.linkState x = lnkDOWN ∨ s.linkState x = lnkFAILED) then
    s.emit (.pattern x (s.getL x Reg.ICL_EXR_CTL_PAT))
  else s

/-- MGT_BOOT.LINKS: every enabled link has left DOWN, TRAIN and CAL for UP or FAILED (12 Table 11; a link in HOLD has been UP,
DEDUCED, log entry 25). -/
def State.noteLinks (s : State) : State :=
  if allPorts.all (fun x => s.getL x Reg.ICL_CTL_EN == 0 || s.linkState x == lnkUP || s.linkState x == lnkFAILED ||
      s.linkState x == lnkHOLD) then s.setF pgMGT Reg.MGT_BOOT_LINKS 1 else s

/-- Force DOWN: what the link holds is discarded as in DROP. -/
def State.forceDown (s : State) (x : Nat) : State :=
  if s.linkState x = lnkDOWN then s
  else
    let up := s.linkState x == lnkUP
    let s := (s.modLink x (fun l => { l.dropScheduled.dropTime with train := none })).dropUnscheduled x
    let s := if up then s.setL x Reg.ICL_STATE_ATTEMPTS 0 else s
    (((s.setL x Reg.ICL_STATE_SCHED 0).setLinkState x lnkDOWN).leaveParent x).sendPattern x

/-- The Clerk clears EN on a miswired port. -/
def State.disablePort (s : State) (x : Nat) : State := ((s.setL x Reg.ICL_CTL_EN 0).forceDown x).noteLinks

/-- Training writes the equaliser taps of every lane that is not FIXED; the taps are the device's (07 R231). -/
def State.trainTaps (s : State) (x : Nat) : State :=
  let at0 := 0x800 + 0x80 * linkSub x
  let pg := linkPage x
  s.forEach (List.range 8) (fun s lane =>
    let f := fun (r : Fld) => (r.at lane).shift at0
    if s.getB pg (f Reg.ICL_TXFFE_FIXED) then s
    else
      s.forEach ([Reg.ICL_TXFFE_PRE1, Reg.ICL_TXFFE_MAIN, Reg.ICL_TXFFE_POST1] ++
        (if x < 15 then [Reg.ICL_TXFFE_PRE2, Reg.ICL_TXFFE_POST2] else [])) (fun s r =>
          let (v, s) := s.freeBits 6
          s.setF pg (f r) v))

/-- Lanes, FEC lock and TRAIN symbols agree: the link enters CAL, its credits are granted, the Clerk compares its peer
with the wiring rules, and the first calibration trial starts (07 R222, R227; 15 R420). A link in HOLD trains without leaving HOLD. -/
def execTrainComplete (port : PortId) (s : State) : Host.Outcome State Fault Refusal :=
  let x := port.val
  .next (match (s.link x).train with
    | none => s
    | some t =>
      let begin := fun (s : State) => (s.trainTaps x).modLink x (fun l =>
        { l with latMax := 0, rplMax := 0, latTrials := 0, rplTrials := 0, badRun := 0, framing := false, rxLeft := 0,
                 rxWait := false, peerLock := false, calSent := none, calT3 := none })
      if s.linkState x = lnkTRAIN then
        let s := (begin s).setLinkState x lnkCAL
        let s := s.grant x
        if s.mgmt.clerkUp && !s.wiredRight x t.chip t.port then s.disablePort x else s.startTrial x
      else if s.linkState x = lnkHOLD then (begin s).startTrial x
      else s)

/-- 200 ms without agreement: the device tries again, and after three attempts the link is FAILED (07 Table 8). -/
def execTrainAttemptTimeout (port : PortId) (s : State) : Host.Outcome State Fault Refusal :=
  let x := port.val
  .next (if s.linkState x = lnkTRAIN then
    let s := s.atLeast ((s.link x).stateNt + 200000000 * nsUnit)
    if 3 ≤ (s.link x).tries then
      (((s.setL x Reg.ICL_STATE_CAUSE 6).setLinkState x lnkFAILED).noteLinks).sendPattern x
    else s.enterTrain x
  else s)

/-- A kept measurement, in 1/256 ns, as the ledger holds it: rounded up to whole ns, and 1 added (07 R227). -/
def ledgerNs (v : Nat) : Nat := (v + 255) / 256 + 1

/-- The measurements are complete: the ledger is written and the link enters UP. The scheduled sequence space starts at 0;
after HOLD the unscheduled one continues, and what the peer has not received is sent again (07 R223, R227). -/
def execCalibrationComplete (port : PortId) (s : State) : Host.Outcome State Fault Refusal :=
  let x := port.val
  let l := s.link x
  .next (if (s.linkState x = lnkCAL ∨ s.linkState x = lnkHOLD) ∧ 1024 ≤ l.latTrials ∧ 1024 ≤ l.rplTrials then
    let held := s.linkState x = lnkHOLD
    let s := (s.setL x Reg.ICL_LEDGER1_LAT_NS (ledgerNs l.latMax)).setL x Reg.ICL_LEDGER1_RPL_NS (ledgerNs l.rplMax)
    let s := (s.setLinkState x lnkUP).modLink x (fun l =>
      let next := match l.train with | some t => t.next | none => 0
      let u := l.uBuf.filter (fun f => decide (seqDiff f.hdr.seq next < 32768))
      let l := { l.dropScheduled with lossNt := none, ackSNt := s.nt, ackUNt := s.nt, lastGood := s.nt }
      if held then { l with uBuf := u, uBack := u } else l)
    (s.grant x).noteLinks
  else s)

/-! ### Loss (07 R203, R205, R223, R226) -/

def execSignalLoss (port : PortId) (s : State) : Host.Outcome State Fault Refusal := .next (s.declareLoss port.val 1)

def execFecLockLoss (port : PortId) (s : State) : Host.Outcome State Fault Refusal := .next (s.declareLoss port.val 2)

/-- ICL_LOSS_NS in effect (07 R226). -/
def State.lossNs (s : State) (x : Nat) : Nat := max 1000 (min 50000 (s.getL x Reg.ICL_LOSS_NS_NS))

/-- No good frame or idle flit for ICL_LOSS_NS. -/
def execLinkSilenceTimeout (port : PortId) (s : State) : Host.Outcome State Fault Refusal :=
  let x := port.val
  .next (if s.linkState x = lnkUP then (s.atLeast ((s.link x).lastGood + s.lossNs x * nsUnit)).declareLoss x 3 else s)

/-- A trunk chiplet loses a wavelength of its laser input: that lane fails on its four sub-trunks (07 R203). -/
def execLaserInputLoss (tp _lane : Fin 8) (s : State) : Host.Outcome State Fault Refusal :=
  .next (s.forEach [0, 1, 2, 3] (fun s u => s.declareLoss (15 + 4 * tp.val + u) 5))

/-- The grace time of HOLD ends: the link acts as in DROP (07 R223). -/
def execHoldGraceExpiry (port : PortId) (s : State) : Host.Outcome State Fault Refusal :=
  let x := port.val
  .next (if s.linkState x = lnkHOLD then
    let from0 := match (s.link x).lossNt with | some t => t | none => s.nt
    ((s.atLeast (from0 + s.getL x Reg.ICL_GRACE_NS_NS * nsUnit)).dropUnscheduled x).startTraining x
  else s)

/-- A codeword is decoded: its corrected symbols and its blocks, or none when it is uncorrectable, with the receiver's scrambler
after it (07 R204, R205). -/
def receiveCodeword (scr : Nat) (rx : List (BitVec 10)) : Option (Nat × List Block) × Nat :=
  let l := rx.map (·.toNat)
  match rsDecode l with
  | some (cw, n) => let r := decodeBlocks scr cw; (some (n, r.1), r.2)
  | none => (none, (decodeBlocks scr l).2)

/-- A link that is not DOWN or FAILED takes a codeword (07 R205, R206, Table 9): corrected and uncorrectable ones are counted, an
idle flit shows the link alive, and a receiver that lost framing resumes at a block whose frame mark is 1. Sixteen uncorrectable ones
in a row lose FEC lock. -/
def State.takeCodeword (s : State) (x : Nat) (rx : List (BitVec 10)) : State :=
  let r := receiveCodeword (s.link x).rxScr rx
  let n := match r.1 with | some z => z.1 | none => 16
  let s := s.modLink x (fun l => { l with rxScr := r.2 })
  let s := if s.linkState x = lnkUP ∧ s.getL x Reg.ICL_EXR_CTL_MODE = 2 then s.addL x (Reg.ICL_EXR_FECH_COUNT.at n) 1 else s
  match r.1 with
  | some (n, bs) =>
    let s := if n = 0 then s else s.addL x Reg.ICL_FECCORR_COUNT 1
    s.modLink x (fun l =>
      let z := Framing.blocks ⟨l.rxLeft, l.rxWait, l.framing, false⟩ bs
      { l with badRun := 0, framing := z.lost, rxLeft := z.left, rxWait := z.wait, lastGood := if z.idle then s.nt else l.lastGood })
  | none =>
    let s := (s.linkCount x Reg.ICL_FECUNC_COUNT Reg.ICL_ERR_FECUNC).modLink x (fun l =>
      { l with badRun := l.badRun + 1, framing := true })
    if 16 ≤ (s.link x).badRun then s.declareLoss x 2 else s

/-- The next bit of a lane pattern and its state: PRBS13Q (x^13 + x^12 + x^2 + x + 1), PRBS31Q, or a bit of SSPRQ, whose state is a
place in its period (07 Table 17; PRESUMED, log entry 96). -/
def patBit (pat z : Nat) : Bool × Nat :=
  if pat = 0 then
    let b := z.testBit 12 ^^ z.testBit 11 ^^ z.testBit 1 ^^ z.testBit 0
    (b, (2 * z + bit b 0) % 2 ^ 13)
  else if pat = 1 then let r := prbsBit (BitVec.ofNat 31 z); (r.1, r.2.toNat)
  else (Config.ssprq z, (z + 1) % 131070)

/-- The next n bits. -/
def patBits (pat z : Nat) : Nat → List Bool × Nat
  | 0 => ([], z)
  | n + 1 => let r := patBit pat z; let t := patBits pat r.2 n; (r.1 :: t.1, t.2)

/-- The bits that differ from the pattern in what the lanes of a codeword bring, every lane beginning at the same place of it, and the
place after it. -/
def laneErrors (pat z : Nat) (rx : List (BitVec 10)) : Nat × Nat :=
  let p := patBits pat z 680
  let lane := fun (k : Nat) => ((rx.zipIdx).filter (fun e => laneOf e.2 == k)).flatMap (fun e => (bitsHigh e.1.toNat 10).reverse)
  (((List.range 8).flatMap (fun k => List.zipWith (fun a b => a != b) (lane k) p.1)).countP id, p.2)

/-- What the receiver takes in near-end loopback: the idle flits that a link in DOWN or FAILED transmits. -/
def idleCodeword (scr : Nat) : List (BitVec 10) :=
  (encodeBlocks scr (List.replicate 20 ⟨true, (0, 0)⟩)).1.map (BitVec.ofNat 10)

/-- The symbols of one codeword arrive on the lanes of a port. In DOWN and FAILED they matter to the exerciser alone (07 R228): in mode
0x1 the bits that differ from the pattern are counted, from a place in it that is free, since the spec gives no phase (DESIGN CHOICE,
log entry 21); in mode 0x5 the stream goes out again unchanged; in mode 0x4 the receiver does not see the lanes, and takes what the
port transmits instead, which in these states is idle flits. -/
def execCodewordReceive (port : PortId) (rx : Vector (BitVec 10) 544) (s : State) : Host.Outcome State Fault Refusal :=
  let x := port.val
  let m := s.getL x Reg.ICL_EXR_CTL_MODE
  .next (if s.linkState x = lnkDOWN ∨ s.linkState x = lnkFAILED then
    if m = 1 then
      let e := laneErrors (s.getL x Reg.ICL_EXR_CTL_PAT) (s.link x).exrPat rx.toList
      (s.addL x Reg.ICL_EXR_ERR_COUNT e.1).modLink x (fun l => { l with exrPat := e.2 })
    else if m = 4 then s.takeCodeword x (idleCodeword (s.link x).rxScr)
    else if m = 5 then s.emit (.codeword x rx.toList)
    else s
  else s.takeCodeword x rx.toList)

/-! ### Control (07 R222, R225, R230, R231) -/

/-- ICL_CTL.EN is written; 0 forces DOWN. -/
def execLinkEnable (port : PortId) (en : Bool) (s : State) : Host.Outcome State Fault Refusal :=
  .next (if en then s.setL port.val Reg.ICL_CTL_EN 1 else s.disablePort port.val)

/-- ICL_CTL.RETRAIN: leave FAILED or DOWN for TRAIN. -/
def execRetrain (port : PortId) (s : State) : Host.Outcome State Fault Refusal :=
  let x := port.val
  .next (if (s.linkState x = lnkFAILED ∨ s.linkState x = lnkDOWN) ∧ s.mayTrain x then s.startTraining x else s)

/-- ICL_CTL.HOLDREQ: a HOLD symbol of reason 0x2, and the link acts as if it had lost itself. -/
def execHoldreq (port : PortId) (s : State) : Host.Outcome State Fault Refusal :=
  let x := port.val
  .next (if s.linkState x = lnkUP then (s.sendSym x 7 2 []).declareLoss x 7 else s)

/-- A write to ICL_VC_v, ICL_LOSS_NS or ICL_ELASTIC_MAX, in effect only in DOWN, TRAIN or FAILED (07 R221, R230). -/
def execLinkControlWrite (port : PortId) (r : LinkReg) (v : BitVec 32) (s : State) : Host.Outcome State Fault Refusal :=
  let x := port.val
  let w := v.toNat
  let st := s.linkState x
  .next (if st = lnkDOWN ∨ st = lnkTRAIN ∨ st = lnkFAILED then
    match r with
    | .vc k =>
      let mn := bits w 12 0
      let mx := bits w 28 16
      let others := [0, 1, 2, 3].foldl (fun a j =>
        a + (if j = k.val then mn else s.getL x (Reg.ICL_VC_MIN.at j))) 0
      if 33 ≤ mn ∧ mn ≤ mx ∧ others ≤ 4096 then
        (s.setL x (Reg.ICL_VC_MIN.at k.val) mn).setL x (Reg.ICL_VC_MAX.at k.val) mx
      else s
    | .lossNs => s.setL x Reg.ICL_LOSS_NS_NS (bits w 15 0)
    | .elasticMax => s.setL x Reg.ICL_ELASTIC_MAX_SLOTS (max 1 (min 64 (bits w 6 0)))
  else s)

/-- A write to ICL_TXFFE of a lane, with the expert key open (07 R231, 13 R379). -/
def execTxffeWrite (port : PortId) (lane : Fin 8) (v : BitVec 32) (s : State) : Host.Outcome State Fault Refusal :=
  let x := port.val
  let pg := linkPage x
  let f := fun (r : Fld) => ((r.at lane.val).shift (0x800 + 0x80 * linkSub x), bits v.toNat r.hi r.lo)
  .next (if s.getB pg Reg.BLK_EXPERT_KEY_OPEN then
    s.setFs pg ([f Reg.ICL_TXFFE_FIXED, f Reg.ICL_TXFFE_PRE1, f Reg.ICL_TXFFE_MAIN, f Reg.ICL_TXFFE_POST1] ++
      (if x < 15 then [f Reg.ICL_TXFFE_PRE2, f Reg.ICL_TXFFE_POST2] else []))
  else s)

/-! ### The exerciser (07 R228, R229) -/

/-- The PRBS31 seed in effect: 0 acts as 1. -/
def State.exrSeed (s : State) (x : Nat) : BitVec 31 :=
  BitVec.ofNat 31 (max 1 (s.getL x Reg.ICL_EXR_SEED_SEED))

/-- A write to ICL_EXR_CTL, ignored when it sets a mode while a partition that holds an image leases the port. The stream, the counts
and the place in the lane pattern start anew with any write that takes effect, the place being free (DESIGN CHOICE, log entry 21).
Mode 0x1 in DOWN or FAILED starts its pattern on the lanes. -/
def execExerciserModeWrite (port : PortId) (v : BitVec 32) (s : State) : Host.Outcome State Fault Refusal :=
  let x := port.val
  let w := v.toNat
  .next (if bits w 31 28 ≠ 0 ∧ s.leasedByHolder x then s
  else
    let s := s.forEach [Reg.ICL_EXR_CTL_MODE, Reg.ICL_EXR_CTL_PAT, Reg.ICL_EXR_CTL_INJ, Reg.ICL_EXR_CTL_INJ_EVERY]
      (fun s f => s.setL x f (bits w f.hi f.lo))
    let (place, s) := s.freeBits 31
    (s.modLink x (fun l => { l with exrTx := s.exrSeed x, exrRx := s.exrSeed x, exrMiss := [], exrPat := place, exrCount := 0,
                                    exrNaks := 0, exrInjected := false })).sendPattern x)

/-- The slot in which the exerciser's parcel of slot k leaves: its own, or without SDS the first that no replay took, none beyond the
limit of R217. -/
def State.exrSlot (s : State) (x k : Nat) : Option Nat :=
  let d := if s.sds x then k else freeSlot (fun j => (s.link x).taken.contains (s.exrSlotNt x j)) k 65
  if k + s.getL x Reg.ICL_ELASTIC_MAX_SLOTS < d then none else some d

/-- The generator sends its parcel of a slot, with the chosen fault when one is due, once both ends have time (07 R201, R217, R229,
Table 17). Header fields that R229 does not give are the model's, and so are the 0 bytes of the marker (DESIGN CHOICE, log entry 21). -/
def execExerciserParcelSend (port : PortId) (slot : BitVec 24) (s : State) : Host.Outcome State Fault Refusal :=
  let x := port.val
  let k := slot.toNat
  let first := s.getL x Reg.ICL_EXR_SLOTS_FIRST
  .next (if !s.exercises x ∨ !s.timedLink x ∨ k < first ∨
      (k - first) % max 1 (s.getL x Reg.ICL_EXR_SLOTS_PERIOD) ≠ 0 then s
  else match s.exrSlot x k with
  | none => s.linkCount x Reg.ICL_ELDROP_COUNT Reg.ICL_ERR_ELDROP
  | some d =>
    let s := s.atLeast (s.exrSlotNt x d)
    let l := s.link x
    let every := s.getL x Reg.ICL_EXR_CTL_INJ_EVERY
    let due := if every = 0 then !l.exrInjected else (l.exrCount + 1) % every == 0
    let inj := if due ∧ s.getL x Reg.ICL_EXR_CTL_INJ ≠ 4 then s.getL x Reg.ICL_EXR_CTL_INJ else 0
    let r := prbsWords l.exrTx 128
    let seq := if inj = 3 then (l.sNext + 1) % 65536 else l.sNext
    let h : Hdr :=
      { ver := 1, cls := 0, gen := false, poison := inj == 5, kind := 1, fwded := false, retry := false, last := false,
        manifest := false, postcode := 0, src := s.chipId, dst := s.getL x Reg.ICL_LEDGER0_PEER_CHIP, round := 0,
        slot := k, hops := 0x11, seq := seq, len := 512, offset := 0 }
    let (f, s) := if inj = 2 then (⟨h, r.1⟩, s) else s.injectPoison x ⟨h, r.1⟩
    let s := (s.keepSent x f).modLink x (fun l => { l with
      exrTx := r.2, exrCount := l.exrCount + 1, exrInjected := l.exrInjected || inj != 0,
      taken := if inj = 2 then l.taken else s.exrSlotNt x d :: l.taken })
    let s := s.addL x Reg.ICL_EXR_TX_COUNT 1
    let s := if inj = 1 then s.putWire x (flipBit f.wire (8 * 536)) 536
      else if inj = 2 then s
      else s.putFrame x f
    if k = first then s.sendSym x 8 0 [] else s)

end Sys2Proof.Machine
end

