-- ==== Sys2Proof/Machine/Tenants.lean ====
section
/-! DEFINITION. What the host interface does for tenants whatever the command: interrupts, watermarks, completions,
the Letterbook, queue resets and teardown (09 R270 to R274; 11 R317, R323 to R325, R328 to R332, R335, R337). -/

namespace Sys2Proof.Machine

/-! ### Accessors -/

/-- The enabled tenants. -/
def State.tenantsOn (s : State) : List Nat :=
  if s.hif.vfEnable then (List.range (min 512 s.hif.numVfs)).filter s.tenantOn else []

/-- The enabled tenants of partition p. -/
def State.tenantsOf (s : State) (p : Nat) : List Nat := s.tenantsOn.filter (fun t => s.partOfTenant t == p)

def State.inTeardown (s : State) (t : Nat) : Bool := (s.tenant t).teardown != .none

/-! ### Interrupts (11 R335) -/

/-- A vector of function fn: 0 is the PF, t + 1 the VF of tenant t. -/
def State.vector (s : State) (fn v : Nat) : MsixVec :=
  if fn = 0 then s.hif.pfVectors.get v .reset else (s.tenant (fn - 1)).vectors.get v .reset

def State.modVector (s : State) (fn v : Nat) (f : MsixVec → MsixVec) : State :=
  if fn = 0 then s.modHif (fun h => { h with pfVectors := h.pfVectors.modify v .reset f })
  else s.modTenant (fn - 1) (fun t => { t with vectors := t.vectors.modify v .reset f })

/-- Send an MSI-X message, or leave it pending in a masked vector. A message is a DMA write: none is made while the link is
down (11 R318). -/
def State.msix (s : State) (fn v : Nat) : State :=
  if (s.vector fn v).masked then s.modVector fn v (fun x => { x with pending := true })
  else if s.dmaOk then s.emit (.msix fn v (s.vector fn v).addr (s.vector fn v).data)
  else s

/-- Unmask a vector: a pending message is sent. -/
def State.unmask (s : State) (fn v : Nat) : State :=
  let was := (s.vector fn v).pending
  let s := s.modVector fn v (fun x => { x with masked := false, pending := false })
  if was then s.msix fn v else s

/-- Word k of entry v of a function's MSI-X table: the message's address, its data, and the mask bit (PCIe; PRESUMED, log entry 11). -/
def State.msixWord (s : State) (fn v k : Nat) : Nat :=
  let x := s.vector fn v
  if k = 0 then x.addr % 2 ^ 32 else if k = 1 then x.addr / 2 ^ 32 else if k = 2 then x.data else bit x.masked 0

/-- A write of that word; the low two bits of the address are 0. -/
def State.writeMsix (s : State) (fn v k w : Nat) : State :=
  if k = 0 then s.modVector fn v (fun x => { x with addr := x.addr / 2 ^ 32 * 2 ^ 32 + w / 4 * 4 })
  else if k = 1 then s.modVector fn v (fun x => { x with addr := w * 2 ^ 32 + x.addr % 2 ^ 32 })
  else if k = 2 then s.modVector fn v (fun x => { x with data := w })
  else if w % 2 = 1 then s.modVector fn v (fun x => { x with masked := true })
  else s.unmask fn v

/-- The pending bits of a function's vectors. -/
def State.msixPending (s : State) (fn n : Nat) : Nat := (List.range n).foldl (fun a v => a + bit (s.vector fn v).pending v) 0

/-- The PF's vectors are not moderated. -/
def State.pfInt (s : State) (v : Nat) : State := s.msix 0 v

/-- An event on a vector of tenant t, moderated by its QoS class. -/
def State.vfEvent (s : State) (t v : Nat) : State :=
  let c := s.getT t Reg.IGQ_T_CFG_CLASS
  let hold := s.getF pgHIF (Reg.HIF_QOS_HOLDOFF.at c)
  let count := s.getF pgHIF (Reg.HIF_QOS_COUNT.at c)
  if hold = 0 ∨ count ≤ 1 then s.msix (t + 1) v
  else
    let x := s.vector (t + 1) v
    if count ≤ x.events + 1 then
      (s.modVector (t + 1) v (fun x => { x with events := 0, since := none })).msix (t + 1) v
    else s.modVector (t + 1) v (fun x => { x with events := x.events + 1, since := some (x.since.getD s.nt) })

/-- Bits of VF_INT_STAT, 11 Table 10. -/
def icRES : Nat := 0
def icRDY : Nat := 1
def icHIGH : Nat := 2
def icOVR : Nat := 3
def icSTOP : Nat := 4
def icQRST : Nat := 5
def icUNDR : Nat := 6
def icERR : Nat := 7

/-- Latch a cause of tenant t; when it is enabled, an event on the vector it maps to. -/
def State.cause (s : State) (t c : Nat) : State :=
  let s := s.setV t Reg.VF_INT_STAT_CAUSE (Nat.lor (s.getV t Reg.VF_INT_STAT_CAUSE) (2 ^ c))
  if (s.getV t Reg.VF_INT_EN_CAUSE).testBit c then s.vfEvent t (bits (s.getV t Reg.VF_INT_MAP_VEC) (3 * c + 2) (3 * c)) else s

/-! ### Occupancy, watermarks and INGRDY (11 R321, R329, R330) -/

/-- Descriptors in the filling bank and those being fetched. -/
def Tenant.occ (x : Tenant) : Nat := x.filling.length + x.fetching.length

/-- Cells of a payload. -/
def payloadCells (len : Nat) : Nat := (len + 511) / 512

/-- Cells of tenant t's quota in use: of waiting descriptors, and of gathered ones until their collection goes (11 R323). -/
def State.cellsUsed (s : State) (t : Nat) : Nat :=
  let x := s.tenant t
  (x.filling ++ x.fetching).foldl (fun n d => n + payloadCells d.len) 0 +
    [0, 1, 2, 3].foldl (fun n p => (s.part p).collections.foldl (fun n c => c.entries.foldl (fun n e =>
      if e.tenant = t then n + payloadCells e.desc.len else n) n) n) 0

/-- Descriptor b was accepted before a, or in the same cycle and by an earlier window write (11 R322). -/
def Desc.later (a b : Desc) : Bool := decide (b.nt < a.nt) || (a.nt == b.nt && decide (b.win < a.win))

/-- Show a tenant's state in the registers that copy it (11 R338, R339). -/
def State.showTenant (s : State) (t : Nat) : State :=
  let x := s.tenant t
  let g := fun f => s.getT t f
  let down := bit (x.teardown != .none) 0
  let s := s.setFs (pgIGT t)
    [(Reg.IGQ_T_STAT_TEARDOWN, down), (Reg.IGQ_T_STAT_FULL, bit x.full 0), (Reg.IGQ_T_STAT_OCC, x.occ)]
  s.setFs (pgVF t)
    [(Reg.VF_ID_PART, g Reg.IGQ_T_CFG_PART), (Reg.VF_IGQ_STAT_READY, bit (!x.full) 0),
     (Reg.VF_IGQ_STAT_TEARDOWN, down), (Reg.VF_IGQ_STAT_OCC, x.occ), (Reg.VF_IGQ_WM_HWM, g Reg.IGQ_T_CFG_HWM),
     (Reg.VF_IGQ_WM_LWM, g Reg.IGQ_T_CFG_LWM), (Reg.VF_IGQ_MAXLEN_BYTES, g Reg.IGQ_T_MAXLEN_BYTES),
     (Reg.VF_LEASE_LO, g Reg.IGQ_T_LEASE_LO), (Reg.VF_LEASE_HI, g Reg.IGQ_T_LEASE_HI),
     (Reg.VF_LEASE_SLOTS_COUNT, g Reg.IGQ_T_SLOTS_COUNT)]

/-- The level of INGRDY[g]: the group has an enabled tenant, and each is READY. -/
def State.groupReady (s : State) (g : Nat) : Bool :=
  let l := s.tenantsOn.filter (fun t => s.getT t Reg.IGQ_T_CFG_GROUP == g)
  !l.isEmpty && l.all (fun t => !(s.tenant t).full)

/-- The pins, which follow the tenants' states at once here (11 R330), and the count of teardowns pending. -/
def State.showPins (s : State) : State :=
  let v := [0, 1, 2, 3].foldl (fun n g => n + bit (s.groupReady g) g) 0
  let n := (s.hif.tenants.filter (fun e => e.2.teardown != .none)).length
  ((s.modHif (fun h => { h with ingrdy := v })).setF pgIGQ Reg.IGQ_PINS_INGRDY v).setF pgIGQ Reg.IGQ_TD_PENDING n

/-- READY or FULL after a change of occupancy (11 R329), shown in the registers. -/
def State.watermark (s : State) (t : Nat) : State :=
  let x := s.tenant t
  let s :=
    if !x.full && decide (s.getT t Reg.IGQ_T_CFG_HWM ≤ x.occ) then
      (s.modTenant t (fun x => { x with full := true })).cause t icHIGH
    else if x.full && decide (x.occ ≤ s.getT t Reg.IGQ_T_CFG_LWM) then
      (s.modTenant t (fun x => { x with full := false })).cause t icRDY
    else s
  s.showTenant t

/-- A tenant's occupancy has changed. -/
def State.settleTenant (s : State) (t : Nat) : State := (s.watermark t).showPins

/-! ### Completions (11 R332 to R334) -/

/-- Completion status codes, 11 Table 8. -/
def csOK : Nat := 0
def csTRUNCATED : Nat := 1
def csLEASE : Nat := 2
def csRUNT : Nat := 3
def csOVERSIZE : Nat := 4
def csBADDESC : Nat := 5
def csDMAERR : Nat := 6
def csQRESET : Nat := 7
def csBACKLOG : Nat := 8

/-- The requests of what waits for a result ring: its data and its completion, the 20 B of an entry's device fields. How the data
divides among buffers is not yet known (DESIGN CHOICE, log entry 99). -/
def ResultItem.requests (r : ResultItem) : List (Nat × Nat) := dmaCut 0 r.data.length ++ [(0, 20)]

/-- Item b comes after a new item a of the same round, by BEAT and then entry index (11 R332). -/
def ResultItem.after (a b : ResultItem) : Bool :=
  match a.run, b.run with
  | some x, some y => a.round == b.round && (decide (x.1 < y.1) || (x.1 == y.1 && decide (x.2 < y.2)))
  | _, _ => false

/-- Queue an item for a tenant's ring, in the order of the events and of the runs of one round. -/
def State.queueResult (s : State) (t : Nat) (r : ResultItem) : State :=
  let l := (s.tenant t).results
  let late := l.dropWhile (fun b => !r.after b)
  let s := s.modTenant t (fun x => { x with results := l.takeWhile (fun b => !r.after b) ++ r :: late })
  s.modHif (fun h => { h with writeArb := h.writeArb.add t r.requests (late.flatMap ResultItem.requests).length })

/-- Queue a status-only completion; whether it is dropped is decided when it would be written. -/
def State.complete (s : State) (t status tag round rslot : Nat) (run : Option (Nat × Nat)) : State :=
  s.queueResult t ⟨status, true, tag, round, rslot, [], run⟩

/-- Complete each descriptor of a list: no result frame is concerned, so RSLOT reads 0xFFFF (11 Table 7). -/
def State.completeAll (s : State) (t status round : Nat) (l : List Desc) : State :=
  s.forEach l (fun s d => s.complete t status d.tag round 0xFFFF none)

/-- Complete each descriptor of a list that no collection took and the window had not rejected: the ROUND of such an entry
the spec does not state, so it is free (DESIGN CHOICE, log entry 26). -/
def State.completeUncollected (s : State) (t status : Nat) (l : List Desc) : State :=
  s.forEach l (fun s d =>
    let (w, s) := s.freeBits 32
    s.complete t status d.tag w 0xFFFF none)

/-! ### The Letterbook (09 R270 to R274) -/

/-- The contents of a record but its SEQ and CRC (09 Table 2). -/
structure LbData where
  ty : Nat
  flags : Nat
  tenant : Nat
  nt : Nat
  round : Nat
  aux : Nat
  part : Nat
  prio : Nat
  body : List Byte
  payload : List Byte
  deriving DecidableEq, Repr

/-- The bytes of a record. -/
def LbData.bytes (r : LbData) (seq : Nat) : List Byte :=
  let head := leBytes r.ty 1 ++ leBytes r.flags 1 ++ leBytes r.tenant 2 ++ leBytes r.payload.length 4 ++ leBytes r.nt 8 ++
    leBytes r.round 4 ++ leBytes r.aux 4 ++ leBytes r.part 1 ++ leBytes r.prio 1 ++ leBytes 0 6 ++
    (r.body ++ List.replicate 24 0).take 24 ++ leBytes seq 4
  let pad := (64 - r.payload.length % 64) % 64
  head ++ leBytes (crc32c (head ++ r.payload)).toNat 4 ++ r.payload ++ List.replicate pad 0

/-- Bytes of the record of a frame of LEN bytes. -/
def lbFrameSize (len : Nat) : Nat := 64 + 64 * ((len + 63) / 64)

def LbData.size (r : LbData) : Nat := lbFrameSize r.payload.length

def State.lbSize (s : State) : Nat := ringSize (s.getF pgHIF Reg.HIF_LB_SIZE_LOG2) 16 30

/-- Ring bytes neither held for software nor taken by records under way. -/
def State.lbFree (s : State) : Nat :=
  let under := s.hif.lbWriting.foldl (fun n r => n + r.bytes.length) 0
  s.lbSize - ((s.getF pgHIF Reg.HIF_LB_HEAD_BYTES + under + 2 ^ 32 - s.getF pgHIF Reg.HIF_LB_TAIL_BYTES) % 2 ^ 32)

/-- What is reserved for the records of frames (09 R274). -/
def lbReservations (l : List Desc) : Nat := l.foldl (fun n d => if d.lbRes then n + lbFrameSize d.len else n) 0

/-- The NT of the next collection of partition p, if one is to come. -/
def State.nextCollection (s : State) (p : Nat) : Option Nat :=
  if s.prtState p = prtRUNNING then some (s.part p).nextNt else if s.prtState p = prtLOADED then (s.part p).launchNt else none

/-- A collection still to come, at or before the NT of the tenant's FLR, finds the bank as it was (11 R337). -/
def State.lateBank (s : State) (t : Nat) : Bool :=
  (s.tenant t).teardown == .asked && (s.nextCollection (s.partOfTenant t)).any (fun c => decide (c ≤ (s.tenant t).flrNt))

/-- The reservations of admitted frames. -/
def State.lbReserved (s : State) : Nat :=
  s.hif.tenants.foldl (fun n e =>
    n + lbReservations (e.2.filling ++ e.2.fetching ++ (if s.lateBank e.1 then e.2.held else []))) 0

/-- Partition p is recorded. -/
def State.lbOn (s : State) (p : Nat) : Bool :=
  s.getB pgHIF Reg.HIF_LB_CTL_EN && (s.getF pgHIF Reg.HIF_LB_CTL_PARTS).testBit p

def State.lbComplete (s : State) : Bool := s.getB pgHIF Reg.HIF_LB_CTL_MODE

/-- Put a record under way, with the next SEQ; FLAGS[7] says that its partition replays (09 Table 2). -/
def State.lbPut (s : State) (r : LbData) : State :=
  let r := if s.getB pgHIF (Reg.HIF_RP_CTL_EN.at r.part) then { r with flags := r.flags + 128 } else r
  (s.modHif (fun h => { h with lbSeq := (h.lbSeq + 1) % 2 ^ 32, lbWriting := h.lbWriting ++ [⟨r.bytes h.lbSeq⟩] })).askWrite dmaPF
    r.size

/-- A GAP record (09 Table 3). -/
def LbGap.record (g : LbGap) : LbData :=
  ⟨0x06, 0, 0, g.nt, g.round, g.records, g.part, 0, leBytes g.frames 4, []⟩

/-- Write a record of partition r.part, or lose it: one that does not fit consumes its SEQ and is counted. A GAP record is written
before the first record that fits together with it; one that fits alone is written, and the gap waits (09 R274; DESIGN CHOICE, log entry 99).
`later` is what is reserved beside the admitted frames, for records to be written after it. -/
def State.lbRecord (s : State) (r : LbData) (later : Nat) : State :=
  if !s.lbOn r.part then s
  else
    let room := s.lbFree - (if s.lbComplete then s.lbReserved + later else 0)
    let s := match s.hif.lbGap with
      | none => s
      | some g => if 64 + r.size ≤ room then (s.lbPut g.record).modHif (fun h => { h with lbGap := none }) else s
    if r.size ≤ room then s.lbPut r
    else
      let f := if r.ty = 0x03 then 1 else 0
      let s := s.modHif (fun h => { h with
        lbSeq := (h.lbSeq + 1) % 2 ^ 32,
        lbGap := some (match h.lbGap with
          | none => ⟨r.nt, r.round, r.part, 1, f⟩
          | some g => { g with records := g.records + 1, frames := g.frames + f }) })
      (s.setF pgHIF Reg.HIF_LB_STAT_LOST 1).addF pgHIF Reg.HIF_LB_LOSTCNT_COUNT 1

/-- A frame that a collection of round `round` of partition p gathers (OUTCOME 0) or returns LEASE_EXPIRED (1). -/
structure LbFrame where
  tenant : Nat
  slot : Nat
  outcome : Nat
  desc : Desc
  deriving DecidableEq, Repr

/-- The FRAME records of a collection: each has its reservation, and those of the frames after it stay. -/
def State.lbFrames (s : State) (p round : Nat) : List LbFrame → State
  | [] => s
  | f :: l =>
    (s.lbRecord ⟨0x03, f.outcome, f.tenant, f.desc.nt / nsUnit, round, f.slot, p, f.desc.prio, [], f.desc.payload⟩
      (lbReservations (l.map (·.desc)))).lbFrames p round l

/-- Space for a frame's record is reserved when it is admitted (09 R274): whether there is room, and whether it is needed. -/
def State.lbReserves (s : State) (p : Nat) : Bool := s.lbOn p && s.lbComplete

def State.lbRoom (s : State) (len : Nat) : Bool := decide (lbFrameSize len + s.lbReserved + 4096 ≤ s.lbFree)

/-! ### Queue resets (11 R328, R331) -/

/-- Entries of tenant t gathered and not yet fully distributed are removed; with `undr` the tenant sees it. -/
def State.removeGathered (s : State) (t : Nat) (undr : Bool) : State :=
  s.forEach [0, 1, 2, 3] (fun s p => s.modPart p (fun x => { x with
    collections := x.collections.map (fun c => { c with
      entries := c.entries.map (fun e =>
        if e.tenant = t then { e with removed := true, undr := e.undr || undr } else e) }) }))

/-- Complete every waiting descriptor of a tenant with QRESET and empty its queue (11 R331; 12 R365). -/
def State.queueReset (s : State) (t : Nat) : State :=
  let x := s.tenant t
  let s := s.completeUncollected t csQRESET (x.filling ++ x.fetching)
  let s := (s.modTenant t (fun x => { x with filling := [], fetching := [] })).removeGathered t true
  ((s.setV t Reg.VF_IGQ_STAT_QRST 1).cause t icQRST).settleTenant t

/-- The two copies of tenant t's bank pointers are compared, as every use of them does; a mismatch resets its queue (11 R331). -/
def State.usePointers (s : State) (t : Nat) : Bool × State :=
  if s.upsets.any (upPointer t) then
    let i := s.incident 0x3008 pgIGQ 0 (some (s.partOfTenant t))
    (false, ((s.rewriteControl (upPointer t)).queueReset t).raise { i with tenant := some t })
  else (true, s)

/-! ### Teardown (11 R337) -/

/-- The lease is revoked, and the tenant's handles close on the tiles of its partition and begin clearing (05 R156). -/
def State.teardownEffect (s : State) (t : Nat) : State :=
  if (s.tenant t).teardown = .asked then
    let s := s.set64 (pgIGT t) Reg.IGQ_T_LEASE_LO Reg.IGQ_T_LEASE_HI 0
    let s := s.forEach ((List.range 256).filter (fun k => s.partOfTile k == some (s.partOfTenant t))) (fun s k =>
      s.closeTenant k t)
    (s.modTenant t (fun x => { x with teardown := .clearing })).showTenant t
  else s

/-- Teardowns asked for before an NT take effect at a round start or replay start of the tenants' partition. -/
def State.teardowns (s : State) (p before : Nat) : State :=
  s.forEach ((s.hif.tenants.filter (fun e =>
      e.2.teardown == .asked && s.partOfTenant e.1 == p && decide (e.2.flrNt < before))).map (·.1))
    (fun s t => s.teardownEffect t)

/-- Every register of a virtual function returns to its reset value. -/
def State.resetVf (s : State) (t : Nat) : State :=
  s.forEach (Reg.vfFields.flatMap (fun f => (List.range f.count).map f.at)) (fun s f => s.setF (pgVF t) f f.reset)

/-- What the host interface does when an FLR of tenant t's VF arrives. It takes effect at a round start of a running partition, also of
one whose launch has come by then, and at once in the others. -/
def State.flr (s : State) (t : Nat) : State :=
  let x := s.tenant t
  let first := x.teardown == .none
  let s := s.addF pgHIF Reg.HIF_RES_DROP_COUNT x.results.length
  let s := (s.rewriteControl (upPointer t)).removeGathered t false
  let s := s.modTenant t (fun x => { x with
    fetching := [], filling := [], full := false, results := [], vectors := [], ringBad := false,
    teardown := if first then .asked else x.teardown, flrNt := if first then s.nt else x.flrNt,
    held := if first then x.filling else x.held })
  let s := s.modHif (fun h => { h with
    fetchArb := { h.fetchArb with queues := h.fetchArb.queues.erase t },
    writeArb := { h.writeArb with queues := h.writeArb.queues.erase t } })
  let s := ((s.resetVf t).showTenant t).showPins
  let st := s.prtState (s.partOfTenant t)
  if st = prtRUNNING ∨ st = prtHOLDING ∨ s.lateBank t then s else s.teardownEffect t

end Sys2Proof.Machine
end

