-- ==== Sys2Proof/Machine/Jobs.lean ====
section
/-! DEFINITION. Jobs: their chips, districts and governor, and the messages between their Clerks (08 R250, R251; 10 R303, R309; 12
R362). -/

namespace Sys2Proof.Machine

/-! ### Jobs -/

def State.image (s : State) (p : Nat) : Option Image := (s.part p).image

/-- The chips of partition p's job. -/
def State.jobChips (s : State) (p : Nat) : List Nat :=
  match s.image p with | none => [] | some im => im.chips

/-- The chip at the other end of a port. -/
def State.peerChip (s : State) (x : Nat) : Nat := s.getL x Reg.ICL_LEDGER0_PEER_CHIP

/-- The ports in UP whose peer is a chip of partition p's job (10 R294). -/
def State.jobPorts (s : State) (p : Nat) : List Nat :=
  allPorts.filter (fun x => s.linkState x == lnkUP && (s.jobChips p).contains (s.peerChip x))

/-- This chip governs partition p's job (08 R251). -/
def State.governs (s : State) (p : Nat) : Bool :=
  match s.image p with
  | none => false
  | some im => im.governor == s.chipId || (s.part p).deputy

/-- The district of a chip in partition p's job (10 R303). -/
def State.districtOf (s : State) (p c : Nat) : Option District :=
  (s.image p).bind (fun im => im.districts.find? (fun d => d.chips.contains c))

/-- The roll call of a hold under LINK has run its 1 ms (10 R308). -/
def State.rollcallOver (s : State) (p : Nat) : Bool :=
  (s.part p).link && (s.part p).rollcall.any (fun t => decide (t + 1000000 * nsUnit ≤ s.nt))

/-- Chip c of the job is counted in the roll call: this chip, or the ORIGIN of a ROLLCALL of the epoch. -/
def State.counted (s : State) (p c : Nat) : Bool :=
  c == s.chipId ||
    (s.part p).notices.any (fun n => n.1 == 3 && n.2.1 == s.getF pgETU (Reg.ETU_RCV_EPOCH.at p) && n.2.2.1 == c)

/-- The job has lost the district of chip c: it was not heard in the roll call, or every chip of it is declared failed. -/
def State.districtGone (s : State) (p c : Nat) : Bool :=
  let x := s.part p
  match s.districtOf p c with
  | none => false
  | some d => (s.rollcallOver p && !x.districts.contains d.number) || d.chips.all (x.lost.contains ·)

/-- The job has lost chip c: it was not counted in the roll call, or is declared failed. -/
def State.chipGone (s : State) (p c : Nat) : Bool :=
  (s.rollcallOver p && !s.counted p c) || (s.part p).lost.contains c

/-- Of the image's governor, its deputy and the job's chips in order, the first that is not gone. -/
def firstLeft (im : Image) (gone : Nat → Bool) : Nat :=
  if !gone im.governor then im.governor
  else if !gone im.deputy then im.deputy
  else (im.chips.filter (fun c => !gone c)).foldl min 65535

/-- The chip that governs partition p's job: the image's governor, its deputy where the governor's district is lost, or where both
districts are the lowest chip of the part that is left (08 R251). -/
def State.governorOf (s : State) (p : Nat) (im : Image) : Nat := firstLeft im (s.districtGone p)

/-- The chip that fails over the lost chips of a part but for `out`: the governor, the deputy, or else the lowest chip (10 R309). -/
def State.keeperOf (s : State) (p : Nat) (im : Image) (out : List Nat) : Nat :=
  firstLeft im (fun c => out.contains c || s.chipGone p c)

/-- This chip is the one. -/
def State.keeps (s : State) (p : Nat) : Bool :=
  match s.image p with
  | none => false
  | some im => s.keeperOf p im [] == s.chipId

/-! ### Messages between Clerks (08 R250; 12 R362, R363) -/

/-- TARGET of a message between Clerks: the spec gives none, and no payload layout (DESIGN CHOICE, log entry 34). -/
def clerkTarget : Nat := 0xC00

/-- The payload of a message between Clerks: each number as 64 bits, filled to 16 B units. -/
def clerkWords (l : List Nat) : List Word :=
  let w := l.flatMap (fun n => [BitVec.ofNat 32 n, BitVec.ofNat 32 (n / 2 ^ 32)])
  w ++ List.replicate ((4 - w.length % 4) % 4) 0

/-- The numbers of a message between Clerks. -/
def clerkNumbers : List Word → List Nat
  | a :: b :: l => (a.toNat + 2 ^ 32 * b.toNat) :: clerkNumbers l
  | _ => []

/-- Send a message to the Clerk of a chip of partition p's job: an unscheduled MSG on VC0 (08 R250). -/
def State.clerkMessage (s : State) (p dst : Nat) (l : List Nat) : State :=
  s.submit (mkPacket s 6 0 p dst clerkTarget 0 0 false (clerkWords l))

/-- Tell the chip that governs partition p's job. -/
def State.tellGovernor (s : State) (p : Nat) (l : List Nat) : State :=
  match s.image p with
  | none => s
  | some im => s.clerkMessage p (s.governorOf p im) l

/-- Tell every other chip of partition p's job. -/
def State.tellJob (s : State) (p : Nat) (l : List Nat) : State :=
  s.forEach ((s.jobChips p).filter (fun c => c != s.chipId)) (fun s c => s.clerkMessage p c l)

/-- The governor has a chip's report that it has partition p loaded and does not run it, or no longer has it. -/
def State.noteLoaded (s : State) (p c : Nat) (on : Bool) : State :=
  let l := s.gov.loaded.filter (fun e => !(e.1 == p && e.2.1 == c))
  { s with gov := { s.gov with loaded := if on then (p, c, s.ns) :: l else l } }

/-- This chip tells the governor of partition p's job so (12 R362). -/
def State.reportLoaded (s : State) (p : Nat) (on : Bool) : State :=
  match s.image p with
  | none => s
  | some im => if s.governorOf p im = s.chipId then s.noteLoaded p s.chipId on else s.tellGovernor p [7, p, bit on 0]

end Sys2Proof.Machine
end

