-- ==== Sys2Proof/Machine/Rounds.lean ====
section
/-! DEFINITION. Round starts, held positions and gear changes (01 R24, R25, R28 to R33; 06 R180, R187 to R191; 07 R212,
R224; 08 R241, R247, R249, R252, R257; 09 R267, R271, R276; 10 R292, R294, R300, R310; 11 R324, R337; 12 R363). -/

namespace Sys2Proof.Machine

/-! ### What a partition holds -/

/-- The tiles of the partition for which the image holds a stream. -/
def State.ownTiles (s : State) (p : Nat) : List Nat :=
  match s.ownSection p with
  | none => []
  | some c => (c.streams.map (·.tile)).filter (fun t => s.partOfTile t == some p)

/-- The partition runs rounds: it is RUNNING or HOLDING. -/
def State.partRuns (s : State) (p : Nat) : Bool := s.prtState p == prtRUNNING || s.prtState p == prtHOLDING

/-- The logical regions present (00 R4). -/
def State.regions (s : State) : List Nat := List.range (s.getF pgDEV Reg.DEV_CAPS_REGIONS)

/-- Each tile of a partition reads a STATE; operations in flight end where `cut` is set. -/
def State.setTiles (s : State) (l : List Nat) (st : Nat) (cut : Bool) : State :=
  s.forEach l (fun s t =>
    (s.setSeqState t st).modTile t (fun x => if cut then { x with flight := [] } else x))

/-- The length of partition p's round at the gear in force. -/
def State.roundNt (s : State) (p : Nat) : Nat := beatsNt s.gear (s.roundLen p)

/-! ### Gear changes (08 R247, R249, R252, R257) -/

def State.rmon (s : State) (r : Nat) : Rmon := s.rmons.get r .reset

def State.modRmon (s : State) (r : Nat) (f : Rmon → Rmon) : State :=
  { s with rmons := s.rmons.put r (f (s.rmon r)) .reset }

/-- The rail a region needs at gear g: V_FL(g) + A (08 R253). -/
def State.railFor (s : State) (r g : Nat) : Nat := s.getF (pgRGN r) (Reg.RGN_VF_MV.at g) + (s.rmon r).offset

/-- The value of a region register that acts: a written one acts from the next measurement (08 R259). -/
def State.rgnValue (s : State) (r : Nat) (f : Fld) : Nat :=
  match (s.rmon r).old.find? (fun e => e.1 == f.key (pgRGN r)) with
  | some e => e.2
  | none => s.getF (pgRGN r) f

/-- The set point that a regulator takes for a wanted voltage: steps of 5 mV, never below it, and never above RGN_VMAX (14 R400, 08 R253;
DESIGN CHOICE, log entry 27). -/
def railStep (mv top : Nat) : Nat := min ((mv + 4) / 5 * 5) (top / 5 * 5)

/-- Put the rail of a region at a set point, held at RGN_VMAX with HEADROOM set where it would need more (08 R253); the regulator
settles from a change (14 R400). -/
def State.setRail (s : State) (r mv : Nat) : State :=
  let top := s.rgnValue r Reg.RGN_VMAX_MV
  let moves := s.getF (pgRGN r) Reg.RGN_VOLT_MV != railStep mv top
  ((s.setF (pgRGN r) Reg.RGN_VOLT_MV (railStep mv top)).setF (pgRGN r) Reg.RGN_STAT_HEADROOM (bit (decide (top < mv)) 0)).modRmon r
    (fun x => { x with settling := x.settling || moves })

/-- The gear the rails stand for: a faster one armed, from the prelock of its PLLs on (08 R252), or the gear in force. -/
def State.railGear (s : State) : Nat :=
  let g := s.getF pgTMB Reg.TMB_GEAR_NEXT
  if s.getB pgTMB Reg.TMB_GEAR_ARM && s.time.spareGear == some g && decide (g < s.gear) then g else s.gear

/-- A region's rail follows its set point: V_FL + A, or RGN_VMAX while an emergency holds it there, which is until the next gear
change (DESIGN CHOICE, log entry 27). -/
def State.trackRail (s : State) (r : Nat) : State :=
  let need := s.railFor r s.railGear
  s.setRail r (if (s.rmon r).held then max need (s.rgnValue r Reg.RGN_VMAX_MV) else need)

/-- A region's slack check at gear g: the slack it measures is its own, a free value; short of the reference, A rises in
steps of 5 mV by what it takes, free too, and RECAL is set (08 R257; DESIGN CHOICE, log entry 27). -/
def State.reverifyRegion (s : State) (g r : Nat) : State :=
  let (slack, s) := s.freeBits 16
  let (more, s) := s.freeBits 12
  let ref := (s.rmon r).reference.getD g 0
  if slack < ref then
    let s := s.modRmon r (fun x => { x with offset := x.offset + 5 * more })
    ((s.setF (pgRGN r) Reg.RGN_STAT_SLACK ref).setF (pgRGN r) Reg.RGN_STAT_RECAL 1).trackRail r
  else s.setF (pgRGN r) Reg.RGN_STAT_SLACK slack

/-- After a change each region repeats its slack check at gear g. -/
def State.reverify (s : State) (g : Nat) : State := s.forEach s.regions (fun s r => s.reverifyRegion g r)

/-- The spare PLLs lock to the armed gear, and for a faster gear each region raises its rail (08 R247, R252). -/
def State.prelock (s : State) : State :=
  let g := s.getF pgTMB Reg.TMB_GEAR_NEXT
  let s := { s with time := { s.time with spareGear := some g } }
  if g < s.gear then s.forEach s.regions (fun s r => s.trackRail r) else s

/-- NEXT becomes the current gear at an NT: PLLs and rails not yet in place come first, so that the frequency never rises before the
rails stand; after it each region lowers its rail for a slower gear and checks its slack again. Each recorded partition that
runs gets its GEAR record (09 Table 3). -/
def State.applyGear (s : State) (at0 : Nat) : State :=
  let old := s.gear
  let g := s.getF pgTMB Reg.TMB_GEAR_NEXT
  let s := if s.time.spareGear = some g then s else s.prelock
  let s := if g < old then s.forEach s.regions (fun s r => s.modRmon r (fun x => { x with settling := false })) else s
  let s := (s.setF pgTMB Reg.TMB_GEAR_CUR g).devSet pgTMB Reg.TMB_GEAR_ARM 0 (at0 / nsUnit)
  let s := { s with time := { s.time with anchor := at0, gearNt := at0, spareGear := none } }
  let s := s.forEach s.regions (fun s r => (s.modRmon r (fun x => { x with held := false })).trackRail r)
  let s := s.reverify g
  s.forEach (allParts.filter s.partRuns) (fun s p =>
    let n := if s.prtState p = prtHOLDING then s.getF pgETU (Reg.ETU_RCV_ABORT_ROUND.at p) else (s.part p).nextRound
    s.lbRecord ⟨0x04, 0, 0, at0 / nsUnit, n, g, p, 0, [], []⟩ 0)

/-- The NT at which an armed change takes effect: the next round start of the running partitions, where that is at or after Tb, or Tb
itself when none runs (08 R249). -/
def State.gearNext (s : State) : Option Nat :=
  if !s.getB pgTMB Reg.TMB_GEAR_ARM then none
  else match allParts.find? s.partRuns with
    | none => some s.gearAt
    | some p => let x := (s.part p).nextNt; if s.gearAt ≤ x then some x else none

/-- An armed change whose NT has come takes effect before what is done next. -/
def State.gearCatch (s : State) : State :=
  match s.gearNext with
  | some x => if x ≤ s.nt then s.applyGear x else s
  | none => s

/-- The armed change takes effect. -/
def execGearChangeEffect (s : State) : Host.Outcome State Fault Refusal :=
  .next (match s.gearNext with | none => s | some x => (s.atLeast x).applyGear x)

/-- During the gear period before Tb the spare PLLs lock to the announced gear. -/
def execBeatPllPrelock (s : State) : Host.Outcome State Fault Refusal :=
  .next (if s.getB pgTMB Reg.TMB_GEAR_ARM then (s.atLeast (s.gearAt - 2 ^ 20 * nsUnit)).prelock else s)

/-- A chip on which no partition runs any more is anchored at the NT of its last gear change (08 R247). -/
def State.reanchor (s : State) : State :=
  if allParts.any s.partRuns then s else { s with time := { s.time with anchor := s.time.gearNt } }

/-! ### Fences (10 R310) -/

/-- The partition stops and holds its state: code 0x3005. -/
def State.fence (s : State) (p : Nat) : State :=
  let s := (s.setPrtState p prtFENCED).setTiles (s.tilesOf p) seqFENCED true
  let s := s.modPart p (fun x => { x with fenceAsked := false })
  ((s.teardowns p (s.nt + 1)).raiseCode 0x3005 pgETU 0 (some p)).reanchor

/-- Holdover has lasted TMB_HOLD_NS at an NT (08 R241). -/
def State.holdoverLong (s : State) (x : Nat) : Bool :=
  match s.time.holdNt with
  | none => false
  | some t => decide (t + s.getF pgTMB Reg.TMB_HOLD_NS_NS * nsUnit ≤ x)

/-! ### Collections (01 R28; 09 R276; 10 R300; 11 R324) -/

/-- The request slots of tenant t in partition p's host run table, increasing. -/
def State.slotsOf (s : State) (p t : Nat) : List Nat :=
  sortBy (fun a b => decide (b < a)) (((s.hif.hostRun.map (fun e => HostRun.ofBits e.2)).filter
    (fun e => e.valid && !e.result && e.part == p && e.tenant == t)).map (·.rslot))

/-- The lease of tenant t, in ns, that a collection at NT c finds: no write received at or after c (11 R324). -/
def State.leaseAt (s : State) (t c : Nat) : Nat :=
  let now := s.get64 (pgIGT t) Reg.IGQ_T_LEASE_LO Reg.IGQ_T_LEASE_HI
  match (s.tenant t).leaseWas with
  | none => now
  | some (at0, old) => if c ≤ at0 then old else now

/-- What the collection of one tenant at NT c, the start of round n, gathers, and the descriptors it returns LEASE_EXPIRED. One that an
FLR at or after c has met already is made on the bank as it was, and what it gathers is removed (11 R337). -/
def State.collectTenant (s : State) (p n t c : Nat) : List Gathered × List Desc × State :=
  let (ok, s) := s.usePointers t
  if !ok then ([], [], s)
  else
    let x := s.tenant t
    let late := x.teardown == .asked && decide (c ≤ x.flrNt)
    let bank := if late then x.held else x.filling
    let held := bank.filter (fun d => decide (d.nt < c))
    let keep := fun (s : State) (l : List Desc) =>
      if late then s else s.modTenant t (fun x => { x with filling := l ++ bank.filter (fun d => decide (c ≤ d.nt)) })
    if s.leaseAt t c * nsUnit ≤ c then
      let s := if late then s.addF pgHIF Reg.HIF_RES_DROP_COUNT held.length else s.completeAll t csLEASE n held
      ([], held, (keep s []).settleTenant t)
    else
      let l := sortBy (fun (a b : Desc) => decide (a.prio < b.prio)) held
      let slots := (s.slotsOf p t).take (s.getT t Reg.IGQ_T_SLOTS_COUNT)
      let got := (slots.zip l).map (fun e => (⟨t, e.1, e.2, late, false⟩ : Gathered))
      (got, [], (keep s (l.drop got.length)).settleTenant t)

/-- Bytes of one replay record (09 Table 2), as they stand in host memory. -/
structure ReplayRec where
  ty : Nat
  outcome : Nat
  tenant : Nat
  len : Nat
  nt : Nat
  round : Nat
  aux : Nat
  prio : Nat
  payload : List Byte
  deriving DecidableEq, Repr

/-- The address of a byte count of partition p's replay ring. -/
def State.replayAddr (s : State) (p at0 : Nat) : Nat :=
  let base := s.get64 pgHIF (Reg.HIF_RP_BASE_LO.at p) (Reg.HIF_RP_BASE_HI.at p)
  base - base % 4096 + at0 % ringSize (s.getF pgHIF (Reg.HIF_RP_SIZE_LOG2.at p)) 16 30

/-- The record at a byte count of partition p's replay ring. -/
def State.replayRec (s : State) (p at0 : Nat) : ReplayRec :=
  let base := s.get64 pgHIF (Reg.HIF_RP_BASE_LO.at p) (Reg.HIF_RP_BASE_HI.at p)
  let base := base - base % 4096
  let size := ringSize (s.getF pgHIF (Reg.HIF_RP_SIZE_LOG2.at p)) 16 30
  let h := s.ringRead base size at0 64
  let n := fun lo hi => leNat (slice h lo hi)
  let len := if n 0 1 = 0x03 then n 4 8 else 0
  { ty := n 0 1, outcome := n 1 2 % 4, tenant := n 2 4, len := len, nt := n 8 16, round := n 16 20, aux := n 20 24,
    prio := n 25 26, payload := s.ringRead base size (at0 + 64) len }

/-- Read the replay ring for the collection of round c (09 R276), where `left` bytes of it are filled from a byte count on: what it
gathers, whether a GAP was met, and the byte count after the COLLECT record, if one was found. A record that runs past them is
none yet. -/
def State.readReplay (s : State) (p c : Nat) : Nat → Nat → Nat → List ReplayRec → Bool → List ReplayRec × Bool × Option Nat
  | 0, _, _, got, gap => (got, gap, none)
  | n + 1, left, at0, got, gap =>
    let r := s.replayRec p at0
    let size := lbFrameSize r.len
    if left < 64 ∨ left < size ∨ ¬ s.dmaOk then (got, gap, none)
    else
      let next := (at0 + size) % 2 ^ 32
      let on := s.readReplay p c n (left - size) next
      if r.ty = 0x06 then on got true
      else if r.round < c then on got gap
      else if r.ty = 0x02 then (got, gap, if r.round = c then some next else none)
      else if r.ty = 0x03 then
        if r.round ≠ c then (got, gap, none) else on (if r.outcome = 0 then got ++ [r] else got) gap
      else on got gap

/-- The frame of a replay record. Its TAG and USER are in no record: the spec states no value, and they are free (log entry
28). -/
def State.replayEntry (s : State) (r : ReplayRec) : Gathered × State :=
  let (tag, s) := s.freeBits 64
  let (user, s) := s.freeBits 320
  (⟨r.tenant, r.aux, ⟨0, r.len, r.prio % 4, tag, leBytes user 40, r.nt * nsUnit, r.payload, false, 0⟩, false, false⟩, s)

/-- A replay underrun: UNDERRUN, code 0x1031 and a fence at the next round start. -/
def State.underrun (s : State) (p : Nat) : State :=
  ((s.setF pgHIF (Reg.HIF_RP_CTL_UNDERRUN.at p) 1).raiseCode 0x1031 pgHIF 0 (some p)).modPart p
    (fun x => { x with fenceAsked := true })

/-- The collection of round c fed from the replay ring (09 R276). -/
def State.collectReplay (s : State) (p c : Nat) : List Gathered × State :=
  let head := s.getF pgHIF (Reg.HIF_RP_HEAD_BYTES.at p)
  let tail := s.getF pgHIF (Reg.HIF_RP_TAIL_BYTES.at p)
  let filled := (head + 2 ^ 32 - tail) % 2 ^ 32
  let (got, gap, stop) := s.readReplay p c (filled / 64 + 1) filled tail [] false
  let read := ((match stop with | none => head | some t => t) + 2 ^ 32 - tail) % 2 ^ 32
  let s := (s.pfTransfer read).dma 0 false (s.replayAddr p tail) read
  let s := match stop with | none => s | some t => s.setF pgHIF (Reg.HIF_RP_TAIL_BYTES.at p) t
  if gap || stop.isNone then ([], s.underrun p)
  else got.foldl (fun (a : List Gathered × State) r => let (g, s) := a.2.replayEntry r; (a.1 ++ [g], s)) ([], s)

/-- The FRAME records of a collection, in the order of acceptance, and its COLLECT record (09 R271). -/
def State.recordCollection (s : State) (p c at0 : Nat) (got : List Gathered) (expired : List (Nat × Desc)) : State :=
  let frames := got.map (fun g => (⟨g.tenant, g.rslot, 0, g.desc⟩ : LbFrame)) ++ expired.map (fun e => ⟨e.1, 0, 1, e.2⟩)
  let s := s.lbFrames p c (sortBy (fun (a b : LbFrame) => a.desc.later b.desc) frames)
  let filled := (got.map (·.rslot)).eraseDups.length
  s.lbRecord ⟨0x02, 0, 0, at0 / nsUnit, c, got.length, p, 0, leBytes expired.length 4 ++ leBytes filled 2, []⟩ 0

/-- The chip's own manifest for the round after the present one, landed valid at once (01 R431). -/
def State.ownManifest (s : State) (p : Nat) : State :=
  match s.entryChip p s.chipId with
  | none => s
  | some e =>
    let run := s.disposition p
    s.modPart p (fun x => { x with manifests := x.manifests ++
      (List.range (manifestParcels e)).map (fun i => ⟨x.nextRound, s.chipId, i, run⟩) })

/-- The collection held at the start of round n at NT `at0`: a new one only if no round n has started since launch; the two
most recent are kept (10 R300). -/
def State.collect (s : State) (p n at0 : Nat) : State :=
  let fresh := match (s.part p).maxRound with | none => true | some m => (m + 1) % 2 ^ 32 == n
  if !fresh then s
  else
    let replay := s.getB pgHIF (Reg.HIF_RP_CTL_EN.at p)
    let (got, expired, s) :=
      if replay then let r := s.collectReplay p n; (r.1, [], r.2)
      else (s.tenantsOf p).foldl (fun (a : List Gathered × List (Nat × Desc) × State) t =>
        let (g, e, s) := a.2.2.collectTenant p n t at0
        (a.1 ++ g, a.2.1 ++ e.map (fun d => (t, d)), s)) ([], [], s)
    let s := s.modPart p (fun x => { x with
      maxRound := some n, collections := (x.collections.filter (fun c => (c.round + 1) % 2 ^ 32 == n)) ++ [⟨n, at0, got⟩],
      delivered := x.delivered.filter (fun d => d.2.1 == n || (d.2.1 + 1) % 2 ^ 32 == n) })
    s.recordCollection p n at0 got expired

/-! ### Generation swaps (06 R187 to R191) -/

/-- Show whether the bank retired by the last swap is still held: live at a kept round start. -/
def State.showHeld (s : State) (p : Nat) : State :=
  let g := s.gen p
  let h := ((s.part p).starts.find? (fun z => z.gen != g)).map (·.gen)
  (s.modPart p (fun x => { x with heldBank := h })).setF pgICH (Reg.ICH_SWAP_HELD.at p) (bit h.isSome 0)

/-- An armed swap whose T has come takes place at the round start at NT `at0`, unless R189 stops it; ICH_CAPT_SLOT then holds PORT 0 and
SLOT 0, which no port or slot stands for (DESIGN CHOICE, log entry 101). The round-start states
kept from here on are those of the last round and of this one. -/
def State.swap (s : State) (p at0 : Nat) : State :=
  if s.swapDue p at0 then
    let s := s.devSet pgICH (Reg.ICH_SWAP_ARM.at p) 0 (at0 / nsUnit)
    if s.swapStopped p at0 then (s.setF pgICH (Reg.ICH_SWAP_ERR.at p) 1).ichFlag Reg.ICH_STAT_SWAPERR p 0 0
    else
      ((s.setF pgICH (Reg.ICH_SWAP_GEN.at p) (1 - s.gen p)).setF pgICH (Reg.ICH_SWAP_DRAINING.at p) 1).modPart p
        (fun x => { x with swapNt := some at0 })
  else s

/-! ### Scheduled traffic resumes (07 R224) -/

/-- The images that lease port x allow for the latencies its ledger holds. -/
def State.ledgerFits (s : State) (x : Nat) : Bool :=
  allParts.all (fun p =>
    if s.holdsImage p && s.leases p x then
      match (s.ownSection p).bind (fun c => c.links.find? (fun b => b.port == x)) with
      | none => false
      | some b =>
        let fits := fun (v : Nat) (o : Option Nat) => match o with | none => true | some m => decide (v ≤ m)
        fits (s.getL x Reg.ICL_LEDGER1_LAT_NS) b.lat && fits (s.getL x Reg.ICL_LEDGER1_RPL_NS) b.rpl
    else true)

/-- Each leased link in UP whose ends have time carries p's scheduled traffic from here if its ledger fits, or else raises code 0x3002 once
(`resumed` holds p + 4 then). -/
def State.resumeLinks (s : State) (p : Nat) : State :=
  s.forEach (allPorts.filter (fun x => s.linkState x == lnkUP && s.leases p x && !(s.link x).resumed.contains p &&
    !(s.link x).resumed.contains (p + 4) && s.timedLink x)) (fun s x =>
    if s.ledgerFits x then
      (s.modLink x (fun l => { l with resumed := p :: l.resumed })).setL x Reg.ICL_STATE_SCHED 1
    else
      ((s.modLink x (fun l => { l with resumed := (p + 4) :: l.resumed })).setL x Reg.ICL_ERR_LEDGER 1).raiseLink x 0x3002 openData)

/-! ### Round starts (01 R24, R25, R31) -/

/-- What a round start ends of the rounds before: cells of the partition's range become EMPTY (06 R180), its replay-buffer
entries of other rounds go (07 R212), staged parcels, marks and the claims of unit accesses end. -/
def State.endRound (s : State) (p n : Nat) : State :=
  let lo := s.getF 0x023 (Reg.ICH_PH_BASE_CELL.at p)
  let hi := s.getF 0x023 (Reg.ICH_PH_LIMIT_CELL.at p)
  let s := s.modIch (fun z => { z with
    cells := z.cells.filter (fun e => !(decide (lo ≤ e.1) && decide (e.1 < hi)))
    staged := z.staged.filter (fun k => k.part != p)
    faulted := z.faulted.filter (fun k => k.1 != p)
    regUse := z.regUse.filter (fun e => !s.ownsRegion p (e.1 / 2 ^ 26)) })
  let s := s.forEach (s.links.map (·.1)) (fun s x => s.modLink x (fun l =>
    let keep := fun (f : Frame) => f.hdr.postcode / 2 ^ 14 != p || f.hdr.round == n
    let b := l.sBuf.filter keep
    { l with sBuf := b, pend := l.pend.filter (fun q => b.any (fun f => f.hdr.seq == q.seq)),
             taken := l.taken.filter (fun t => decide (s.nt ≤ t)) }))
  s.forEach (s.tilesOf p) (fun s t => s.modTile t (fun x => { x with claims := [], made := [], collBeats := [] }))

/-- The round-start state S_n (10 R292). -/
def State.roundState (s : State) (p n : Nat) (runs : Bool) : RoundStart :=
  let ts := s.tilesOf p
  { round := n, tiles := ts.foldl (fun m t => m.put t (s.tile t).arch .reset) [],
    drops := ((ts.map (fun t => (t, s.getF (pgTIL t) Reg.TIL_DISPATCH_DROPS_COUNT,
      s.getF (pgTIL t) Reg.TIL_CKMIS_CNT_COUNT))).filter (fun e => e.2 != (0, 0))),
    step := s.get64 (pgPRT p) Reg.PRT_STEP_LO Reg.PRT_STEP_HI, runs := runs, gen := s.gen p,
    arm := s.getF pgICH (Reg.ICH_SWAP_ARM.at p),
    swapT := s.get64 pgICH (Reg.ICH_TT_SWAP_LO.at p) (Reg.ICH_TT_SWAP_HI.at p),
    draining := s.getF pgICH (Reg.ICH_SWAP_DRAINING.at p), swapNt := (s.part p).swapNt }

/-- The sequencers of the image's tiles stand at their entry points, or skip (03 R64, 01 R33); a tile that a control-class
incident stopped stays stopped (03 R66). -/
def State.startTiles (s : State) (p : Nat) (runs : Bool) : State :=
  let own := (s.ownTiles p).filter (fun t => s.seqState t != seqSTOPPED)
  let s := s.forEach own (fun s t => s.modTile t (fun x => { x with
    seq := { Seq.reset with pc := s.getF (pgTIL t) Reg.TIL_SEQ_CODE_ENTRY }, flight := [], entryFree := 0, weightFree := 0,
    rowFree := 0, dmvFree := 0, wheel := 0, wheelStart := none }))
  let s := s.forEach own (fun s t => s.setF (pgTIL t) Reg.TIL_SEQ_STAT_LOOP_DEPTH 0)
  s.setTiles own (if runs then seqRUNNING else seqSKIPPED) false

/-- The round that ends ran and no tile of this chip has a stream to end it: STEP advances all the same (09 R267). -/
def State.stepWithoutTiles (s : State) (p : Nat) : State :=
  if s.prtState p = prtRUNNING ∧ (s.part p).decision ∧ (s.ownTiles p).isEmpty then
    s.countStep p
  else s

/-- What the partition is told of a round that begins: its number, its length and whether it is skipped. -/
def State.enterRound (s : State) (p n at0 : Nat) (runs : Bool) : State :=
  let s := s.modPart p (fun x => { x with
    gear := s.gear, startNt := at0, nextNt := at0 + s.roundNt p, nextRound := (n + 1) % 2 ^ 32, decision := runs })
  (s.setF (pgPRT p) Reg.PRT_ROUND_ROUND n).setF (pgPRT p) Reg.PRT_STAT_SKIPPED (bit (!runs) 0)

/-- Round n begins at NT `at0` for the first time. -/
def State.beginRound (s : State) (p n at0 : Nat) : State :=
  let s := s.stepWithoutTiles p
  let s := s.setPrtState p prtRUNNING
  let runs := s.willRun p n
  let s := (s.endRound p n).enterRound p n at0 runs
  let s := s.modPart p (fun x => { x with starts := x.starts.filter (fun z => (z.round + 1) % 2 ^ 32 == n) })
  let s := (s.showHeld p).swap p at0
  let s := s.modPart p (fun x => { x with
    starts := x.starts ++ [s.roundState p n runs], manifests := x.manifests.filter (fun m => m.round == (n + 1) % 2 ^ 32),
    launchNt := none })
  let s := ((s.showHeld p).teardowns p at0).resumeLinks p
  let s := (s.collect p n at0).ownManifest p
  let s := if runs then s else s.addF (pgPRT p) Reg.PRT_SKIPCNT_COUNT 1
  s.startTiles p runs

/-- At the stop NT every tile of the partition halts, and it is loaded again, which the chip reports (12 R362, R363). -/
def State.stopHalt (s : State) (p : Nat) : State :=
  let s := (s.stepWithoutTiles p).setPrtState p prtLOADED
  (((s.setTiles (s.tilesOf p) seqHALTED true).modPart p (fun x => { x with
    stopNt := none, launchNt := none, starts := [], manifests := [], collections := [], delivered := [], maxRound := none,
    heldBank := none })).showHeld p |>.teardowns p (s.nt + 1)).reanchor.reportLoaded p true

/-- The LAUNCH record of a job whose round 0 starts (09 R271, Table 3). -/
def State.launchRecord (s : State) (p at0 : Nat) : State :=
  let pg := pgPRT p
  let w := fun (lo hi : Fld) => leBytes (s.get64 pg lo hi) 8
  s.lbRecord ⟨0x01, 0, 0, at0 / nsUnit, 0, s.roundLen p, p, 0,
    w Reg.PRT_SEED_LO Reg.PRT_SEED_HI ++ w Reg.PRT_STEP_LO Reg.PRT_STEP_HI ++ w Reg.PRT_TAG_LO Reg.PRT_TAG_HI, []⟩ 0

/-- The deputy that is to govern from the next round start governs (08 R251). -/
def State.deputyStarts (s : State) (p : Nat) : State :=
  s.modPart p (fun x => { x with deputy := x.deputy || x.deputyNext, deputyNext := false })

/-- Every running partition is to be fenced at the round start at an NT that comes so late in a holdover (08 R241). -/
def State.holdoverFences (s : State) (at0 : Nat) : State :=
  if s.holdoverLong at0 then s.forEach (allParts.filter (fun q => s.prtState q == prtRUNNING)) (fun s q =>
    s.modPart q (fun x => { x with fenceAsked := true })) else s

/-- A round-start position of a partition that does not hold: the gear change due takes effect, then it fences, stops or
begins its next round. A job whose round 0 would start that late in a holdover is fenced there (DESIGN CHOICE, log entry 31). -/
def State.applyRoundStart (s : State) (p : Nat) : State :=
  let x := s.part p
  let at0 := match x.launchNt with | some l => l | none => x.nextNt
  let n := match x.launchNt with | some _ => 0 | none => x.nextRound
  let s := s.atLeast at0
  let s := if s.gearDue at0 then s.applyGear (if allParts.any s.partRuns then at0 else s.gearAt) else s
  let s := (s.deputyStarts p).holdoverFences at0
  if s.prtState p = prtLOADED then
    if s.holdoverLong at0 then (s.modPart p (fun x => { x with launchNt := none })).fence p
    else
      let s := if allParts.any s.partRuns then s else { s with time := { s.time with anchor := max s.time.anchor at0 } }
      (s.launchRecord p at0).beginRound p 0 at0
  else
    if (s.part p).fenceAsked then (s.stepWithoutTiles p).fence p
    else match (s.part p).stopNt with
      | some t => if t ≤ at0 then s.stopHalt p else s.beginRound p n at0
      | none => s.beginRound p n at0

/-- A round start: of a partition at its launch NT, or of one whose round has ended on every tile. -/
def execRoundStart (p : PartId) (s : State) : Host.Outcome State Fault Refusal :=
  let st := s.prtState p.val
  let due := (st == prtLOADED && (s.part p.val).launchNt.isSome) || st == prtRUNNING
  .next (if due && (s.tilesOf p.val).all (fun t => s.seqState t != seqRUNNING) then s.applyRoundStart p.val else s)

/-! ### Held positions (10 R294, R298; 08 R249) -/

/-- A round-start position passes during a hold and is no round start: a gear change due takes effect, a fence asked for
takes place, and the next position is placed. -/
def execHeldRoundPosition (p : PartId) (s : State) : Host.Outcome State Fault Refusal :=
  let p := p.val
  let at0 := (s.part p).nextNt
  .next (if s.prtState p = prtHOLDING ∧ ¬ s.replayDue p then
    let s := s.atLeast at0
    let s := (if s.gearDue at0 then s.applyGear at0 else s).deputyStarts p
    if (s.part p).fenceAsked then s.fence p
    else s.modPart p (fun x => { x with
      gear := s.gear, startNt := at0, nextNt := at0 + s.roundNt p, nextRound := (x.nextRound + 1) % 2 ^ 32 })
  else s)

end Sys2Proof.Machine
end

