-- ==== Sys2Proof/Machine/Time.lean ====
section
/-! DEFINITION. Network time: domains, parents, the servo, switch-over, holdover and the time bases (08 R232 to R243). -/

namespace Sys2Proof.Machine

/-- A partition runs. -/
def State.anyRuns (s : State) : Bool := allParts.any s.partRuns

/-! ### Time symbols (08 R235, R236) -/

/-- Bits [3:2] of a TIME symbol's low nibble: DOM and LOCK, which only a master or a chip TRACKING a parent sets (08 R237). -/
def State.timeLow (s : State) (b : Bool) : Nat :=
  bit b 3 + bit (s.domState b == domMASTER || (s.domState b == domTRACKING && (s.dom b).parent.isSome)) 2

/-- Send the domain's ANNOUNCE on a port (08 R235, R237): a master's own, or what the parent last announced. With no parent it carries
DIST 255 and LOCK 0, and TMB_MASTER, the domain's last ANN_SEQ and EPOCH 0 (DESIGN CHOICE, log entry 102). -/
def State.sendAnnounce (s : State) (x : Nat) (b : Bool) : State :=
  let s := if s.domState b = domMASTER then s.modDom b (fun d => { d with annSeq := (d.annSeq + 1) % 256 }) else s
  let from0 := ((s.dom b).parent.bind (fun y => ((s.link y).peerTime b).ann))
  let master := if s.domState b = domMASTER then s.chipId
    else match from0 with | some a => a.master | none => s.getF pgTMB (if b then Reg.TMB_MASTER_MASTER_B else Reg.TMB_MASTER_MASTER_A)
  let epoch := if s.domState b = domMASTER then ((s.nt + (s.domOff b)).toNat / nsUnit) / 2 ^ 32
    else match from0 with | some a => a.epoch | none => 0
  let seq := match from0 with | some a => if s.domState b = domMASTER then (s.dom b).annSeq else a.seq | none => (s.dom b).annSeq
  s.sendSym x 4 (s.timeLow b + 1) (beBytes master 2 ++ beBytes (s.dist b) 1 ++ beBytes seq 1 ++ beBytes 0 1 ++ beBytes epoch 4)

/-- How many of the times at which an EXCHANGE of a domain goes out have passed: the multiples of 16,000 ns, and for domain B 8,000 ns
after each (08 R236). -/
def exchangeMark (b : Bool) (nt : Nat) : Nat := (nt + (if b then 8000 else 16000) * nsUnit) / (16000 * nsUnit)

/-- An EXCHANGE of a domain departs on a port, once for each passing of NT: TX is the domain's time now, TURN the time since the
EXCHANGE it echoes; every 64th is followed by an ANNOUNCE (08 R235, R236). A longer TURN than the field holds is sent as 0xFFFFFF, which
says none (DESIGN CHOICE, log entry 102). -/
def execTimeExchangeSend (port : PortId) (dom : Bool) (s : State) : Host.Outcome State Fault Refusal :=
  let x := port.val
  .next (if s.carriesTime x then
    let t := (s.link x).peerTime dom
    let m := exchangeMark dom s.nt
    let due := if t.mark = none ∨ t.mark = some m then m + 1 else m
    let s := s.atLeast (due * (16000 * nsUnit) - (if dom then 8000 else 16000) * nsUnit)
    let now := s.ntq8
    let tx := unsgn 40 ((s.nt + s.domOff dom) / 2 ^ 32)
    let turn := match t.last with | none => 0xFFFFFF | some e => min (now - e.2) 0xFFFFFF
    let echo := match t.last with | none => 0 | some e => e.1
    let s := s.sendSym x 4 (s.timeLow dom) (beBytes tx 5 ++ beBytes turn 3 ++ beBytes (t.xseq * 16 + echo) 1)
    let s := s.modLink x (fun l => l.setPeerTime dom { t with
      xseq := (t.xseq + 1) % 16, sent := ((t.xseq, now) :: t.sent.filter (fun e => e.1 != t.xseq)).take 16,
      count := (t.count + 1) % 64, mark := some due })
    if t.count + 1 = 64 then s.sendAnnounce x dom else s
  else s)

/-! ### Losing and gaining a domain (08 R238, R240, R241) -/

/-- A time-loss incident, code 0x3003, whose cause bits the spec does not give (DESIGN CHOICE, log entry 31). -/
def State.timeLoss (s : State) : State :=
  let (w, s) := s.freeBits 64
  let i := s.incident 0x3003 pgTMB 0 none
  s.raise { i with extra := w }

/-- Enter holdover with a time-loss incident. -/
def State.enterHoldover (s : State) : State :=
  let s := { s with time := { s.time with holdNt := some s.nt } }
  (s.setF pgTMB Reg.TMB_STAT_HOLDOVER 1).timeLoss

/-- A domain that kept time leaves TRACKING for LOST or FAULT, or its chip gives up being its master: a chip that loses A with B good
switches to B with D frozen; one left with neither enters holdover (08 R240, R241). -/
def State.loseDomain (s : State) (b : Bool) (st : Nat) : State :=
  let was := s.domGood b
  let d := (s.domOff true - s.domOff false) / 2 ^ 32
  let s := if !b && s.domState true == domMASTER && was then s.modDom true (fun z => { z with off := s.domOff true }) else s
  let s := (s.setDomState b st).modDom b (fun z => { z with samples := [], integ := 0, rate := 0 })
  let s := if st = domFAULT then s else s.setParent b none
  if !was then s
  else if !b && s.selected false && s.domGood true then
    ({ (s.setFs pgTMB [(Reg.TMB_DAB_NS, unsgn 32 d), (Reg.TMB_STAT_SEL, 1), (Reg.TMB_STAT_SWITCHED, 1)]) with
      time := { s.time with frozen := d } } : State).noteTime
  else if !s.domGood false && !s.domGood true then s.enterHoldover
  else s

/-- A domain is TRACKING or MASTER again: holdover ends, and the domain is selected with D = 0. -/
def State.endHoldover (s : State) (b : Bool) : State :=
  if s.getB pgTMB Reg.TMB_STAT_HOLDOVER then
    ({ (s.setFs pgTMB [(Reg.TMB_STAT_HOLDOVER, 0), (Reg.TMB_STAT_SEL, bit b 0)]) with
      time := { s.time with holdNt := none, frozen := 0 } } : State).noteTime
  else s

/-! ### The servo (08 R237, R242) -/

/-- A value of 40 bits as a signed difference. -/
def diff40 (v : Int) : Int := sgn 40 (unsgn 40 v)

/-- The sample of least delay. -/
def leastDelay : List (Int × Int) → Int × Int
  | [] => (0, 0)
  | [a] => a
  | a :: l => let b := leastDelay l; if b.2 < a.2 then b else a

/-- Eight samples are kept: NT is stepped when the domain is selected and no partition runs, which the other domain's offset follows, or
else the offset register;
the high word of a stepped NT is the parent's EPOCH (DEDUCED, log entry 32). -/
def State.acquire (s : State) (b : Bool) (l : List (Int × Int)) : State :=
  let off := (leastDelay l).1
  let first := (l.headD (0, 0)).1
  let last := (l.getLast?.getD (0, 0)).1
  let integ := ((last - first) * 2 ^ 32).tdiv (7 * 16000)
  let ann := (s.dom b).parent.bind (fun x => ((s.link x).peerTime b).ann)
  let s := match ann with
    | none => s
    | some a => s.setF pgTMB (if b then Reg.TMB_MASTER_MASTER_B else Reg.TMB_MASTER_MASTER_A) a.master
  let s :=
    if s.selected b && !s.anyRuns then
      let v : Nat := (s.nt + off * 2 ^ 32).toNat
      let v : Nat := match ann with | none => v | some a => a.epoch * 2 ^ 72 + v % 2 ^ 72
      let step : Int := (v : Int) - s.nt
      ({ s with nt := v }.modDom b (fun d => { d with off := 0 })).modDom (!b) (fun d => { d with off := d.off - step })
    else let sel := s.selected b
      s.modDom b (fun d => { d with off := (if sel then 0 else d.off) + off * 2 ^ 32 })
  let s := (s.setDomState b domTRACKING).modDom b (fun d => { d with samples := [], integ := integ, rate := integ })
  s.endHoldover b

/-- The offset is beyond the tolerance: OOT, and code 0x3004 at most once in 1 ms (08 R242). -/
def State.tolerance (s : State) (off : Int) : State :=
  if off.natAbs ≤ max 1 (s.getF pgTMB Reg.TMB_TOL_NS_NS) * 256 then s
  else
    let s := s.setF pgTMB Reg.TMB_STAT_OOT 1
    let recent := match s.time.ootNt with | none => false | some t => decide (s.nt < t + 1000000 * nsUnit)
    if recent then s
    else
      let (w, s) := s.freeBits 64
      let i := s.incident 0x3004 pgTMB 0 none
      ({ s with time := { s.time with ootNt := some s.nt } }).raise { i with extra := w }

/-- One EXCHANGE of the parent that echoes the chip's own. -/
def State.servo (s : State) (b : Bool) (tx turn t1 t4 : Nat) : State :=
  let d := (diff40 ((t4 : Int) - t1) - turn).tdiv 2
  let sel := s.selected b
  let raw := diff40 ((tx : Int) + d - t4)
  let own := if sel then (if s.domState b = domTRACKING then s.time.frozen else 0) else (s.dom b).off / 2 ^ 32
  let off := raw - own
  if s.domState b = domACQUIRING then
    let l := (s.dom b).samples ++ [(off, d)]
    if l.length = 8 then s.acquire b l else s.modDom b (fun x => { x with samples := l })
  else if s.domState b = domTRACKING then
    let integ := (s.dom b).integ + off * 2 ^ 8
    let rate := max (-2 ^ 31) (min (2 ^ 31 - 1) (integ + off * 2 ^ 14))
    let s := s.modDom b (fun x => { x with integ := integ, rate := rate, off := if sel then raw * 2 ^ 32 else x.off })
    let s := if sel then (s.setF pgTMB Reg.TMB_RATE_RATE (unsgn 32 rate)).tolerance off else s
    if 1000 * 256 < off.natAbs then s.loseDomain b domFAULT else s
  else s

/-- An EXCHANGE arrives: its number and time are kept to be echoed, and the parent's runs the servo. -/
def execExchange (port : PortId) (sym : BitVec 128) (bad : Bool) (s : State) : Host.Outcome State Fault Refusal :=
  let x := port.val
  .next (s.receiveSym x sym bad 4 (fun s =>
    if symLow sym % 4 ≠ 0 ∨ ¬ s.carriesTime x then s
    else
      let b := symLow sym / 8 == 1
      let t := (s.link x).peerTime b
      let now := s.ntq8
      let s := s.modLink x (fun l =>
        { l.setPeerTime b { t with last := some (symByte sym 10 / 16, now) } with peerLock := l.peerLock || symLow sym / 4 % 2 == 1 })
      if (s.dom b).parent ≠ some x then s
      else
        let s := s.modDom b (fun d => { d with lastEx := s.nt })
        let turn := symField sym 7 9
        match t.sent.find? (fun e => e.1 == symByte sym 10 % 16) with
        | none => s
        | some e => if turn = 0xFFFFFF then s
          else (s.servo b (symField sym 2 6) turn e.2 now)))

/-- An ANNOUNCE arrives: the parent is chosen anew; a parent's names the master and shows it alive, and one that names
another master loses the domain (08 R237, R238). -/
def execAnnounce (port : PortId) (sym : BitVec 128) (bad : Bool) (s : State) : Host.Outcome State Fault Refusal :=
  let x := port.val
  .next (s.receiveSym x sym bad 4 (fun s =>
    if symLow sym % 4 ≠ 1 ∨ ¬ s.carriesTime x then s
    else
      let b := symLow sym / 8 == 1
      let a : Ann := ⟨symLow sym / 4 % 2 == 1, symField sym 2 3, symByte sym 4, symByte sym 5, symField sym 7 10⟩
      let s := (s.modLink x (fun l =>
        { l.setPeerTime b { l.peerTime b with ann := some a } with peerLock := l.peerLock || a.lock })).chooseParent b
      if (s.dom b).parent ≠ some x then s
      else
        let s := if (s.dom b).annSeq = a.seq then s else s.modDom b (fun d => { d with annSeq := a.seq, annNt := s.nt })
        let named := s.getF pgTMB (if b then Reg.TMB_MASTER_MASTER_B else Reg.TMB_MASTER_MASTER_A)
        (if s.domState b = domTRACKING ∧ a.master ≠ named then (s.loseDomain b domLOST).chooseParent b else s)))

/-- No EXCHANGE from the parent for 64 µs: another link with LOCK becomes the parent, or the domain is LOST (08 R238). A selected
domain that finds no master at all is reported once as a time loss (08 R234). -/
def execParentTimeout (dom : Bool) (s : State) : Host.Outcome State Fault Refusal :=
  .next (if s.domState dom = domTRACKING then
    let old := (s.dom dom).parent
    let s := s.atLeast ((s.dom dom).lastEx + 64000 * nsUnit)
    match s.bestParent dom (fun x => old != some x) with
    | some x => (s.setParent dom (some x)).modDom dom (fun d => { d with lastEx := s.nt })
    | none => s.loseDomain dom domLOST
  else if s.selected dom && !s.domGood dom && (s.bestParent dom (fun _ => true)).isNone && !s.time.noMaster &&
      !s.getB pgTMB Reg.TMB_STAT_HOLDOVER then
    let s := s.atLeast ((s.dom dom).lastEx + 64000 * nsUnit)
    ({ s with time := { s.time with noMaster := true } } : State).timeLoss
  else s)

/-- ANN_SEQ has not advanced for four ANNOUNCE periods of 64 × 16,000 ns: the domain is LOST, and acquisition starts again as soon as
a parent is available (08 R236, R238). -/
def execMasterSilentTimeout (dom : Bool) (s : State) : Host.Outcome State Fault Refusal :=
  .next (if s.domState dom = domTRACKING then
    ((s.atLeast ((s.dom dom).annNt + 4 * 64 * 16000 * nsUnit)).loseDomain dom domLOST).chooseParent dom
  else s)

/-! ### The Clerk's writes (08 R234, R240) -/

/-- The chip becomes the master of a domain, or ceases to be. -/
def State.setMaster (s : State) (b on : Bool) : State :=
  if on then
    if s.domState b = domMASTER then s
    else
      let off := s.domOff b
      let s := (s.setDomState b domMASTER).modDom b (fun d => { d with samples := [], off := if b then off else 0 })
      (s.setParent b none).endHoldover b
  else if s.domState b = domMASTER then (s.loseDomain b domNONE).chooseParent b
  else s

/-- A write of TMB_CTL.MASTER_A and MASTER_B. -/
def execTmbMasterWrite (v : BitVec 32) (s : State) : Host.Outcome State Fault Refusal :=
  let s := s.setFs pgTMB [(Reg.TMB_CTL_MASTER_A, bits v.toNat 31 31), (Reg.TMB_CTL_MASTER_B, bits v.toNat 30 30)]
  .next (((s.setMaster false (v.getLsbD 31)).setMaster true (v.getLsbD 30)))

/-- TMB_CTL.USE_A while A is TRACKING: A is selected again and steered by rate only. -/
def execUseA (s : State) : Host.Outcome State Fault Refusal :=
  .next (if s.domState false = domTRACKING then
    ({ s.setF pgTMB Reg.TMB_STAT_SEL 0 with time := { s.time with frozen := 0 } } : State).noteTime
  else s)

/-- The write of TMB_NT_SET_HI steps the NT of the A master before any partition runs; it is ignored otherwise. Domain B's time does not
step, and its offset from NT follows. -/
def execNtSet (hi : BitVec 32) (s : State) : Host.Outcome State Fault Refusal :=
  .next (if s.domState false = domMASTER ∧ ¬ s.anyRuns then
    let s := s.setF pgTMB Reg.TMB_NT_SET_HI hi.toNat
    let v := s.get64 pgTMB Reg.TMB_NT_SET_LO Reg.TMB_NT_SET_HI * nsUnit
    let step : Int := (v : Int) - s.nt
    let s := if s.domState true = domMASTER then s else s.modDom true (fun d => { d with off := d.off - step })
    { s with nt := v }
  else s)

/-! ### The host's time (08 R243) -/

/-- A PTM dialog records the host's time and NT at one instant; one runs every PERIOD_MS, of which 0 acts as 1, while TMB_PTM_CTL.EN is
set and the PCIe link is up. -/
def execPtmDialog (host : BitVec 64) (s : State) : Host.Outcome State Fault Refusal :=
  .next (if s.getB pgTMB Reg.TMB_PTM_CTL_EN && s.dmaOk then
    let due := match s.time.ptmNt with
      | none => s.nt
      | some t => t + max 1 (s.getF pgTMB Reg.TMB_PTM_CTL_PERIOD_MS) * 1000000 * nsUnit
    let s := s.atLeast due
    { s with time := { s.time with hostPair := (host.toNat, s.ns), ptmNt := some s.nt } } else s)

end Sys2Proof.Machine
end

