-- ==== Sys2Proof/Machine/Contain.lean ====
section
/-! DEFINITION. Containment that several families share: aborts and notices, fences, resets, the governor's messages and
declared failures (08 R249 to R251; 10 R288, R289, R294 to R298, R305 to R307; 12 R365 to R367). -/

namespace Sys2Proof.Machine

/-! ### Positions -/

/-- The first of the positions at0, at0 + len, … at or after x. -/
def firstFrom (at0 len x : Nat) : Nat :=
  if x ≤ at0 ∨ len = 0 then at0 else at0 + (x - at0 + len - 1) / len * len

/-- The first round-start position of partition p at or after an NT, of those that follow a position at NT `a`, through a gear change
already armed (12 R362, R363). -/
def State.positionAfter (s : State) (p a x : Nat) : Nat :=
  let l0 := beatsNt s.gear (s.roundLen p)
  let l1 := beatsNt (s.getF pgTMB Reg.TMB_GEAR_NEXT) (s.roundLen p)
  if s.getB pgTMB Reg.TMB_GEAR_ARM then
    let c := firstFrom a l0 s.gearAt
    if x ≤ c then firstFrom a l0 x else firstFrom c l1 x
  else firstFrom a l0 x

/-- The first round-start position at or after an NT of a partition that runs. -/
def State.positionFrom (s : State) (p x : Nat) : Nat := s.positionAfter p (s.part p).nextNt x

/-! ### Notices (10 R295, Table 4) -/

/-- The payload of a notice. -/
def noticeWords (ty p cause epoch origin : Nat) (body : List Byte) : List Word :=
  bytesToWords ([BitVec.ofNat 8 ty, BitVec.ofNat 8 p, BitVec.ofNat 8 cause, 0] ++ leBytes epoch 2 ++ leBytes origin 2 ++
    (body ++ List.replicate 8 0).take 8)

/-- Send a notice, which its ORIGIN made, on every port of the job but one. -/
def State.sendNotice (s : State) (p ty cause epoch origin : Nat) (body : List Byte) (but : Option Nat) : State :=
  s.forEach ((s.jobPorts p).filter (fun x => but != some x)) (fun s x =>
    s.neighbourMsg x origin p 0xA00 (noticeWords ty p cause epoch origin body))

/-- A notice is accepted once: its (TYPE, EPOCH, ORIGIN, body) is kept. -/
def State.takeNotice (s : State) (p ty epoch origin body : Nat) : Bool × State :=
  if (s.part p).notices.contains (ty, epoch, origin, body) then (false, s)
  else (true, s.modPart p (fun x => { x with notices := (ty, epoch, origin, body) :: x.notices }))

def State.epoch (s : State) (p : Nat) : Nat := s.getF pgETU (Reg.ETU_RCV_EPOCH.at p)

/-! ### Fences (10 R310) -/

/-- Fence at the next round start, or at once in a hold. -/
def State.askFence (s : State) (p : Nat) : State :=
  if s.prtState p = prtHOLDING then s.fence p
  else if s.prtState p = prtRUNNING then s.modPart p (fun x => { x with fenceAsked := true })
  else s

/-! ### Aborts (10 R288, R294, R298) -/

/-- The partition keeps S_j. -/
def State.holdsRound (s : State) (p j : Nat) : Bool := (s.part p).starts.any (fun z => z.round == j)

/-- CAUSE of a hold: LINK before EMERG, whose replay start LINK's RESUME names. -/
def State.showCause (s : State) (p : Nat) : State :=
  let x := s.part p
  s.setF pgETU (Reg.ETU_RCV_CAUSE.at p) (if x.link then 2 else if x.emerg then 1 else 0)

/-- Chip k of a job is linked to chip c, by its section. -/
def linked (im : Image) (k c : Nat) : Bool :=
  im.sections.any (fun z => z.chip == k && z.links.any (fun b => b.peer == c))

/-- The job chips to which this chip's links of the job are lost. -/
def State.lostPeers (s : State) (p : Nat) : List Nat :=
  match s.ownSection p with
  | none => []
  | some c => ((c.links.filter (fun b => (s.link b.port).lossNt.isSome && (s.jobChips p).contains b.peer)).map (·.peer)).eraseDups

/-- A link of partition p's job is lost (10 R295, LINK). -/
def State.jobLinkLost (s : State) (p : Nat) : Bool :=
  !(s.lostPeers p).isEmpty

/-- The Clerk tells the job which of its chips it has declared link loss to (10 R305; DEDUCED, log entry 97). -/
def State.tellLosses (s : State) (p : Nat) : State := s.forEach (s.lostPeers p) (fun s c => s.tellJob p [15, c])

/-- The Clerk of a chip that holds under LINK counts districts (10 R308). -/
def State.startRollcall (s : State) (p : Nat) : State :=
  match s.districtOf p s.chipId with
  | none => s
  | some d =>
    if s.mgmt.clerkUp && (s.part p).rollcall.isNone then
      let s := s.modPart p (fun x => { x with rollcall := some s.nt, districts := (d.number :: x.districts).eraseDups })
      let s := (s.takeNotice p 3 (s.epoch p) s.chipId d.number).2
      (s.sendNotice p 3 0 (s.epoch p) s.chipId (leBytes d.number 2) none).tellLosses p
    else s

/-- Round j is aborted: the partition holds. -/
def State.holdFor (s : State) (p j : Nat) : State :=
  let old := s.getF pgETU (Reg.ETU_RCV_ABORT_ROUND.at p)
  let n := s.getF pgETU (Reg.ETU_RCV_ATTEMPTS.at p)
  let again := s.prtState p != prtHOLDING && old == j && decide (0 < n)
  let s := s.setFs pgETU [(Reg.ETU_RCV_ABORT_ROUND.at p, j), (Reg.ETU_RCV_ATTEMPTS.at p, if again then min (n + 1) 255 else 1)]
  let s := s.addF pgETU (Reg.ETU_RCV_ABORTS.at p) 1
  let s := s.setF (pgPRT p) Reg.PRT_ROUND_ROUND j
  if s.prtState p = prtHOLDING then s
  else
    let s := (s.setPrtState p prtHOLDING).setTiles (s.tilesOf p) seqHOLDING true
    let s := s.modIch (fun z => { z with
      staged := z.staged.filter (fun k => k.part != p), faulted := z.faulted.filter (fun k => k.1 != p) })
    s.modPart p (fun x => { x with abortNt := s.nt, emerg := false, link := false, replayAt := none, rollcall := none })

/-- Accept that round j is aborted, by an incident of this chip or by a notice: epoch, origin and SEQ go into the notice
that is sent on, and `cause` is its CAUSE byte. A round whose S_j is gone is too late (10 R296). -/
def State.abortRound (s : State) (p j cause epoch origin seq : Nat) (but : Option Nat) : State :=
  if s.prtState p ≠ prtRUNNING ∧ s.prtState p ≠ prtHOLDING then s
  else if !s.holdsRound p j then (s.raiseCode 0x2007 pgETU 0 (some p)).askFence p
  else
    let holding := s.prtState p == prtHOLDING
    let fresh := !holding || (j + 1) % 2 ^ 32 == s.getF pgETU (Reg.ETU_RCV_ABORT_ROUND.at p)
    let s := if fresh then
      (s.holdFor p j).lbRecord ⟨0x05, 0, 0, s.ns, j, seq, p, 0, [], []⟩ 0 else s
    let x := s.part p
    let emerg := cause.testBit 0
    let link := cause.testBit 1
    let more := (emerg && !x.emerg) || (link && !x.link)
    let s := (s.modPart p (fun x => { x with
      emerg := x.emerg || emerg, emergGear := if emerg && !x.emerg then s.gear else x.emergGear, link := x.link || link })).showCause p
    let s := if fresh || more || but.isSome then
      s.sendNotice p 1 cause epoch origin (leBytes j 4 ++ leBytes seq 4) but else s
    let s := if link then s.startRollcall p else s
    match s.image p with
    | none => s
    | some im =>
      if emerg && s.gear == im.slow && im.slow != 5 then s.modPart p (fun x => { x with fenceAsked := true }) else s

/-- This chip aborts the present round of a running partition by an incident with a SEQ. -/
def State.abortOwn (s : State) (p j cause seq : Nat) : State :=
  let s := (s.takeNotice p 1 (s.epoch p) s.chipId j).2
  s.abortRound p j cause (s.epoch p) s.chipId seq none

/-! ### Resets (12 R365 to R367) -/

/-- The registers of a tile, its sequencer and its queued repairs; RV bits, scratchpad, handles and wheels stay. -/
def State.resetTile (s : State) (t : Nat) : State :=
  let s := s.setFs (pgTIL t) [(Reg.TIL_SEQ_STAT_STATE, seqHALTED), (Reg.TIL_SEQ_STAT_LOOP_DEPTH, 0),
    (Reg.TIL_SEQ_STAT_PC, 0), (Reg.TIL_SEQ_BEAT_BEAT, 0)]
  let s := s.rewriteControl (upSequencer t)
  s.modTile t (fun x => { x with
    arch := .reset, seq := .reset, flight := [], entryFree := 0, weightFree := 0, rowFree := 0, dmvFree := 0, repairs := [],
    claims := [], made := [], collBeats := [], wheel := 0, wheelStart := none })

/-- Requests under way to tiles of a reset scope: a posted WRITE is discarded and counted, the others are refused (12 R366). -/
def State.dropWindows (s : State) (ok : Nat → Bool) : State :=
  let jobs := s.ich.windows.filter (fun j => ok j.tile)
  let s := s.modIch (fun z => { z with windows := z.windows.filter (fun j => !ok j.tile) })
  s.forEach jobs (fun s j =>
    let s := s.poolDone j.port j.pkt
    if j.frame.hdr.kind = 1 then s.addF pgMGT Reg.MGT_RSTDISC_COUNT 1 else s.sendCpl j.frame.hdr 3)

/-- What of [lo, hi) a list of ranges leaves. -/
def cutRanges : List (Nat × Nat) → Nat × Nat → List (Nat × Nat)
  | [], r => if r.1 < r.2 then [r] else []
  | (a, b) :: l, r =>
    (cutRanges l (r.1, min r.2 a)) ++ (if a < b then cutRanges l (max r.1 b, r.2) else cutRanges l (max r.1 a, r.2))

/-- The valid handles of a tile: their numbers. -/
def State.validHandles (s : State) (t : Nat) : List Nat :=
  (List.range 64).filter (fun h => s.getB (pgTIL t) (Reg.TIL_HND_VALID.at h))

/-- On an unload each RETAIN handle's range is recorded, and the clear engine clears every other unit of the tile's handles
(05 R158). -/
def State.retainTile (s : State) (t tag : Nat) : State :=
  let g := fun (f : Fld) h => s.getF (pgTIL t) (f.at h)
  let hs := s.validHandles t
  let kept := (hs.filter (fun h => g Reg.TIL_HND_RETAIN h == 1)).map (fun h =>
    (⟨tag, g Reg.TIL_HND_BASE h, g Reg.TIL_HND_BOUND h, g Reg.TIL_HND_CLASS h == 1, g Reg.TIL_HND_RSUM h⟩ : Retained))
  let keep := kept.map (fun r => (r.base, r.bound))
  let rs := (hs.filter (fun h => g Reg.TIL_HND_RETAIN h != 1)).flatMap (fun h =>
    cutRanges keep (g Reg.TIL_HND_BASE h, g Reg.TIL_HND_BOUND h))
  s.modTile t (fun x => { x with
    retained := x.retained ++ kept, clear := if rs.isEmpty then x.clear else x.clear ++ [⟨none, mergeRanges rs, []⟩] })

/-- The tables, leases, names, cells, windows and host runs of partition p are released (12 R363). -/
def State.releaseTables (s : State) (p : Nat) : State :=
  let lo := s.getF 0x023 (Reg.ICH_PH_BASE_CELL.at p)
  let hi := s.getF 0x023 (Reg.ICH_PH_LIMIT_CELL.at p)
  let s := s.modIch (fun z => { z with
    tables := z.tables.filter (fun e =>
      if e.1 / 32768 / 94 = 0 then (TtEntry.ofBits e.2).part != p || !s.ttPresent e.2
      else (LdEntry.ofBits e.2).part != p || !s.ldPresent e.2)
    lease := z.lease.filter (fun e => e.2 != 4 + p)
    names := z.names.filter (fun e => e.1 / 128 != p)
    cells := z.cells.filter (fun e => !(decide (lo ≤ e.1) && decide (e.1 < hi)))
    staged := z.staged.filter (fun k => k.part != p)
    faulted := z.faulted.filter (fun k => k.1 != p) })
  let s := s.setFs 0x023 [(Reg.ICH_PH_BASE_CELL.at p, 0), (Reg.ICH_PH_LIMIT_CELL.at p, 0)]
  let s := s.setFs pgICH [(Reg.ICH_SWAP_ARM.at p, 0), (Reg.ICH_SWAP_DRAINING.at p, 0), (Reg.ICH_SWAP_HELD.at p, 0)]
  let s := s.forEach ((List.range 32).filter (fun i => rwt s Reg.RWT_PART i == p)) (fun s i =>
    s.setF 0x023 (Reg.RWT_VALID.at i) 0)
  let s := s.modHif (fun h => { h with hostRun := h.hostRun.filter (fun e => (HostRun.ofBits e.2).part != p) })
  s.forEach allPorts (fun s x => s.modLink x (fun l =>
    let b := l.sBuf.filter (fun f => f.hdr.postcode / 2 ^ 14 != p)
    { l with sBuf := b, pend := l.pend.filter (fun q => b.any (fun f => f.hdr.seq == q.seq)),
             resumed := l.resumed.filter (fun q => q != p && q != p + 4) }))

/-- The image of partition p is unloaded (12 R363; 05 R158). -/
def State.unloadImage (s : State) (p : Nat) : State :=
  match s.image p with
  | none => s
  | some im =>
    let s := (s.reportLoaded p false).forEach (s.tilesOf p) (fun s t => s.retainTile t im.retainTag)
    let s := s.releaseTables p
    let s := s.setFs (pgPRT p) ([Reg.PRT_STAT_MODE, Reg.PRT_STAT_POLICY, Reg.PRT_STAT_SKIPPED, Reg.PRT_ROUND_LEN_BT,
      Reg.PRT_TAG_LO, Reg.PRT_TAG_HI, Reg.PRT_GOV_GOVERNOR, Reg.PRT_GOV_DEPUTY, Reg.PRT_GEARS_FAST,
      Reg.PRT_GEARS_SLOW].map (fun f => (f, 0)))
    (((s.modPart p (fun x => { Part.reset with stepLatch := x.stepLatch })).setPrtState p prtEMPTY).teardowns p (s.nt + 1)).reanchor

/-- A scope in reset that covers another. -/
def State.scopeInReset (s : State) (z : Scope) : Bool :=
  s.mgmt.resets.contains z || match z with
    | .tile t => s.tileInReset t
    | .region r => s.mgmt.resets.any (fun y => match y with | .part p => s.ownsRegion p r | _ => false)
    | .part _ => false

/-- Scope y lies within scope z. -/
def State.within (s : State) (y z : Scope) : Bool :=
  match z, y with
  | .region r, .tile t => t / 16 == r
  | .part p, .tile t => s.partOfTile t == some p
  | .part p, .region r => s.ownsRegion p r
  | _, _ => false

/-- Begin a reset of a scope: it absorbs the lower ones within it, and a RESET command that waits for one of those waits for
it (12 R367). -/
def State.enterReset (s : State) (z : Scope) : State :=
  s.modMgmt (fun m => { m with
    resets := z :: m.resets.filter (fun y => !s.within y z)
    mbxScope := m.mbxScope.map (fun y => if s.within y z then z else y) })

/-- A reset of its block closes a page's expert key and cancels its pending injection (13 R378, R379, R383). -/
def State.closePage (s : State) (pg : Nat) : State :=
  s.setFs pg [(Reg.BLK_EXPERT_KEY_OPEN, 0), (Reg.BLK_ERR_INJ_ARM, 0), (Reg.BLK_STAT_INJPEND, 0)]

/-- Reset tile t, region r. -/
def State.beginTileReset (s : State) (t : Nat) : State :=
  if s.scopeInReset (.tile t) then s
  else (((s.resetTile t).closePage (pgTIL t)).enterReset (.tile t)).dropWindows (fun u => u == t)

def State.beginRegionReset (s : State) (r : Nat) : State :=
  if s.scopeInReset (.region r) then s
  else
    let s := s.forEach ((List.range 16).map (fun i => 16 * r + i)) (fun s t => (s.resetTile t).closePage (pgTIL t))
    ((s.closePage (pgRGN r)).enterReset (.region r)).dropWindows (fun u => u / 16 == r)

/-- The PRT page at its reset values, but for REGIONS and STATE (13 R386). -/
def State.resetPrtPage (s : State) (p : Nat) : State :=
  ((s.setFs (pgPRT p) ((Reg.prtFields.filter (fun f => f != Reg.PRT_STAT_REGIONS && f != Reg.PRT_STAT_STATE)).map
    (fun f => (f, f.reset)))).modPart p (fun x => { x with stepLatch := 0 })).closePage (pgPRT p)

/-- Reset partition p (12 Table 8): staged parcels are discarded and counted, its tenants' entries complete with QRESET. -/
def State.beginPartReset (s : State) (p : Nat) : State :=
  if s.scopeInReset (.part p) then s
  else
    let ts := s.tilesOf p
    let staged := (s.ich.staged.filter (fun k => k.part == p)).length
    let s := s.addF pgMGT Reg.MGT_RSTDISC_COUNT staged
    let s := (s.forEach ts (fun s t => (s.resetTile t).closePage (pgTIL t))).enterReset (.part p)
    let s := s.dropWindows (fun u => ts.contains u)
    let us := (s.hif.tenants.filter (fun e => s.partOfTenant e.1 == p && (decide (0 < e.2.occ)))).map (·.1)
    let s := s.forEach us (fun s t => s.queueReset t)
    let s := s.forEach ((List.range 16).filter (s.ownsRegion p)) (fun s r => s.closePage (pgRGN r))
    let s := if (s.image p).isSome then s.unloadImage p
      else if s.prtState p = prtNOREGIONS then s else s.setPrtState p prtEMPTY
    s.resetPrtPage p

/-! ### What the fuses and the log give at chip reset (12 R353, R358; 13 R384, R385) -/

def State.fuse (s : State) (w : Nat) : Nat := (s.mgmt.fuses.get w 0).toNat

/-- Bits set among the low n of a value. -/
def onesIn : Nat → Nat → Nat
  | 0, _ => 0
  | n + 1, v => v % 2 + onesIn n (v / 2)

/-- The fuse SVN (12 R350). -/
def State.fuseSvn (s : State) : Nat := onesIn 64 (s.fuse 0x049 + 2 ^ 32 * s.fuse 0x04A)

/-- Five or more SEAL bits are blown (12 Table 4). -/
def State.isSealed (s : State) : Bool := decide (5 ≤ onesIn 8 (s.fuse 0x04B))

/-- The FUSE page copies the fuses (13 R385); a sealed part has no debug access port (12 R355). -/
def State.copyFuses (s : State) : State :=
  let w := s.fuse 0x04B
  let s := s.setFs pgFUSE
    [(Reg.FUSE_SEC_SEALED, bit s.isSealed 0), (Reg.FUSE_SEC_IMG_SIGN_REQ, bits w 8 8),
     (Reg.FUSE_SEC_FACTORY_LOCK, bits (s.fuse 0x050) 31 31), (Reg.FUSE_SEC_SVN, s.fuseSvn),
     (Reg.FUSE_SEC_KEYREV, bits (s.fuse 0x048) 5 0), (Reg.FUSE_SEC_SEAL, bits w 7 0),
     (Reg.FUSE_GRADE_GRADE, bits (s.fuse 0x04C) 3 0), (Reg.FUSE_GRADE_TOPGEAR, bits (s.fuse 0x04C) 6 4),
     (Reg.FUSE_GRADE_DISREGION, bits (s.fuse 0x050) 4 0), (Reg.FUSE_SPARE_WORD.at 0, s.fuse 0x04D),
     (Reg.FUSE_SPARE_WORD.at 1, s.fuse 0x04E), (Reg.FUSE_SPARE_WORD.at 2, s.fuse 0x04F)]
  s.modMgmt (fun m => { m with daport := !s.isSealed })

/-- The physical region of logical region r: the disabled one is left out (00 R4). -/
def State.physRegion (s : State) (r : Nat) : Nat :=
  let d := bits (s.fuse 0x050) 4 0
  if d < 16 ∧ d ≤ r then r + 1 else r

/-- The defective tile that the SPARE fuse of physical region g names, 0x1F for none. -/
def State.spareFuse (s : State) (g : Nat) : Nat :=
  (s.fuse 0x04D + 2 ^ 32 * s.fuse 0x04E + 2 ^ 64 * s.fuse 0x04F) / 2 ^ (5 * g) % 32

/-- The lowest retired tile of physical region g in the retirement log (physical index 17 g + tile, log entry 33). -/
def State.retiredTile (s : State) (g : Nat) : Option Nat :=
  (List.range 17).find? (fun d => s.mgmt.retireLog.any (fun e => e.kind == 1 && e.state == 1 && e.index == 17 * g + d))

/-- The hidden tile of logical region r (12 R358). -/
def State.chooseHidden (s : State) (r : Nat) : Nat :=
  let g := s.physRegion r
  if s.spareFuse g ≤ 16 then s.spareFuse g else (s.retiredTile g).getD 16

/-- MGT_SPARE shows the hidden tiles. -/
def State.showHidden (s : State) : State :=
  let v := (List.range 16).foldl (fun n r => n + s.mgmt.hidden.get r 16 * 2 ^ (5 * r)) 0
  s.setFs pgMGT [(Reg.MGT_SPARE_D.at 0, v), (Reg.MGT_SPARE_D.at 1, v / 2 ^ 32), (Reg.MGT_SPARE_D.at 2, v / 2 ^ 64)]

/-- What chip reset loads from the fuses and the retirement log. -/
def State.bootRegs (s : State) : State :=
  let grade := bits (s.fuse 0x04C) 3 0
  let top := bits (s.fuse 0x04C) 6 4
  let n := if bits (s.fuse 0x050) 4 0 < 16 then 15 else 16
  let s := s.copyFuses
  let s := s.setFs pgDEV
    [(Reg.DEV_CHIP_ID_BOARD, bits s.module.pos.toNat 6 4), (Reg.DEV_CHIP_ID_POSITION, bits s.module.pos.toNat 3 0),
     (Reg.DEV_CAPS_GRADE, grade), (Reg.DEV_CAPS_TOPGEAR, top), (Reg.DEV_CAPS_TILES, 16 * n), (Reg.DEV_CAPS_REGIONS, n),
     (Reg.DEV_SERIAL_LO, s.fuse 0x081), (Reg.DEV_SERIAL_HI, s.fuse 0x082)]
  let s := s.setFs pgTMB [(Reg.TMB_GEAR_CUR, top), (Reg.TMB_GEAR_TOP, top)]
  let s := s.setFs (pgPRT 0) [(Reg.PRT_STAT_STATE, prtEMPTY), (Reg.PRT_STAT_REGIONS, 2 ^ n - 1)]
  let s := s.forEach (List.range n) (fun s r =>
    s.setF (pgRGN r) Reg.RGN_VMAX_MV (s.fuse (0x051 + 3 * s.physRegion r)))
  let s := s.modMgmt (fun m => { m with hidden := (List.range 16).foldl (fun h r => h.put r (s.chooseHidden r) 16) [] })
  s.showHidden

/-! ### Clerk images and the boot ROM (12 R350, R357) -/

def State.isReady (s : State) : Bool := s.getB pgMGT Reg.MGT_BOOT_READY

/-- FAILED with its code (12 R357). -/
def State.failBoot (s : State) (code : Nat) : State :=
  s.setFs pgMGT [(Reg.MGT_BOOT_FAILED, 1), (Reg.MGT_BOOT_FAIL_CODE, code)]

/-- The module, and not the board, has the flash (14 R396). -/
def State.hasFlash (s : State) : Bool := !s.module.flashBoard

/-- A KEYHASH slot that is not revoked. -/
def State.keyGood (s : State) (k : Nat) : Bool := decide (k < 4) && !(s.fuse 0x048).testBit k

/-- A copy is valid: its key's hash is in a slot not revoked, and its SVN is at least the fuse SVN. -/
def State.imageValid (s : State) (i : ClerkImage) : Bool :=
  (match i.key with | some k => s.keyGood k | none => false) && decide (s.fuseSvn ≤ i.svn)

/-- The copy the boot ROM starts: copy B only if it alone is valid or has the higher SVN. -/
def State.chooseClerk (s : State) : Option (Bool × ClerkImage) :=
  match s.mgmt.copyA.filter s.imageValid, s.mgmt.copyB.filter s.imageValid with
  | none, none => none
  | some a, none => some (false, a)
  | none, some b => some (true, b)
  | some a, some b => if a.svn < b.svn then some (true, b) else some (false, a)

/-- STAGE 0xF: recovery. -/
def stageRecovery : Nat := 0xF

def State.inRecovery (s : State) : Bool := s.getF pgMGT Reg.MGT_BOOT_STAGE == stageRecovery

/-- The Postmaster verifies the copies and takes one; with none valid the part is in recovery, and one that is not ready has failed. -/
def State.bootRom (s : State) : State :=
  match s.chooseClerk with
  | none =>
    let s := (s.modMgmt (fun m => { m with clerkUp := false, runningCopy := none })).setF pgMGT Reg.MGT_BOOT_STAGE stageRecovery
    if s.isReady then s else s.failBoot 0x01
  | some (b, i) => s.modMgmt (fun m => { m with runningCopy := some b, runningSvn := i.svn })

/-- It starts the Clerk of that copy. -/
def State.startClerk (s : State) : State :=
  let s := s.bootRom
  s.modMgmt (fun m => { m with clerkUp := m.runningCopy.isSome })

/-- Main power is present. -/
def Module.powered (m : Module) : Bool := !m.rails.isEmpty

/-- Chip reset (12 Table 8; 07 R225): HOLD on every port in UP, then every block at its reset values. Fuses and flash stay,
and for level 4 the PCIe configuration and link; NT starts anew (DESIGN CHOICE, log entry 5), and the module keeps its own time and its
rails. With RESET_N high the boot ROM starts. -/
def State.chipReset (s : State) (keepPcie : Bool) : State :=
  let s := s.forEach (allPorts.filter (fun x => s.linkState x == lnkUP)) (fun s x => s.sendSym x 7 1 [])
  let z : State :=
    { State.reset with
      free := s.free, hostMem := s.hostMem, sent := s.sent, pending := s.pending
      module := s.module
      mgmt := { Mgmt.reset with
        runningCopy := none, fuses := s.mgmt.fuses, copyA := s.mgmt.copyA, copyB := s.mgmt.copyB, boardRecord := s.mgmt.boardRecord,
        retireLog := s.mgmt.retireLog }
      hif := if keepPcie then { Hif.reset with vfEnable := s.hif.vfEnable, numVfs := s.hif.numVfs } else .reset }
  let z := z.bootRegs
  let z := if z.module.powered then z.forEach (List.range 16) (fun z r =>
    z.setF (pgRGN r) Reg.RGN_VOLT_MV (s.getF (pgRGN r) Reg.RGN_VOLT_MV)) else z
  let z := if z.module.resetN then z.bootRom else z
  if keepPcie then
    z.setFs pgHIF [(Reg.HIF_STAT_LINKUP, s.getF pgHIF Reg.HIF_STAT_LINKUP), (Reg.HIF_STAT_WIDTH, s.getF pgHIF Reg.HIF_STAT_WIDTH),
      (Reg.HIF_STAT_RATE, s.getF pgHIF Reg.HIF_STAT_RATE)]
  else z

/-! ### The governor (08 R250, R251; 10 R305 to R307) -/

/-- The partitions this chip governs. -/
def State.governed (s : State) : List Nat := allParts.filter s.governs

/-- The chips of the jobs this chip governs. -/
def State.governedChips (s : State) : List Nat := (s.governed.flatMap s.jobChips).eraseDups

/-- Arm a gear change in the TMB (08 R249): one above the part's top gear, or a reserved one, is ignored (00 R3). An armed change whose
NT has come takes effect first; where that is in this very cycle, ARM stays as the change leaves it (13 R382). The spare PLLs lock anew
for another change. -/
def State.armGear (s : State) (g tb : Nat) : State :=
  if g < s.getF pgTMB Reg.TMB_GEAR_TOP ∨ 5 < g then s
  else
    let s := s.gearCatch
    let same := s.getB pgTMB Reg.TMB_GEAR_ARM && s.getF pgTMB Reg.TMB_GEAR_NEXT == g &&
      s.get64 pgTMB Reg.TMB_GEAR_AT_LO Reg.TMB_GEAR_AT_HI == tb
    let s := (s.setF pgTMB Reg.TMB_GEAR_NEXT g).set64 pgTMB Reg.TMB_GEAR_AT_LO Reg.TMB_GEAR_AT_HI tb
    let s := { s with time := { s.time with spareGear := if same then s.time.spareGear else none } }
    s.hostSet pgTMB Reg.TMB_GEAR_ARM 1

/-- The chips of the jobs this chip governs but for itself. -/
def State.otherChips (s : State) : List Nat := s.governedChips.filter (fun c => c != s.chipId)

/-- Send the announcement of a gear and its boundary to a chip. -/
def State.sendAnnouncement (s : State) (c g tb : Nat) : State := s.clerkMessage 0 c [1, g, tb]

/-- Announce a gear: Tb is the first boundary at least two gear periods away, and this chip arms at once. -/
def State.announceGear (s : State) (g : Nat) : State :=
  let tb := (s.ns + 2 * 2 ^ 20 + 2 ^ 20 - 1) / 2 ^ 20 * 2 ^ 20
  let s := s.forEach s.otherChips (fun s c => s.sendAnnouncement c g tb)
  { s with gov := { s.gov with
      announced := some (g, tb), waiting := s.otherChips, resent := false, poll := none, answers := [] } }.armGear g tb

/-- The job holds under LINK from here: a running round is aborted, and a hold of another cause turns into one under LINK, which
its notice tells (10 R295, R298, R306). A hold that no incident began has an ABORT record with AUX 0 (DESIGN CHOICE, log entry 102). -/
def State.holdUnderLink (s : State) (p : Nat) : State :=
  if s.prtState p = prtRUNNING then s.abortOwn p (s.round p) 2 0
  else s.abortRound p (s.getF pgETU (Reg.ETU_RCV_ABORT_ROUND.at p)) 2 (s.epoch p) s.chipId 0 none

/-- The board of a chip: its rack and board (15 R416). -/
def boardOf (c : Nat) : Nat := c / 16

/-- The spare of district d can replace its chip c: it works and stands in for no other chip, it and the twin lie on c's board (15 R427), the image has a detour set for
c, and no other chip of the district is being replaced (10 R307). -/
def State.replaceable (s : State) (p c : Nat) (d : District) (im : Image) : Bool :=
  let x := s.part p
  d.spare != c && !x.lost.contains d.spare && !x.spent.contains d.spare && boardOf d.spare == boardOf c &&
    d.twins.all (fun t => t.1 != c || boardOf t.2 == boardOf c) && im.detours.any (fun t => t.lost == c) &&
    !x.failovers.any (fun f => d.chips.contains f.lost)

/-- Change what this chip keeps of the failover of chip `lost`, which begins with it. -/
def State.stage (s : State) (p lost : Nat) (f : Failover → Failover) : State :=
  s.modPart p (fun x => { x with
    failovers := if x.failovers.any (fun y => y.lost == lost) then x.failovers.map (fun y => if y.lost = lost then f y else y)
      else x.failovers ++ [f ⟨lost, x.image, none, false, false, false, false⟩] })

/-- The governor sends T for the failover of chip c: the first round-start position at least one gear period away, and no earlier than
the T it sent before (10 R299; R306, step 4). -/
def State.sendSwapAt (s : State) (p c : Nat) : State :=
  let was := (((s.part p).failovers.find? (fun f => f.lost == c)).bind (·.swapAt)).getD 0
  let t := s.positionFrom p (max (s.nt + 2 ^ 20 * nsUnit) (was * nsUnit)) / nsUnit
  (s.stage p c (fun f => { f with swapAt := some t })).tellJob p [16, c, t]

/-- Chip c of partition p's job is declared failed: code 0x3006 with c in EXTRA, and the job holds under LINK (10 R305). Where its
spare can take over the failover begins; otherwise the job fences (R307), but for a chip of a district that is lost whole: for
that the job holds (R309). -/
def State.declareFailed (s : State) (p c : Nat) : State :=
  if (s.part p).lost.contains c ∨ ¬ (s.prtState p = prtRUNNING ∨ s.prtState p = prtHOLDING) then s
  else
    let i := s.incident 0x3006 pgMGT 0 (some p)
    let s := (s.raise { i with extra := c }).holdUnderLink p
    let gone := s.districtGone p c
    let can := match s.districtOf p c, s.image p with
      | some d, some im => s.replaceable p c d im
      | _, _ => false
    let s := s.modPart p (fun x => { x with lost := c :: x.lost })
    if gone then s else if can then s.sendSwapAt p c else s.askFence p

end Sys2Proof.Machine
end

