-- ==== Sys2Proof/Machine/Side.lean ====
section
/-! DEFINITION. The Side Street's scratchpad port, by which the Clerk reaches scratchpad (12 R342), and the handle entries of an image
(05 Table 2). -/

namespace Sys2Proof.Machine

/-- A handle entry of an image. -/
structure HandleWords where
  valid : Bool
  base : Nat
  bound : Nat
  classW : Bool
  retain : Bool
  orient : Bool
  stride8 : Bool
  ecc : Nat
  owner : Nat
  rsum : Nat
  deriving DecidableEq, Repr

/-- Read the words of an entry with the places of 05 Table 2. -/
def readHandle (h : HandleInit) : HandleWords :=
  let f := fun (k : Nat) (r : Fld) => bits (h.words.getD k 0).toNat r.hi r.lo
  { valid := f 0 Reg.TIL_HND_VALID == 1, base := f 0 Reg.TIL_HND_BASE, bound := f 1 Reg.TIL_HND_BOUND,
    classW := f 2 Reg.TIL_HND_CLASS == 1, retain := f 2 Reg.TIL_HND_RETAIN == 1, orient := f 2 Reg.TIL_HND_ORIENT == 1,
    stride8 := f 2 Reg.TIL_HND_STRIDE8 == 1, ecc := f 2 Reg.TIL_HND_ECC, owner := f 2 Reg.TIL_HND_OWNER,
    rsum := f 3 Reg.TIL_HND_RSUM }

/-- The owner value of shared handles (05 Table 2). -/
def ownerShared : Nat := 0x200

/-- Unit u of the handle, in the tile's scratchpad (05 R130). -/
def HandleWords.unit (h : HandleWords) (u : Nat) : Nat := if h.stride8 then h.base + 8 * u else h.base + u

/-- The units of the handle, in order. -/
def HandleWords.units (h : HandleWords) : List Nat :=
  ((List.range (h.bound - h.base)).map h.unit).filter (fun u => decide (u < h.bound))

/-- A handle reaches a unit of its tile. -/
def Handle.reaches (h : Handle) (u : Nat) : Bool :=
  decide (h.base ≤ u) && decide (u < h.bound) && (!h.stride8 || (u - h.base) % 8 == 0)

/-- The port takes accesses to a unit: it lies in no valid handle that a tenant owns and in no CLOSED one. The units of a tile have no part
in the pigeonhole's host area, which no access of the port names. -/
def State.sideOpen (s : State) (t u : Nat) : Bool :=
  (List.range 64).all (fun h => let k := s.handle t h; !(k.reaches u && ((k.valid && decide (k.owner < ownerShared)) || k.closed)))

/-- Read a unit through the port, in ROW view: a refused one reads zero. -/
def State.sideRead (s : State) (t h u : Nat) : List (PV 32) × State :=
  if s.sideOpen t u then
    (List.range 32).foldl (fun (a : List (PV 32) × State) k =>
      let (v, s) := a.2.readKey t h 0 (wordKey false u k) k false 0x1005 0 0
      (a.1 ++ [v], s)) ([], s)
  else (List.replicate 32 (.zero 32), s)

/-- Write one word of a unit through the port: a refused one is not written. -/
def State.sideWrite (s : State) (t u k : Nat) (v : Word) (classW : Bool) : State :=
  if s.sideOpen t u then s.writeKey t (wordKey false u k) (.ok v) false classW else s

/-- Read units through the port. -/
def State.sideReads (s : State) (t h : Nat) (us : List Nat) : List (PV 32) × State :=
  us.foldl (fun (a : List (PV 32) × State) u =>
    let (v, s) := a.2.sideRead t h u
    (a.1 ++ v, s)) ([], s)

end Sys2Proof.Machine
end

