-- ==== Sys2Proof/Machine/Install.lean ====
section
/-! DEFINITION. What the loader writes when it installs a section of an image (03 R432; 05 R133, R158; 06 R163, R187, R194; 11
R326, R327; 12 R360), for a load and for a failover (10 R306). -/

namespace Sys2Proof.Machine

/-- The fields of a handle entry (05 Table 2); CLOSED is the device's. -/
def handleFields : List (Nat × Fld) :=
  [(0, Reg.TIL_HND_VALID), (0, Reg.TIL_HND_BASE), (1, Reg.TIL_HND_BOUND), (2, Reg.TIL_HND_CLASS), (2, Reg.TIL_HND_RETAIN),
   (2, Reg.TIL_HND_ORIENT), (2, Reg.TIL_HND_STRIDE8), (2, Reg.TIL_HND_ECC), (2, Reg.TIL_HND_OWNER), (2, Reg.TIL_HND_RIGHTS),
   (3, Reg.TIL_HND_RSUM)]

/-- Write handle h of a tile. -/
def State.putHandle (s : State) (t h : Nat) (ws : List (BitVec 32)) : State :=
  (s.setFs (pgTIL t) (handleFields.map (fun e => (e.2.at h, bits (ws.getD e.1 0).toNat e.2.hi e.2.lo)))).rewriteControl
    (upHandle t h)

/-- The bundles of a stream lie in the units of its code handle, four words each (03 R432), where the Clerk can write (12 R342). -/
def State.putStream (s : State) (c : Stream) : State :=
  let base := s.getF (pgTIL c.tile) (Reg.TIL_HND_BASE.at c.handle)
  let classW := s.getF (pgTIL c.tile) (Reg.TIL_HND_CLASS.at c.handle) == 1
  let s := s.setFs (pgTIL c.tile) [(Reg.TIL_SEQ_CODE_HANDLE, c.handle), (Reg.TIL_SEQ_CODE_ENTRY, c.entry)]
  let s := s.rewriteControl (upSequencer c.tile)
  s.forEach c.bundles.zipIdx (fun s b =>
    s.forEach [0, 1, 2, 3] (fun s k =>
      s.sideWrite c.tile (base + b.2 / 8) (4 * (b.2 % 8) + k) (BitVec.ofNat 32 (b.1.toNat / 2 ^ (32 * k))) classW))

/-- The fields of a slot-wheel word and of a change-list entry (05 R141). -/
def wheelFields : List Fld :=
  [Reg.TIL_WHEEL_ODD_P3, Reg.TIL_WHEEL_ODD_P2, Reg.TIL_WHEEL_ODD_P1, Reg.TIL_WHEEL_ODD_P0, Reg.TIL_WHEEL_EVEN_P3,
   Reg.TIL_WHEEL_EVEN_P2, Reg.TIL_WHEEL_EVEN_P1, Reg.TIL_WHEEL_EVEN_P0]

def wseqFields : List Fld := [Reg.TIL_WSEQ_VALID, Reg.TIL_WSEQ_WHEEL, Reg.TIL_WSEQ_START8]

def State.putWheelWord (s : State) (t m : Nat) (w : BitVec 32) : State :=
  (s.setFs (pgTIL t) (wheelFields.map (fun f => (f.at m, bits w.toNat f.hi f.lo)))).rewriteControl
    (upWord (upWheel t) m)

def State.putChange (s : State) (t i : Nat) (w : BitVec 32) : State :=
  (s.setFs (pgTIL t) (wseqFields.map (fun f => (f.at i, bits w.toNat f.hi f.lo)))).rewriteControl
    (upWord (upWheel t) (16 + i))

/-- Write an entry of a timetable (table 0) or landing table (1). -/
def State.putEntry (s : State) (table port bank index : Nat) (w : BitVec 128) : State :=
  (s.modIch (fun z => { z with tables := z.tables.put (tableKey table port bank index) w 0 })).rewriteControl
    (upTable (table == 1) port bank index)

/-- Write the names of partition p's logical ports in a bank (06 R186). -/
def State.putNames (s : State) (p bank : Nat) (l : List Nat) : State :=
  s.forEach (l.zipIdx) (fun s e =>
    (s.modIch (fun z => { z with names := z.names.put ((2 * p + bank) * 64 + e.2) (128 + e.1 % 64) 0 })).rewriteControl
      (upName p bank e.2))

/-- Lease slots of ports to partition p (06 R165). -/
def State.putLeases (s : State) (p : Nat) (l : List (Nat × Nat)) : State :=
  s.forEach l (fun s e =>
    (s.modIch (fun z => { z with lease := z.lease.put (64 * e.1 + e.2) (4 + p) 0 })).rewriteControl (upLease e.1 e.2))

/-- Set or clear the SDS bit of a port (06 R163). -/
def State.putSds (s : State) (x : Nat) (on : Bool) : State :=
  let f := if x < 32 then Reg.ICH_SDS0_PORTS else Reg.ICH_SDS1_PORTS
  let v := s.getF pgALI f
  let b := if x < 32 then x else x - 32
  s.setF pgALI f (if v.testBit b == on then v else if on then v + 2 ^ b else v - 2 ^ b)

/-- The tables of a section for one bank: entries, names and leases. -/
def State.putTables (s : State) (p bank : Nat) (tt ld : List TableEntry) (names : List Nat) (leases : List (Nat × Nat)) : State :=
  let s := s.forEach tt (fun s e => s.putEntry 0 e.port bank e.index e.entry)
  let s := s.forEach ld (fun s e => s.putEntry 1 e.port bank e.index e.entry)
  (s.putNames p bank names).putLeases p leases

/-- A tenant's longest frame and its request slots by the host run table (11 R324, R327). The loader writes them for the tenants that
the image names, and for those of the partition that an earlier image left with some. -/
def State.countSlots (s : State) (p t : Nat) : State :=
  let l := (s.hif.hostRun.map (fun e => HostRun.ofBits e.2)).filter (fun e => e.valid && !e.result && e.part == p && e.tenant == t)
  let least := l.foldl (fun n e => min n e.units) 513
  (s.setFs (pgIGT t) [(Reg.IGQ_T_SLOTS_COUNT, l.length),
    (Reg.IGQ_T_MAXLEN_BYTES, if l.isEmpty then 0 else min 65536 (128 * (least - 1)))]).showTenant t

/-- A window an image declares. -/
def State.putWindow (s : State) (i : Nat) (ws : List (BitVec 32)) : State :=
  let w := fun k => (ws.getD k 0).toNat
  s.setFs 0x023 ([(0, Reg.RWT_VALID), (0, Reg.RWT_PART), (0, Reg.RWT_RD), (0, Reg.RWT_WR), (0, Reg.RWT_PRIO), (0, Reg.RWT_TILE),
    (0, Reg.RWT_HANDLE), (1, Reg.RWT_TARGET), (2, Reg.RWT_TMASK), (3, Reg.RWT_SRC), (3, Reg.RWT_SMASK), (4, Reg.RWT_OFF),
    (5, Reg.RWT_SIZE), (6, Reg.RWT_EXPIRY_LO), (7, Reg.RWT_EXPIRY_HI)].map (fun (e : Nat × Fld) =>
      (e.2.at i, bits (w e.1) e.2.hi e.2.lo)))

/-- The tiles of a section: handles, streams, wheels and change lists. A handle, wheel or stream that the section does not
give is left unset. -/
def State.installTiles (s : State) (p : Nat) (c : Section) : State :=
  let s := s.forEach (s.tilesOf p) (fun s t =>
    let s := s.forEach (List.range 64) (fun s h => s.putHandle t h [])
    let s := s.forEach (List.range 16) (fun s m => (s.putWheelWord t m 0).putChange t m 0)
    s.setFs (pgTIL t) [(Reg.TIL_SEQ_CODE_HANDLE, 0), (Reg.TIL_SEQ_CODE_ENTRY, 0)])
  let s := s.forEach c.handles (fun s h => s.putHandle h.tile h.handle h.words)
  let s := s.forEach c.streams (fun s z => s.putStream z)
  let s := s.forEach c.wheels (fun s w => s.forEach w.2.2.zipIdx (fun s e => s.putWheelWord w.1 (4 * w.2.1 + e.2) e.1))
  s.forEach c.changes (fun s e => s.putChange e.1 e.2.1 e.2.2)

/-- The physical ports on which the parcels of a landing table arrive: their SDS bits equal those of the upstream egress
ports (06 R164; DEDUCED, log entry 91). -/
def arrivalPorts (names : List Nat) (ld : List TableEntry) : List Nat := (ld.map (fun e => names.getD e.port e.port)).eraseDups

/-- Set the SDS bits of ports from an image's mode (06 R163). -/
def State.setSds (s : State) (elastic : Bool) (l : List Nat) : State := s.forEach l (fun s x => s.putSds x (!elastic))

/-- The rest of a section: tables in a bank, cells, drain window, host runs and windows. -/
def State.installTables (s : State) (p bank : Nat) (elastic : Bool) (c : Section) : State :=
  let s := (s.setSds elastic (c.leases.map (·.1)).eraseDups).setSds elastic (arrivalPorts c.names c.landing)
  let s := s.putTables p bank c.timetable c.landing c.names c.leases
  let s := s.setFs 0x023 [(Reg.ICH_PH_BASE_CELL.at p, c.cellBase), (Reg.ICH_PH_LIMIT_CELL.at p, c.cellLimit)]
  let s := s.setF pgICH Reg.ICH_DRAIN_NS_NS c.drainNs
  let s := s.modHif (fun h => { h with hostRun := h.hostRun.putAll 0 c.hostRun })
  let before := (List.range 512).filter (fun t => s.partOfTenant t == p &&
    (s.getT t Reg.IGQ_T_SLOTS_COUNT != 0 || s.getT t Reg.IGQ_T_MAXLEN_BYTES != 0))
  let s := s.forEach ((before ++ c.hostRun.map (fun e => (HostRun.ofBits e.2).tenant)).eraseDups) (fun s t => s.countSlots p t)
  s.forEach c.windows (fun s w => s.putWindow w.1 w.2)

/-- Retained ranges of the partition's tiles: those the new section declares again stay. The clear engine clears the others, and
what an unload still left it to clear, before the section's code is written and so before its first round (05 R158). The load
waits for that work (DESIGN CHOICE, log entry 92). -/
def State.adoptRanges (s : State) (p tag : Nat) (c : Section) : State :=
  s.forEach (s.tilesOf p) (fun s t =>
    let mine := (c.handles.filter (fun h => h.tile == t)).map (fun h =>
      let w := fun k => (h.words.getD k 0).toNat
      ((⟨tag, bits (w 0) 18 0, bits (w 1) 18 0, (w 2).testBit 31, bits (w 3) 18 0⟩ : Retained), (w 2).testBit 30 && (w 0).testBit 31))
    let adopted := fun (r : Retained) => mine.any (fun m => m.2 && m.1 == r)
    let gone := ((s.tile t).retained.filter (fun r => !adopted r)).map (fun r => (r.base, r.bound))
    let left := ((s.tile t).clear.filter (fun j => j.tenant.isNone)).flatMap (·.ranges)
    s.modTile t (fun x => { (x.clearRanges (left ++ gone)) with
      retained := [], clear := x.clear.filter (fun j => j.tenant.isSome) }))

end Sys2Proof.Machine
end

