-- ==== Sys2Proof/Machine/Words.lean ====
section
/-! DEFINITION. Pages, the words their registers read as, and reads of them (13 R371 to R375, R386, Tables 1 to 3). -/

namespace Sys2Proof.Machine

/-- The field of a register that lies at a page offset: an entry of an array as that entry. -/
def Fld.hit (f : Fld) (off : Nat) : Option Fld :=
  if f.count ≤ 1 then (if off = f.off then some f else none)
  else if f.off ≤ off ∧ (off - f.off) % f.stride = 0 ∧ (off - f.off) / f.stride < f.count then
    some (f.at ((off - f.off) / f.stride))
  else none

/-- The fields of a link whose block lies at X, with its equaliser taps (07 R230, R231). -/
def linkFields (u : Nat) : List Fld :=
  (Reg.lnkFields.map (fun f => f.shift (0x100 + 0x180 * u))) ++ (Reg.txffeFields.map (fun f => f.shift (0x800 + 0x80 * u)))

/-- The block's own fields of a page of BAR0. -/
def blockFields (pg : Nat) : List Fld :=
  if pg = 0x000 then Reg.devFields else if pg = 0x001 then Reg.fuseFields else if pg = 0x002 then Reg.tmbFields
  else if pg = 0x003 then Reg.etuFields else if pg = 0x004 then Reg.mgtFields else if pg = 0x005 then Reg.fscFields
  else if pg = 0x006 then Reg.snpFields else if 0x008 ≤ pg ∧ pg ≤ 0x00B then Reg.prtFields
  else if 0x010 ≤ pg ∧ pg ≤ 0x01F then Reg.rgnFields else if pg = 0x020 then Reg.ich0Fields
  else if pg = 0x021 then Reg.ich1Fields else if pg = 0x022 then Reg.ich2Fields else if pg = 0x023 then Reg.ich3Fields
  else if 0x030 ≤ pg ∧ pg ≤ 0x03E then linkFields 0
  else if 0x040 ≤ pg ∧ pg ≤ 0x047 then linkFields 0 ++ linkFields 1 ++ linkFields 2 ++ linkFields 3
  else if pg = 0x050 then Reg.hifFields else if pg = 0x051 then Reg.igqFields
  else if 0x100 ≤ pg ∧ pg ≤ 0x1FF then Reg.tilFields else []

/-- The implemented pages (13 Table 1). -/
def allPages : List Nat :=
  List.range 7 ++ (List.range 4).map (0x008 + ·) ++ (List.range 16).map (0x010 + ·) ++ (List.range 4).map (0x020 + ·) ++
    (List.range 15).map (0x030 + ·) ++ (List.range 8).map (0x040 + ·) ++ [0x050, 0x051] ++ (List.range 256).map (0x100 + ·)

/-- The region a page belongs to, for a page of a region or a tile. -/
def regionOfPage (pg : Nat) : Option Nat :=
  if 0x010 ≤ pg ∧ pg ≤ 0x01F then some (pg - 0x010) else if 0x100 ≤ pg ∧ pg ≤ 0x1FF then some ((pg - 0x100) / 16) else none

/-- The page lies in a region that the part does not have (00 R4). -/
def State.pageDisabled (s : State) (pg : Nat) : Bool :=
  match regionOfPage pg with | some r => decide (s.getF pgDEV Reg.DEV_CAPS_REGIONS ≤ r) | none => false

/-- The page lies in a tile, region or partition that is in reset (12 R345; 13 R383). -/
def State.pageInReset (s : State) (pg : Nat) : Bool :=
  if 0x100 ≤ pg ∧ pg ≤ 0x1FF then s.tileInReset (pg - 0x100)
  else if 0x008 ≤ pg ∧ pg ≤ 0x00B then s.scopeInReset (.part (pg - 0x008))
  else match regionOfPage pg with | some r => s.scopeInReset (.region r) | none => false

/-- A page that takes accesses. -/
def State.pageOpen (s : State) (pg : Nat) : Bool := allPages.contains pg && !s.pageDisabled pg && !s.pageInReset pg

/-- The partition that owns a page (13 Table 3, OWNED). -/
def State.pageOwner (s : State) (pg : Nat) : Option Nat :=
  if 0x008 ≤ pg ∧ pg ≤ 0x00B then some (pg - 0x008) else (regionOfPage pg).bind s.partOfRegion

/-- The beat within partition p's round at the present NT; for a register copy (03 Table 10). -/
def State.showBeat (s : State) (t : Nat) : Nat :=
  let st := s.seqState t
  if st = seqRUNNING ∨ st = seqSKIPPED then
    match s.partOfTile t with | some p => s.partBeat p | none => 0
  else s.getF (pgTIL t) Reg.TIL_SEQ_BEAT_BEAT

/-- Bit g of DEV_ERRSUM (13 R384): an unmasked BLK_ERR bit on a page of the group whose alerts are on. -/
def State.errGroup (s : State) (l : List Nat) : Bool :=
  l.any (fun pg => s.getB pg Reg.BLK_CTRL_ALERT_EN &&
    (let m := s.getF pg Reg.BLK_ERR_MASK_MASK
     (s.getB pg Reg.BLK_ERR_INFO && !m.testBit 0) || (s.getB pg Reg.BLK_ERR_DATA && !m.testBit 1) ||
       (s.getB pg Reg.BLK_ERR_CONTROL && !m.testBit 2) || (s.getB pg Reg.BLK_ERR_INJ && !m.testBit 3)))

/-- DEV_ERRSUM. -/
def State.errSum (s : State) : Nat :=
  let r := fun a n => (List.range n).map (a + ·)
  ([r 0 7, r 0x008 4, r 0x010 16, r 0x020 4, r 0x030 15, r 0x040 8, r 0x050 2, r 0x100 256].zipIdx).foldl
    (fun n e => n + bit (s.errGroup e.1) e.2) 0

/-- A word of a virtual function's window: its registers, with the number of its tenant, its MSI-X table and pending bits (11 R319,
Tables 2 and 10). -/
def State.vfWord (s : State) (t off : Nat) : Nat :=
  if off = 0 then t * 2 ^ Reg.VF_ID_TENANT.lo + s.getV t Reg.VF_ID_PART * 2 ^ Reg.VF_ID_PART.lo
  else if 0x2000 ≤ off ∧ off < 0x2080 ∧ off % 4 = 0 then s.msixWord (t + 1) ((off - 0x2000) / 16) (off % 16 / 4)
  else if off = 0x3000 then s.msixPending (t + 1) 8
  else Reg.vfFields.foldl (fun n f => match f.hit off with
    | some f => if f.acc = .wo then n else n + s.getV t f * 2 ^ f.lo
    | none => n) 0

/-- BLK_ID of an implemented page: type and instance (13 Table 1). -/
def blkId (pg : Nat) : Nat :=
  let id := fun ty base => ty * 2 ^ 16 + (pg - base)
  if pg < 0x008 then (pg + 1) * 2 ^ 16 else if pg < 0x010 then id 0x0008 0x008 else if pg < 0x020 then id 0x0010 0x010
  else if pg < 0x030 then id 0x0020 0x020 else if pg < 0x040 then id 0x0030 0x030 else if pg < 0x050 then id 0x0040 0x040
  else if pg < 0x100 then pg * 2 ^ 16 else id 0x0100 0x100

/-- The fields of a page at an offset as they stand, those that cannot be read as 0. -/
def State.plainWord (s : State) (pg off : Nat) (l : List Fld) : Nat :=
  l.foldl (fun n f => match f.hit off with
    | some f => if f.acc = .wo then n else n + s.getF pg f * 2 ^ f.lo
    | none => n) 0

/-- A word of a page's header. A page that answers has its clock running (DESIGN CHOICE, log entry 103). -/
def State.headerWord (s : State) (pg off : Nat) : Nat :=
  if off = 0x000 then blkId pg
  else if off = 0x004 then 0x0100
  else if off = 0x00C then
    2 ^ 31 + 2 ^ 30 + s.getF pg Reg.BLK_STAT_INJPEND * 2 ^ 29 +
      (match s.pageOwner pg with | some p => 4 + p % 4 | none => 0)
  else s.plainWord pg off Reg.hdrFields

/-- What a register word reads as, without the effects of a read. A page outside Table 1 or of an absent region reads 0 and one in reset
all ones, headers too (00 R4, 12 R345; 13 R371, R383); registers that show a running quantity show it as it is now; write-only fields
read 0. -/
def State.regWord (s : State) (pg off : Nat) : Nat :=
  let tile := pg - 0x100
  if 0x1000 ≤ pg ∧ pg < 0x1200 then s.vfWord (pg - 0x1000) off
  else if !allPages.contains pg || s.pageDisabled pg then 0
  else if s.pageInReset pg then 0xFFFFFFFF
  else if off < 0x020 then s.headerWord pg off
  else if 0x040 ≤ off ∧ off < 0x100 then (if off % 4 = 0 then s.franks.snaps.get (64 * pg + (off - 0x040) / 4) 0 else 0)
  else if pg = pgTMB ∧ off = 0x100 then s.ns % 2 ^ 32
  else if pg = pgTMB ∧ off = 0x110 then s.ltb / nsUnit % 2 ^ 32
  else if pg = pgTMB ∧ (off = 0x128 ∨ off = 0x12C) then unsgn 32 (s.domOff (off == 0x12C) / 2 ^ 32)
  else if pg = pgTMB ∧ off = 0x180 then s.time.hostPair.1 % 2 ^ 32
  else if pg = pgDEV ∧ off = 0x114 then s.errSum
  else if pg = pgIGQ ∧ 0x104 ≤ off ∧ off ≤ 0x11C then s.plainWord (pgIGT (s.getF pgIGQ Reg.IGQ_SEL_TENANT)) off Reg.igqtFields
  else if pg = pgPH ∧ off = 0x124 then s.ich.urt.get (s.getF pgPH Reg.ICH_URT_ADDR_RACK) 0
  else if pg = pgALI ∧ 0x100 ≤ off ∧ off < 0x300 ∧ (off - 0x100) % 0x40 < 0x30 then
    let bank := (off - 0x100) / 0x40
    [0, 1, 2, 3].foldl (fun n k =>
      let e := s.ich.names.get (bank * 64 + (off - 0x100) % 0x40 + k) 0
      n + (bit (e.testBit 7) 7 + e % 64) * 2 ^ (8 * k)) 0
  else if 0x100 ≤ pg ∧ pg ≤ 0x1FF ∧ off = 0x104 then s.showBeat tile
  else if 0x100 ≤ pg ∧ pg ≤ 0x1FF ∧ off = 0x130 then (s.unsealedSheets tile).length
  else if 0x100 ≤ pg ∧ pg ≤ 0x1FF ∧ off = 0x134 then
    bit (!(s.tile tile).clear.isEmpty) 31 + (s.tile tile).clearLeft % 2 ^ 19
  else if 0x008 ≤ pg ∧ pg ≤ 0x00B ∧ off = 0x114 then (s.part (pg - 0x008)).stepLatch
  else
    let n := s.plainWord pg off (blockFields pg)
    if 0x008 ≤ pg ∧ pg ≤ 0x00B ∧ off = 0x100 then
      n % 2 ^ 25 + s.getF pgHIF (Reg.HIF_RP_CTL_EN.at (pg - 0x008)) * 2 ^ 25 + n / 2 ^ 26 * 2 ^ 26
    else n

/-! ### Reads (08 R233, R243; 13 R372, R386) -/

/-- What a read of a word latches: TMB_POSTMARK the epoch and the fraction of NT, TMB_LTB_LO the high word, TMB_HOST_T_LO the rest of the
last pair, PRT_STEP_LO the high word, and PRT_ROUND the beat, all ones during a hold or with no running image. -/
def State.latchRead (s : State) (pg off : Nat) : State :=
  if !s.pageOpen pg then s
  else if pg = pgTMB ∧ off = 0x100 then
    (s.setF pgTMB Reg.TMB_EPOCH_NT (s.ns / 2 ^ 32)).setF pgTMB Reg.TMB_NT_FRAC_FRAC (s.ntq8 % 256)
  else if pg = pgTMB ∧ off = 0x110 then
    (s.setF pgTMB Reg.TMB_LTB_LO (s.ltb / nsUnit)).setF pgTMB Reg.TMB_LTB_HI (s.ltb / nsUnit / 2 ^ 32)
  else if pg = pgTMB ∧ off = 0x180 then
    (s.set64 pgTMB Reg.TMB_HOST_T_LO Reg.TMB_HOST_T_HI s.time.hostPair.1).set64 pgTMB Reg.TMB_HOST_NT_LO Reg.TMB_HOST_NT_HI
      s.time.hostPair.2
  else if 0x008 ≤ pg ∧ pg ≤ 0x00B ∧ off = 0x110 then
    s.modPart (pg - 0x008) (fun x => { x with stepLatch := s.getF pg Reg.PRT_STEP_HI })
  else if 0x008 ≤ pg ∧ pg ≤ 0x00B ∧ off = 0x104 then
    s.setF pg Reg.PRT_BEAT_BEAT (if s.prtState (pg - 0x008) = prtRUNNING then s.partBeat (pg - 0x008) else 0xFFFFFF)
  else s

/-- A read of a word: what it reads as, and the state after. -/
def State.readWord (s : State) (pg off : Nat) : Nat × State := (s.regWord pg off, s.latchRead pg off)

/-- A read answers the word, bytes of it with the same effects, or two words, the lower address first. -/
def State.readSized (s : State) (pg off : Nat) (size : ReadSize) : State :=
  match size with
  | .word =>
    let (v, s) := s.readWord pg off
    s.emit (.value v)
  | .bytes first count =>
    let (v, s) := s.readWord pg off
    s.emit (.value (v / 2 ^ (8 * first.val) % 2 ^ (8 * count.val)))
  | .pair =>
    let (v, s) := s.readWord pg (off / 8 * 8)
    let (w, s) := s.readWord pg (off / 8 * 8 + 4)
    s.emit (.value (v + w * 2 ^ 32))

/-- A read of TMB_POSTMARK. -/
def execPostmarkRead (size : ReadSize) (s : State) : Host.Outcome State Fault Refusal := .next (s.readSized pgTMB 0x100 size)

/-- A read of TMB_LTB_LO. -/
def execLocalTimeBaseRead (size : ReadSize) (s : State) : Host.Outcome State Fault Refusal := .next (s.readSized pgTMB 0x110 size)

/-- A read of the low word of TMB_HOST_T. -/
def execHostTimeRead (size : ReadSize) (s : State) : Host.Outcome State Fault Refusal := .next (s.readSized pgTMB 0x180 size)

/-- A read of PRT_STEP_LO. -/
def execPrtStepRead (p : PartId) (size : ReadSize) (s : State) : Host.Outcome State Fault Refusal :=
  .next (s.readSized (pgPRT p.val) 0x110 size)

/-- A read of PRT_ROUND. -/
def execPrtRoundRead (p : PartId) (size : ReadSize) (s : State) : Host.Outcome State Fault Refusal :=
  .next (s.readSized (pgPRT p.val) 0x104 size)

end Sys2Proof.Machine
end

