-- ==== Sys2Proof/Machine/Frank.lean ====
section
/-! DEFINITION. The franking pulse (09 R278 to R283; 13 R377). -/

namespace Sys2Proof.Machine

def State.modFranks (s : State) (f : Franks → Franks) : State := { s with franks := f s.franks }

/-- Bits of SNP_STAT.CAUSE, counted from bit 26 of the register. -/
def fkNOW : Nat := 0
def fkPIN : Nat := 1
def fkERR : Nat := 2
def fkROUND : Nat := 3
def fkNT : Nat := 4

/-- Triggers find a held snapshot and may not overwrite it (09 R281). -/
def State.frankHeld (s : State) : Bool := s.getB pgSNP Reg.SNP_STAT_HELD && !s.getB pgSNP Reg.SNP_CTL_OVERWRITE

/-- A trigger detected in a cycle of the timebase joins the frank of that cycle, whose frank NT is the earliest of its triggers', or
makes one (09 R281; DEDUCED, log entry 35). -/
def joinFrank (cycle cause nt : Nat) : List Frank → List Frank
  | [] => [⟨nt, cycle, 2 ^ cause⟩]
  | f :: l => if f.seen = cycle then { f with nt := min f.nt nt, causes := Nat.lor f.causes (2 ^ cause) } :: l
    else f :: joinFrank cycle cause nt l

/-- SNP detects a trigger in a timebase cycle, of a frank at frank NT `nt`. While HELD is set it is missed, unless OVERWRITE is
set. -/
def State.trigger (s : State) (cause cycle nt : Nat) : State :=
  if s.frankHeld then s.addF pgSNP Reg.SNP_MISSED_COUNT 1
  else s.modFranks (fun x => { x with pending := joinFrank cycle cause nt x.pending })

/-- The frank NT of an error, pin or register-write trigger detected in a timebase cycle: the first multiple of 8 ns at least
16 ns after it (09 R279). -/
def frankAt (ns : Nat) : Nat := (ns + 16 + 7) / 8 * 8 * nsUnit

/-- An error, pin or register-write trigger of a timebase cycle. -/
def State.triggerAt (s : State) (cause cycle : Nat) : State := s.trigger cause cycle (frankAt cycle)

/-- SNP_AT as an NT. -/
def State.snpAt (s : State) : Nat := s.get64 pgSNP Reg.SNP_AT_LO Reg.SNP_AT_HI * nsUnit

/-- The armed match: its cause, and the NT at which it comes. A round match is of a round under way of a running partition (09
R278). -/
def State.armedMatch (s : State) : Option (Nat × Nat) :=
  let p := s.getF pgSNP Reg.SNP_CTL_AT_PART
  let b := s.getF pgSNP Reg.SNP_AT_LO % 2 ^ 24
  if !s.getB pgSNP Reg.SNP_CTL_ARM then none
  else if !s.getB pgSNP Reg.SNP_CTL_AT_ROUND then some (fkNT, s.snpAt)
  else if s.prtState p = prtRUNNING ∧ s.round p = s.getF pgSNP Reg.SNP_AT_HI ∧ b < s.roundLen p then some (fkROUND, s.beatNt p b)
  else none

/-- The armed match triggers at the NT at which it comes. -/
def State.triggerMatch (s : State) (cause x : Nat) : State := (s.atLeast x).trigger cause (x / nsUnit) x

/-- NT reaches SNP_AT. -/
def execFrankNtMatch (s : State) : Host.Outcome State Fault Refusal :=
  .next (match s.armedMatch with
    | some (c, x) => if c = fkNT then s.triggerMatch c x else s
    | none => s)

/-- The named partition reaches the armed beat of the armed round; a point that has passed never matches. -/
def execFrankRoundMatch (s : State) : Host.Outcome State Fault Refusal :=
  .next (match s.armedMatch with
    | some (c, x) => if c = fkROUND ∧ s.nt ≤ x then s.triggerMatch c x else s
    | none => s)

/-- FRANK_N falls: an edge the chip drives itself is ignored. -/
def execFrankPinFall (s : State) : Host.Outcome State Fault Refusal :=
  .next (if s.getB pgSNP Reg.SNP_CTL_PIN_IN && s.franks.driveUntil.isNone then s.triggerAt fkPIN s.ns else s)

/-- A write of SNP_CTL.NOW. -/
def execNow (s : State) : Host.Outcome State Fault Refusal := .next (s.triggerAt fkNOW s.ns)

/-- A write of SNP_CTL.RELEASE. -/
def execRelease (s : State) : Host.Outcome State Fault Refusal := .next (s.setF pgSNP Reg.SNP_STAT_HELD 0)

/-- The partition whose round a page shows: its owner, if it holds an image, or on a shared page the lowest-numbered one that runs (09
Table 4). -/
def State.snapPart (s : State) (pg : Nat) : Option Nat :=
  match s.pageOwner pg with
  | some p => if s.holdsImage p then some p else none
  | none => if (regionOfPage pg).isSome then none else allParts.find? (fun p => s.prtState p == prtRUNNING)

/-- The page's block has beats: those of regions, of the interchange and of partitions (08 R244; DEDUCED, log entry 36). -/
def pageHasBeats (pg : Nat) : Bool := (regionOfPage pg).isSome || (decide (0x020 ≤ pg) && decide (pg ≤ 0x023)) ||
  (decide (0x008 ≤ pg) && decide (pg ≤ 0x00B))

/-- Round and beat of partition p whose edge is the first at or after NT x (09 R279). -/
def State.edgeAt (s : State) (p x : Nat) : Nat × Nat :=
  let g := gearRatio (s.part p).gear
  let d := x - (s.part p).startNt
  let b := (d * g.1 + g.2 * nsUnit - 1) / (g.2 * nsUnit)
  if b < s.roundLen p then (s.round p, b) else ((s.round p + 1) % 2 ^ 32, 0)

/-- The beat that a tile's BEAT register shows at the edge that begins a beat: the one before it, at the first beat of a round the last
of the round before (09 R279). -/
def State.beatBefore (s : State) (p : Nat) (e : Nat × Nat) : Nat :=
  if 0 < e.2 then e.2 - 1 else if e.1 = 0 then 0 else s.roundLen p - 1

/-- What word n of a page's snapshot latches at frank NT x (09 Table 4). -/
def State.snapWord (s : State) (pg x n : Nat) : Nat :=
  let at0 := ((s.snapPart pg).filter (fun p => s.prtState p == prtRUNNING)).map (fun p => (p, s.edgeAt p x))
  if n = 0 then x / nsUnit % 2 ^ 32
  else if n = 1 then s.getF pgSNP Reg.SNP_SEQ_COUNT
  else if n = 2 then
    (match at0 with | some e => if pageHasBeats pg then e.2.2 % 2 ^ 24 else 0xFFFFFFFF | none => 0xFFFFFFFF)
  else if n = 3 then (match at0 with
    | some e => e.2.1
    | none => match s.snapPart pg with | some p => s.round p | none => 0xFFFFFFFF)
  else
    let off := 0x100 + 4 * (n - 4)
    if 0x100 ≤ pg ∧ off = 0x104 then
      (match at0 with
       | some e =>
         if s.seqState (pg - 0x100) = seqRUNNING ∨ s.seqState (pg - 0x100) = seqSKIPPED then s.beatBefore e.1 e.2 else s.regWord pg off
       | none => s.regWord pg off)
    else s.regWord pg off

/-- Latch the snapshot of a page that accepts franks. -/
def State.latchPage (s : State) (x pg : Nat) : State :=
  if s.getB pg Reg.BLK_CTRL_SNAP_EN && s.pageOpen pg then
    let l := (List.range 48).map (fun n => (64 * pg + n, s.snapWord pg x n))
    s.modFranks (fun f => { f with snaps := f.snaps.putAll 0 l })
  else s

/-- The pending frank of the earliest frank NT. -/
def firstFrank (l : List Frank) : Option Frank :=
  l.foldl (fun (a : Option Frank) f => match a with
    | none => some f
    | some g => if f.nt < g.nt then some f else some g) none

/-- The frank's cause includes an NT or round match. -/
def Frank.isMatch (f : Frank) : Bool := f.causes.testBit fkNT || f.causes.testBit fkROUND

/-- A frank takes effect: every accepting page latches, HELD sets, a match disarms, FRANK_N is driven and FENCE applies. -/
def State.takeFrank (s : State) (f : Frank) : State :=
  let s := s.addF pgSNP Reg.SNP_SEQ_COUNT 1
  let s := s.setFs pgSNP [(Reg.SNP_STAT_HELD, 1), (Reg.SNP_STAT_CAUSE, f.causes)]
  let s := s.set64 pgSNP Reg.SNP_NT_LO Reg.SNP_NT_HI (f.nt / nsUnit)
  let s := if f.isMatch then s.devSet pgSNP Reg.SNP_CTL_ARM 0 (f.nt / nsUnit) else s
  let s := s.forEach allPages (fun s pg => s.latchPage f.nt pg)
  let s := if s.getB pgSNP Reg.SNP_CTL_PIN_OUT && f.causes != 2 ^ fkPIN then
    s.modFranks (fun x => { x with driveUntil := some (f.nt + 1000 * nsUnit) }) else s
  if s.getB pgSNP Reg.SNP_CTL_FENCE then
    s.forEach (allParts.filter (fun p => s.prtState p == prtRUNNING)) (fun s p =>
      s.modPart p (fun x => { x with fenceAsked := true }))
  else s

/-- A pending frank takes effect at its frank NT; one that finds a snapshot held since its triggers were detected latches nothing,
and they are missed (09 R281). -/
def State.latchFrank (s : State) (f : Frank) : State :=
  let s := (s.atLeast f.nt).modFranks (fun x => { x with pending := x.pending.erase f })
  if s.frankHeld then s.addF pgSNP Reg.SNP_MISSED_COUNT (onesIn 5 f.causes) else s.takeFrank f

/-- The earliest frank pending takes effect. -/
def execFrankLatch (s : State) : Host.Outcome State Fault Refusal :=
  .next (match firstFrank s.franks.pending with
    | none => s
    | some f => s.latchFrank f)

/-! ### Writes of SNP_CTL -/

/-- What a write of SNP_CTL finds: match franks of earlier cycles have taken effect, and an armed match that comes in this cycle has
triggered. -/
def State.frankCatch (s : State) : State :=
  let s := s.forEach (s.franks.pending.filter (fun f => f.isMatch && decide (f.nt / nsUnit < s.ns))) (fun s f => s.latchFrank f)
  match s.armedMatch with
  | some (c, x) =>
    if x / nsUnit = s.ns ∧ ¬ s.frankHeld ∧ ¬ s.franks.pending.any Frank.isMatch then s.trigger c s.ns x else s
  | none => s

/-- A match frank takes effect in this cycle: the device changes ARM (13 R382). -/
def State.disarms (s : State) : Bool :=
  s.devMet pgSNP Reg.SNP_CTL_ARM || s.franks.pending.any (fun f => f.isMatch && f.nt / nsUnit == s.ns)

/-- The RW fields of SNP_CTL but for ARM. -/
def snpCtlFields : List Fld :=
  [Reg.SNP_CTL_AT_ROUND, Reg.SNP_CTL_AT_PART, Reg.SNP_CTL_PIN_IN, Reg.SNP_CTL_PIN_OUT, Reg.SNP_CTL_ERR_DATA, Reg.SNP_CTL_ERR_CTL,
   Reg.SNP_CTL_FENCE, Reg.SNP_CTL_OVERWRITE]

/-- A write of SNP_CTL, which is lost for ARM where a match frank takes effect in its cycle. Arming an NT match whose SNP_AT has
passed franks at once, as for NOW. -/
def execFrankMatchArm (v : BitVec 32) (s : State) : Host.Outcome State Fault Refusal :=
  let w := v.toNat
  let s := s.frankCatch
  let lost := s.disarms
  let s := s.setFs pgSNP (snpCtlFields.map (fun f => (f, bits w f.hi f.lo)))
  let s := if lost then s else s.setF pgSNP Reg.SNP_CTL_ARM (bits w 29 29)
  let s := if w.testBit 30 then s.setF pgSNP Reg.SNP_STAT_HELD 0 else s
  let s := if w.testBit 31 then s.triggerAt fkNOW s.ns else s
  .next (if w.testBit 29 && !lost && !w.testBit 28 && decide (s.snpAt < s.nt) then s.triggerAt fkNT s.ns else s)

/-- 1 µs after the frank NT the chip releases FRANK_N. -/
def execFrankPinRelease (s : State) : Host.Outcome State Fault Refusal :=
  .next (match s.franks.driveUntil with
    | none => s
    | some t => (s.atLeast t).modFranks (fun x => { x with driveUntil := none }))

end Sys2Proof.Machine
end

