-- ==== Sys2Proof/Machine/Gear.lean ====
section
/-! DEFINITION. Gears: arming, the governor, region monitors, droop and skew (08 R245, R249 to R257). -/

namespace Sys2Proof.Machine

/-! ### The timebase's arming (08 R249) -/

/-- A write of TMB_GEAR with ARM set arms NEXT for the boundary in TMB_GEAR_AT. -/
def execGearArm (next : BitVec 3) (s : State) : Host.Outcome State Fault Refusal :=
  .next (s.armGear next.toNat (s.get64 pgTMB Reg.TMB_GEAR_AT_LO Reg.TMB_GEAR_AT_HI))

/-- A write of TMB_GEAR with ARM 0 cancels an armed change; one that meets the change in effect is lost for ARM (13 R382). NEXT is
written all the same, but for a reserved code. -/
def execGearCancel (next : BitVec 3) (s : State) : Host.Outcome State Fault Refusal :=
  let s := s.gearCatch.hostSet pgTMB Reg.TMB_GEAR_ARM 0
  .next (if next.toNat ≤ 5 then s.setF pgTMB Reg.TMB_GEAR_NEXT next.toNat else s)

/-! ### The governor (08 R250, R251, R254, R255) -/

/-- The range that every image this chip governs declares: fastest and slowest gear. -/
def State.gearRange (s : State) : Nat × Nat :=
  s.governed.foldl (fun r p => (max r.1 (s.getF (pgPRT p) Reg.PRT_GEARS_FAST), min r.2 (s.getF (pgPRT p) Reg.PRT_GEARS_SLOW)))
    (s.getF pgTMB Reg.TMB_GEAR_TOP, 5)

/-- A change to a gear slower than g or to g is announced and has not taken effect. -/
def State.slowerPending (s : State) (g : Nat) : Bool :=
  s.getB pgTMB Reg.TMB_GEAR_ARM && decide (g ≤ s.getF pgTMB Reg.TMB_GEAR_NEXT)

/-- Every region of this chip is calibrated for gear g (08 R256). -/
def State.gearValid (s : State) (g : Nat) : Bool := s.regions.all (fun r => s.getB (pgRGN r) (Reg.RGN_VF_VALID.at g))

/-- A request for the next lower gear that is valid here, within the range and down to `limit`. -/
def State.shiftDown (s : State) (limit : Nat) : State :=
  match (List.range 6).find? (fun g => decide (s.gear < g) && s.gearValid g) with
  | none => s
  | some g => if s.slowerPending g ∨ min limit s.gearRange.2 < g then s else s.announceGear g

/-- The slowest gear that a request may bring: G5 is announced only after an emergency at G4 of a job this chip governs (08 R255). -/
def State.gearLimit (s : State) : GearCause → Nat
  | .emergency => if s.governed.any (fun p => (s.part p).emerg && (s.part p).emergGear == 4) then 5 else 4
  | .headroom | .power | .host _ => 4

/-- What a request says of its cause: 1 for an emergency. -/
def gearCode : GearCause → Nat
  | .emergency => 1
  | .headroom | .power | .host _ => 0

/-- The Clerk asks the governors of the jobs that run here for a lower gear, itself where it governs one (08 R250, R253; 14 R408,
R409). -/
def State.askLower (s : State) (c : GearCause) : State :=
  if !s.mgmt.clerkUp then s
  else
    let s := s.forEach (allParts.filter (fun p => s.partRuns p && !s.governs p)) (fun s p => s.tellGovernor p [6, gearCode c])
    if s.governed.isEmpty then s else s.shiftDown (s.gearLimit c)

/-- The host asks the governor for a gear: within the declared range, G5 apart, and valid here; an up-shift polls every chip first. -/
def State.hostGear (s : State) (g : Nat) : State :=
  let r := s.gearRange
  if g < r.1 ∨ min 4 r.2 < g ∨ s.getB pgTMB Reg.TMB_GEAR_ARM ∨ g = s.gear ∨ ¬ s.gearValid g then s
  else if s.gear < g then s.announceGear g
  else
    let s := s.forEach s.otherChips (fun s c => s.clerkMessage 0 c [2, g])
    { s with gov := { s.gov with poll := some g, answers := [] } }

/-- Headroom, power or an emergency on this chip asks the governor of partition p's job for a lower gear; the host asks a governor for any
gear. -/
def execGearRequest (p : PartId) (c : GearCause) (s : State) : Host.Outcome State Fault Refusal :=
  .next (if !s.mgmt.clerkUp then s
  else match c with
    | .host gear => if s.governs p.val then s.hostGear gear.toNat else s
    | c => if s.governs p.val then s.shiftDown (s.gearLimit c)
      else if s.partRuns p.val then s.tellGovernor p.val [6, gearCode c] else s)

/-- This chip's answer to a poll (08 R257): each region's replica slack at the target gear meets its reference, and its rail
stays within RGN_VMAX. A gear not calibrated is not used (08 R256). -/
def State.pollGo (s : State) (g : Nat) (slacks : List (BitVec 16)) : Bool :=
  s.regions.all (fun r =>
    decide ((s.rmon r).reference.getD g 0 ≤ (slacks.getD r 0).toNat) &&
      decide (s.railFor r g ≤ s.rgnValue r Reg.RGN_VMAX_MV) && s.getB (pgRGN r) (Reg.RGN_VF_VALID.at g))

/-- The governor has a chip's answer: one NOGO ends the poll, and the last GO announces the gear. -/
def State.takeAnswer (s : State) (c g : Nat) (go : Bool) : State :=
  if s.gov.poll ≠ some g then s
  else if !go then { s with gov := { s.gov with poll := none, answers := [] } }
  else
    let s := { s with gov := { s.gov with answers := (c, go) :: s.gov.answers } }
    if (s.chipId :: s.otherChips).all (fun k => s.gov.answers.any (fun e => e.1 == k)) then s.announceGear g else s

/-- The region monitors of this chip test the gear it is polled for, as the governor itself or by a governor's message, and the Clerk
answers. -/
def execGearPoll (gear : BitVec 3) (slacks : List (BitVec 16)) (s : State) : Host.Outcome State Fault Refusal :=
  let g := gear.toNat
  let go := s.pollGo g slacks
  .next (if !s.mgmt.clerkUp then s
  else if s.gov.poll = some g then s.takeAnswer s.chipId g go
  else match s.gov.asked with
    | some (c, k) =>
      if k = g then ({ s with gov := { s.gov with asked := none } } : State).clerkMessage 0 c [3, g, bit go 0] else s
    | none => s)

/-- A chip receives an announcement: its Clerk arms and acknowledges. -/
def State.takeAnnouncement (s : State) (c g tb : Nat) : State :=
  if s.mgmt.clerkUp then (s.armGear g tb).clerkMessage 0 c [4, g] else s

def execGearAnnounce (chip : BitVec 16) (gear : BitVec 3) (tb : BitVec 64) (s : State) : Host.Outcome State Fault Refusal :=
  .next (s.takeAnnouncement chip.toNat gear.toNat tb.toNat)

/-- The governor notes an acknowledgement. One of an earlier announcement counts for the one now out: the gear it carries is not
compared (DESIGN CHOICE, log entry 102). -/
def State.takeAck (s : State) (c : Nat) : State :=
  if s.mgmt.clerkUp then { s with gov := { s.gov with waiting := s.gov.waiting.filter (fun k => k != c) } } else s

def execGearAck (chip : BitVec 16) (s : State) : Host.Outcome State Fault Refusal := .next (s.takeAck chip.toNat)

/-- One gear period before Tb the governor resends once to the chips that have not acknowledged. -/
def execGearAckResendExpiry (s : State) : Host.Outcome State Fault Refusal :=
  .next (match s.gov.announced with
    | none => s
    | some (g, tb) =>
      if s.gov.waiting.isEmpty || s.gov.resent || !s.mgmt.clerkUp then s
      else
        let s := s.atLeast ((tb - 2 ^ 20) * nsUnit)
        let s := s.forEach s.gov.waiting (fun s c => s.sendAnnouncement c g tb)
        { s with gov := { s.gov with resent := true } })

/-- At Tb − 2^19 ns a chip that has not acknowledged is declared failed. -/
def execGearAckFailExpiry (s : State) : Host.Outcome State Fault Refusal :=
  .next (match s.gov.announced with
    | none => s
    | some (_, tb) =>
      if s.gov.waiting.isEmpty || !s.mgmt.clerkUp then s
      else
        let s := s.atLeast ((tb - 2 ^ 19) * nsUnit)
        let l := s.gov.waiting
        let s := { s with gov := { s.gov with waiting := [], failed := l ++ s.gov.failed } }
        s.forEach l (fun s c => s.forEach (s.governed.filter (fun p => (s.jobChips p).contains c)) (fun s p =>
          s.declareFailed p c)))

/-- The governor's district is lost: the image's deputy, or where that is lost too the lowest chip of the part that is left, governs
from the next round start, for which a position during a hold counts (08 R251, 10 R309; DEDUCED, log entry 97). -/
def execDeputyTakeover (p : PartId) (s : State) : Host.Outcome State Fault Refusal :=
  let p := p.val
  .next (match s.image p with
    | none => s
    | some im =>
      if s.districtGone p im.governor && s.governorOf p im == s.chipId then s.modPart p (fun x => { x with deputyNext := true })
      else s)

/-! ### Region monitors (08 R245, R253, R254, R259) -/

/-- The part has the region (00 R4). -/
def State.hasRegion (s : State) (r : Nat) : Bool := decide (r < s.getF pgDEV Reg.DEV_CAPS_REGIONS)

/-- The rail follows its set point; when it first needs more than RGN_VMAX the Clerk asks for a lower gear. -/
def State.holdRail (s : State) (r : Nat) : State :=
  let was := s.getB (pgRGN r) Reg.RGN_STAT_HEADROOM
  let s := s.trackRail r
  if !was && s.getB (pgRGN r) Reg.RGN_STAT_HEADROOM then s.askLower .headroom else s

/-- A region monitor's offset changes, and the rail follows. -/
def State.moveOffset (s : State) (r : Nat) (f : Nat → Nat) : State :=
  (s.modRmon r (fun x => { x with offset := f x.offset })).holdRail r

/-- What a measured slack does to the offset and to the count of the 1 ms above twice the guard. -/
def Rmon.measure (x : Rmon) (slack guard nt : Nat) : Rmon :=
  if slack < guard then { x with offset := x.offset + 5, above := none }
  else if 2 * guard < slack then
    match x.above with
    | none => { x with above := some nt }
    | some t => if t + 1000000 * nsUnit ≤ nt then { x with offset := x.offset - 5, above := some nt } else x
  else { x with above := none }

/-- A measurement, 1 µs after the last one: 5 mV more below the guard, 5 mV less after 1 ms above twice the guard. Registers written since the last one
take effect, and the rail follows. -/
def execRmonMeasure (r : RegionId) (slack : BitVec 16) (s : State) : Host.Outcome State Fault Refusal :=
  let r := r.val
  let g := s.getF (pgRGN r) Reg.RGN_GUARD_MIN_PS
  .next (if !s.hasRegion r then s
  else
    let s := match (s.rmon r).lastNt with | some t => s.atLeast (t + 1000 * nsUnit) | none => s
    ((s.setF (pgRGN r) Reg.RGN_STAT_SLACK slack.toNat).modRmon r (fun x =>
      ({ x with old := [], lastNt := some s.nt } : Rmon).measure slack.toNat g s.nt)).holdRail r)

/-- The rail lies as far below its set point as a droop threshold says (08 R254). -/
def State.droops (s : State) (r : Nat) (f : Fld) (mv : Nat) : Bool :=
  s.hasRegion r && decide (mv + s.rgnValue r f ≤ s.getF (pgRGN r) Reg.RGN_VOLT_MV)

/-- The rail is at `mv`: at the warning threshold or below, A rises by 5 mV at once. -/
def execDroopWarn (r : RegionId) (mv : BitVec 12) (s : State) : Host.Outcome State Fault Refusal :=
  .next (if s.droops r.val Reg.RGN_DROOP_WARN_MV mv.toNat then
    (s.setF (pgRGN r.val) Reg.RGN_STAT_WARN 1).moveOffset r.val (· + 5) else s)

/-- The rail is at `mv`: at the emergency threshold or below it moves to RGN_VMAX, and code 0x1041 aborts the present round of every
running partition when its record is made. -/
def execDroopEmergency (r : RegionId) (mv : BitVec 12) (s : State) : Host.Outcome State Fault Refusal :=
  let pg := pgRGN r.val
  .next (if s.droops r.val Reg.RGN_DROOP_EMERG_MV mv.toNat then
    (((s.setF pg Reg.RGN_STAT_EMERG 1).modRmon r.val (fun x => { x with held := true })).trackRail r.val).raiseCode 0x1041 pg 0
      (s.partOfRegion r.val)
  else s)

/-- A beat-edge error is reported; beyond ±50 ps it sets SKEW and raises code 0x1040. -/
def execClockSkewExceeded (r : RegionId) (ps : BitVec 16) (s : State) : Host.Outcome State Fault Refusal :=
  let pg := pgRGN r.val
  .next (if !s.hasRegion r.val then s
  else
    let s := s.setF pg Reg.RGN_SKEW_PS ps.toNat
    if 50 < (sgn 16 ps.toNat).natAbs then
      (s.setF pg Reg.RGN_STAT_SKEW 1).raiseCode 0x1040 pg 0 (s.partOfRegion r.val) else s)

end Sys2Proof.Machine
end

