-- ==== Sys2Proof/Machine/Recovery.lean ====
section
/-! DEFINITION. Incident records, abort and resume notices, roll calls, replays and failover (10 R285 to R310). -/

namespace Sys2Proof.Machine

/-! ### Incident records (10 R285 to R287) -/

/-- Detection order: timebase cycle, then BLOCK, then INSTANCE. -/
def Incident.before (a b : Incident) : Bool :=
  let x := a.nt / nsUnit
  let y := b.nt / nsUnit
  decide (x < y) || (x == y && (decide (a.block < b.block) || (a.block == b.block && decide (a.inst < b.inst))))

/-- The incident to be recorded next, and the others. -/
def firstIncident : List Incident → Option (Incident × List Incident)
  | [] => none
  | i :: l =>
    match firstIncident l with
    | none => some (i, l)
    | some (j, m) => if j.before i then some (j, i :: m) else some (i, l)

/-- The hottest sensor of the die, as RGN_TEMP holds it. -/
def State.dieTemp (s : State) : Nat :=
  s.regions.foldl (fun n r =>
    let v := s.getF (pgRGN r) Reg.RGN_TEMP_T
    if sgn 16 n < sgn 16 v then v else n) (s.getF (pgRGN 0) Reg.RGN_TEMP_T)

/-- A content of a record that stands open becomes a free value. -/
def State.fillOpen (s : State) (v : Nat) : Nat × State := if v = openData then s.freeBits 64 else (v, s)

/-- The incident with its SYNDROME and EXTRA as the record will show them (DESIGN CHOICE, log entry 90). -/
def State.fillRecord (s : State) (i : Incident) : Incident × State :=
  let x := s.fillOpen i.syndrome
  let y := x.2.fillOpen i.extra
  ({ i with syndrome := x.1, extra := y.1 }, y.2)

/-- The 64 B record of an incident (10 Table 1). -/
def State.recordBytes (s : State) (i : Incident) (seq : Nat) : List Byte :=
  let r := regionOfPage i.block
  let temp := match r with | some r => s.getF (pgRGN r) Reg.RGN_TEMP_T | none => s.dieTemp
  let volt := match r with | some r => s.getF (pgRGN r) Reg.RGN_VOLT_MV | none => 0
  let b := leBytes (i.nt / nsUnit) 8 ++ leBytes s.chipId 2 ++ leBytes i.block 2 ++ leBytes i.inst 1 ++ leBytes (codeClass i.code) 1 ++
    leBytes i.code 2 ++ leBytes (i.round.getD 0xFFFFFFFF) 4 ++ leBytes i.beat 4 ++ leBytes i.op 2 ++ leBytes i.handle 1 ++
    leBytes 0 1 ++ leBytes i.offset 4 ++ leBytes temp 2 ++ leBytes volt 2 ++ leBytes s.gear 1 ++ leBytes (i.part.getD 0xFF) 1 ++
    leBytes (i.tenant.getD 0xFFFF) 2 ++ leBytes i.syndrome 8 ++ leBytes i.extra 8
  let c := leBytes (crc32c b).toNat 4
  b ++ leBytes seq 4 ++ c

/-- Records with one BLOCK, INSTANCE and CODE made in the incident's round; outside a round there is no limit. -/
def State.recordKey (_s : State) (i : Incident) : Option (Nat × Nat × Nat × Nat) :=
  i.round.map (fun n => (i.block, i.inst, i.code, i.part.getD 4 * 2 ^ 32 + n))

def State.recordFull (s : State) (i : Incident) : Bool :=
  match s.recordKey i with
  | none => false
  | some k => decide (64 ≤ (s.mgmt.recordCounts.filter (· == k)).length)

/-- Write a record into the host ring; PF vector 0 (10 R286; 11 R335). -/
def State.ringRecord (s : State) (l : List Byte) : State :=
  if !s.getB pgETU Reg.ETU_CTL_EN then s
  else
    let n := 2 ^ max 6 (min 20 (s.getF pgETU Reg.ETU_RING_SIZE_LOG2))
    let h := s.getF pgETU Reg.ETU_RING_HEAD_RECORDS
    let t := s.getF pgETU Reg.ETU_RING_TAIL_RECORDS
    if n ≤ (h + 2 ^ 32 - t) % 2 ^ 32 ∨ ¬ s.dmaOk then
      (s.setF pgETU Reg.ETU_STAT_LOST 1).addF pgETU Reg.ETU_LOSTCNT_COUNT 1
    else
      let base := s.get64 pgETU Reg.ETU_RING_BASE_LO Reg.ETU_RING_BASE_HI
      (((s.pfTransfer 64).hostWrite 0 (base - base % 4096 + h % n * 64) l).addF pgETU Reg.ETU_RING_HEAD_RECORDS 1).pfInt 0

/-- Make the record: SEQ, the Clerk (which keeps 1,024 while it restarts, 12 R343) and the ring. Its SEQ is returned. -/
def State.makeRecord (s : State) (i : Incident) : Nat × State :=
  let seq := s.getF pgETU Reg.ETU_SEQ_NEXT
  let l := s.recordBytes i seq
  let s := s.addF pgETU Reg.ETU_SEQ_NEXT 1
  let s := s.modMgmt (fun m => { m with
    recordCounts := match s.recordKey i with | none => m.recordCounts | some k => k :: m.recordCounts,
    clerkRecords := if m.clerkUp ∨ 1024 ≤ m.clerkRecords.length then m.clerkRecords else m.clerkRecords ++ [l] })
  (seq, s.ringRecord l)

/-- Codes whose Effect is Abort (10 Table 2). -/
def abortCodes : List Nat :=
  [0x1001, 0x1002, 0x1003, 0x1004, 0x1005, 0x1007, 0x1008, 0x1010, 0x1011, 0x1012, 0x1013, 0x1014, 0x1030, 0x1040, 0x1041]

/-- The Repeat column of 10 Table 2. -/
inductive Repeat where
  | hardware | image | gear
  deriving DecidableEq, Repr

def repeatOf (code : Nat) : Repeat :=
  if code = 0x1041 then .gear
  else if [0x1002, 0x1005, 0x1007, 0x1013, 0x1030, 0x1040].contains code then .hardware else .image

/-- Abort a round of a partition by an incident, and keep it for the comparison of replays. -/
def State.abortBy (s : State) (i : Incident) (p j seq : Nat) : State :=
  let cause := bit (i.code == 0x1041) 0 + bit (s.jobLinkLost p) 1
  let s := s.abortOwn p j cause seq
  s.modPart p (fun x => { x with attempt := x.attempt ++ [⟨s.chipId, i.block, i.inst, i.code, seq, i.syndrome⟩] })

/-- A reset by a control incident with this SEQ takes the chip out of partition p's job: the Clerk tells the chip that fails it over, and
the job goes on as for a failed chip (10 R289, R305). While the Clerk is down that waits for it. -/
def State.leaveJob (s : State) (p seq : Nat) : State :=
  match s.image p with
  | none => s
  | some im =>
    let g := s.keeperOf p im [s.chipId]
    if s.mgmt.clerkUp then s.clerkMessage p g [12]
    else s.modMgmt (fun m => { m with leaves := m.leaves ++ [(seq, p, g)] })

/-- The restarted Clerk finds them among the records kept for it (12 R343). -/
def State.tellLeaves (s : State) : State :=
  let kept := s.mgmt.leaves.filter (fun e => s.mgmt.clerkRecords.any (fun l => leNat (slice l 56 60) == e.1))
  (s.forEach kept (fun s e => s.clerkMessage e.2.1 e.2.2 [12])).modMgmt (fun m => { m with leaves := [] })

/-- An emergency while a partition holds: its replay waits for a gear lower than the one now in force (08 R254, R255). -/
def State.emergeHeld (s : State) (p seq : Nat) : State :=
  (s.abortOwn p (s.getF pgETU (Reg.ETU_RCV_ABORT_ROUND.at p)) 1 seq).modPart p (fun x => { x with emergGear := s.gear })

/-- The containment action of an incident (10 R287 to R289; 08 R245, R254). -/
def State.contain (s : State) (i : Incident) (seq : Nat) : State :=
  if i.code = 0x1040 ∨ i.code = 0x1041 then
    let held := allParts.filter (fun q => i.code == 0x1041 && s.prtState q == prtHOLDING)
    let s := s.forEach (allParts.filter (fun q => s.prtState q == prtRUNNING)) (fun s q =>
      s.abortBy i q (match i.round with | some j => if i.part = some q then j else s.round q | none => s.round q) seq)
    s.forEach held (fun s q => s.emergeHeld q seq)
  else if abortCodes.contains i.code then
    match i.part, i.round with
    | some p, some j => s.abortBy i p j seq
    | _, _ => s
  else if i.code = 0x2007 ∨ i.code = 0x1031 ∨ i.code = 0x3012 then
    match i.part with | some p => s.askFence p | none => s
  else if codeClass i.code = 2 then
    match i.part with | some p => (s.leaveJob p seq).beginPartReset p | none => s.chipReset false
  else s

/-- The ETU takes the next incident: BLK_ERR, the record, a frank and the containment action (13 R376; 09 R278). -/
def execIncidentRecord (s : State) : Host.Outcome State Fault Refusal :=
  .next (match firstIncident s.incidents with
    | none => s
    | some (i, rest) =>
      let (i, s) := { s with incidents := rest }.fillRecord i
      let c := codeClass i.code
      let s := s.setF i.block (if c = 0 then Reg.BLK_ERR_INFO else if c = 1 then Reg.BLK_ERR_DATA else Reg.BLK_ERR_CONTROL) 1
      let (seq, s) := if s.recordFull i then (0, s.addF pgETU Reg.ETU_SUPPCNT_COUNT 1) else s.makeRecord i
      let s := if (c = 1 ∧ s.getB pgSNP Reg.SNP_CTL_ERR_DATA) ∨ (c = 2 ∧ s.getB pgSNP Reg.SNP_CTL_ERR_CTL) then
        s.triggerAt fkERR (i.nt / nsUnit) else s
      s.contain i seq)

/-! ### Notices (10 R295, R296, R299, R308) -/

/-- A notice as the Clerk gets it, as a copy (10 R295). -/
def State.clerkCopy (s : State) (p ty cause epoch origin : Nat) (body : List Byte) : State :=
  let f := mkPacket s 6 0 p s.chipId 0xA00 0 0 false (noticeWords ty p cause epoch origin body)
  s.modMgmt (fun m => { m with clerkInbox := m.clerkInbox ++ [{ f with hdr := { f.hdr with src := origin, hops := 0 } }] })

/-- An ABORT notice that arrived on port x. -/
def State.takeAbort (s : State) (x p cause e origin j seq : Nat) : State :=
  if ¬ s.partRuns p ∨ e < s.epoch p then s
  else
    let (new, s) := s.takeNotice p 1 e origin j
    if !new then s
    else if s.epoch p < e then (s.raiseCode 0x2007 pgETU 0 (some p)).askFence p
    else if j = (s.part p).nextRound ∧ s.prtState p = prtRUNNING then
      s.sendNotice p 1 cause e origin (leBytes j 4 ++ leBytes seq 4) (some x)
    else s.abortRound p j cause e origin seq (some x)

def execAbortNotice (port : PortId) (p : PartId) (cause : BitVec 8) (epoch origin : BitVec 16) (round seq : BitVec 32)
    (s : State) : Host.Outcome State Fault Refusal :=
  let body := leBytes round.toNat 4 ++ leBytes seq.toNat 4
  .next ((s.clerkCopy p.val 1 cause.toNat epoch.toNat origin.toNat body).takeAbort port.val p.val cause.toNat epoch.toNat
    origin.toNat round.toNat seq.toNat)

/-- A RESUME notice that arrived on port x names the replay start; one for a START already passed fences. -/
def State.takeResume (s : State) (x p e origin start : Nat) : State :=
  if ¬ s.partRuns p ∨ e ≠ s.epoch p then s
  else
    let (new, s) := s.takeNotice p 2 e origin start
    if !new then s
    else
      let s := s.sendNotice p 2 0 e origin (leBytes start 8) (some x)
      if start * nsUnit < s.nt then (s.raiseCode 0x2007 pgETU 0 (some p)).askFence p
      else s.modPart p (fun x => { x with replayAt := some (start * nsUnit) })

def execResumeNotice (port : PortId) (p : PartId) (epoch origin : BitVec 16) (start : BitVec 64) (s : State) :
    Host.Outcome State Fault Refusal :=
  .next ((s.clerkCopy p.val 2 0 epoch.toNat origin.toNat (leBytes start.toNat 8)).takeResume port.val p.val epoch.toNat
    origin.toNat start.toNat)

/-- A ROLLCALL notice that arrived on port x counts a district. -/
def State.takeRollcall (s : State) (x p e origin district : Nat) : State :=
  if ¬ s.partRuns p ∨ e ≠ s.epoch p then s
  else
    let (new, s) := s.takeNotice p 3 e origin district
    if !new then s
    else
      let s := s.modPart p (fun x => { x with districts := (district :: x.districts).eraseDups })
      s.sendNotice p 3 0 e origin (leBytes district 2) (some x)

def execRollcallNotice (port : PortId) (p : PartId) (epoch origin district : BitVec 16) (s : State) :
    Host.Outcome State Fault Refusal :=
  .next ((s.clerkCopy p.val 3 0 epoch.toNat origin.toNat (leBytes district.toNat 2)).takeRollcall port.val p.val epoch.toNat
    origin.toNat district.toNat)

/-- Chip c of partition p's job has not answered the roll call, and every chip that has and that its section links to c has told of the
loss (10 R305). -/
def State.silent (s : State) (p : Nat) (im : Image) (c : Nat) : Bool :=
  !s.counted p c && im.chips.all (fun k => !s.counted p k || !linked im k c ||
    (if k = s.chipId then (s.lostPeers p).contains c else (s.part p).lossTold.contains (k, c)))

/-- The part continues: it counts more than half of the job's districts, or half and the anchor district (10 R308). -/
def State.continues (s : State) (p : Nat) (im : Image) : Bool :=
  let n := (s.part p).districts.length
  let d := im.districts.length
  let anchor := (im.districts.map (·.number)).foldl min 0xFFFF
  decide (d < 2 * n) || (2 * n == d && (s.part p).districts.contains anchor)

/-- In a part that continues the chip that keeps the job declares the silent chips failed (10 R305, R309). -/
def State.declareSilent (s : State) (p : Nat) : State :=
  match s.image p with
  | none => s
  | some im =>
    if s.mgmt.clerkUp && s.rollcallOver p && s.continues p im && s.keeps p then
      s.forEach (im.chips.filter (s.silent p im)) (fun s c => s.declareFailed p c)
    else s

/-- After 1 ms the part continues, and tells the losses it has declared since, or it fences. -/
def execRollcallWindowExpiry (p : PartId) (s : State) : Host.Outcome State Fault Refusal :=
  let p := p.val
  .next (match (s.part p).rollcall, s.image p with
    | some t, some im =>
      let s := s.atLeast (t + 1000000 * nsUnit)
      if s.continues p im then (s.tellLosses p).declareSilent p else s.askFence p
    | _, _ => s)

/-- Chip k has declared link loss to chip c. -/
def State.takeLoss (s : State) (p k c : Nat) : State :=
  if s.partRuns p then (s.modPart p (fun x => { x with lossTold := ((k, c) :: x.lossTold).eraseDups })).declareSilent p else s

/-! ### Replay (10 R298, R300) -/

/-- Restore a round-start state: the tiles with their weight planes, which the spec does not name among what it keeps (DESIGN CHOICE,
log entry 92), counters, STEP, the generation and the swap registers (R191, R292, R300). A swap armed for a failover's detour set
stays armed: it is to take place at this replay start (R306; DEDUCED, log entry 60). -/
def State.restore (s : State) (p : Nat) (z : RoundStart) (detours : Bool) : State :=
  let s := s.forEach (s.tilesOf p) (fun s t =>
    let d := (z.drops.find? (fun e => e.1 == t)).map (·.2)
    let s := s.modTile t (fun x => { x with arch := z.tiles.get t .reset })
    s.setFs (pgTIL t) [(Reg.TIL_DISPATCH_DROPS_COUNT, (d.getD (0, 0)).1), (Reg.TIL_CKMIS_CNT_COUNT, (d.getD (0, 0)).2)])
  let s := s.set64 (pgPRT p) Reg.PRT_STEP_LO Reg.PRT_STEP_HI z.step
  let s := (s.setFs pgICH [(Reg.ICH_SWAP_GEN.at p, z.gen), (Reg.ICH_SWAP_DRAINING.at p, z.draining)]).modPart p
    (fun x => { x with swapNt := z.swapNt })
  if detours then s
  else (s.devSet pgICH (Reg.ICH_SWAP_ARM.at p) z.arm s.ns).set64 pgICH (Reg.ICH_TT_SWAP_LO.at p) (Reg.ICH_TT_SWAP_HI.at p) z.swapT

/-- The spare that takes the lost chip's place. -/
def Failover.spare (f : Failover) : Option Nat :=
  (f.image.bind (fun im => im.districts.find? (fun d => d.chips.contains f.lost))).map (·.spare)

/-- The TARGET at which the twin streams restorable handle i of a lost position whose section opens no window to it (DESIGN CHOICE, log
entry 98). -/
def streamTarget (i : Nat) : Nat := 0xFFFF0000 + i

/-- The spare's Clerk closes the windows it opened for the stream. -/
def State.closeStreams (s : State) (p : Nat) : State :=
  s.forEach ((List.range 32).filter (fun i => rwt s Reg.RWT_PART i == p && decide (streamTarget 0 ≤ rwt s Reg.RWT_TARGET i)))
    (fun s i => s.setF pgPH (Reg.RWT_VALID.at i) 0)

/-- The replay of round j begins at NT `at0`. -/
def State.beginReplay (s : State) (p at0 : Nat) (z : RoundStart) : State :=
  let j := z.round
  let fs := (s.part p).failovers
  let detours := fs.any (·.detours)
  let s := (s.restore p z detours).addF pgETU (Reg.ETU_RCV_EPOCH.at p) 1
  let s := (s.setTiles (s.tilesOf p) seqHALTED false).setPrtState p prtRUNNING
  let s := (s.endRound p j).enterRound p j at0 z.runs
  let s := s.modPart p (fun x => { x with
    starts := x.starts.filter (fun y => y.round == j || (y.round + 1) % 2 ^ 32 == j)
    manifests := x.manifests.filter (fun m => m.round == j)
    emerg := false, link := false, replayAt := none, rollcall := none, districts := [], lossTold := [], failovers := []
    lost := x.lost.filter (fun c => !fs.any (fun f => f.lost == c)), spent := fs.filterMap Failover.spare ++ x.spent
    lastAttempt := if x.attempt.isEmpty then x.lastAttempt else x.attempt, attempt := [] })
  let s := (if detours then s.swap p at0 else s).closeStreams p |>.showHeld p
  let s := (s.showCause p).teardowns p at0
  ((s.resumeLinks p).ownManifest p).startTiles p z.runs

/-- The replay start (R298): a gear change due takes effect, S_j is restored, and round j runs again in the next epoch. It is a round
start: one that comes too late in a holdover fences (08 R241). -/
def execReplayStart (p : PartId) (s : State) : Host.Outcome State Fault Refusal :=
  let p := p.val
  .next (if s.prtState p = prtHOLDING ∧ s.replayDue p then
    let at0 := (s.part p).nextNt
    let s := s.atLeast at0
    let s := ((if s.gearDue at0 then s.applyGear at0 else s).deputyStarts p).holdoverFences at0
    if (s.part p).fenceAsked || s.holdoverLong at0 then s.fence p
    else match (s.part p).starts.find? (fun z => z.round == s.getF pgETU (Reg.ETU_RCV_ABORT_ROUND.at p)) with
      | none => s
      | some z => s.beginReplay p at0 z
  else s)

/-! ### Transient and permanent faults (10 R301, R302) -/

/-- The physical index of a logical tile. -/
def State.physTile (s : State) (t : Nat) : Nat :=
  let d := s.mgmt.hidden.get (t / 16) 16
  17 * s.physRegion (t / 16) + (if t % 16 < d then t % 16 else t % 16 + 1)

/-- The unit that a permanent fault retires: kind and physical index (12 R347). -/
def State.faultUnit (s : State) (f : Fault4) : Nat × Nat :=
  if 0x100 ≤ f.block ∧ f.block ≤ 0x1FF then (1, s.physTile (f.block - 0x100))
  else match regionOfPage f.block with
    | some r => (2, s.physRegion r)
    | none =>
      if 0x030 ≤ f.block ∧ f.block ≤ 0x03E then (3, f.block - 0x030)
      else if 0x040 ≤ f.block ∧ f.block ≤ 0x047 then (3, 15 + 4 * (f.block - 0x040) + f.inst)
      else (4, 0)

/-- What the chip's own Clerk has queued on a port leaves at once: its hold leaves every flit free (10 R306; DESIGN CHOICE, log entry 99). -/
def State.sendQueued (s : State) (x : Nat) : State :=
  s.forEach ((s.link x).queue.filter (fun q => q.origin.isNone && q.frame.hdr.kind == 6)) (fun s q =>
    if s.carriesFrames x && s.mayStart x 4095 q.frame then s.startPacket x q else s)

/-- Chip c has a permanent fault or has left: the chip that fails it over hears of it (10 R302, R305). -/
def State.reportFailed (s : State) (p c : Nat) : State :=
  match s.image p with
  | none => s
  | some im =>
    let g := s.keeperOf p im [c]
    if g = s.chipId then s.declareFailed p c else s.clerkMessage p g [5, c]

/-- Retire the unit: code 0x3007 and an entry of the retirement log. The governor declares the chip failed, or of a link the end with
the higher chip ID; a link is disabled at both ends, once its far end has been told (R302). -/
def State.retire (s : State) (p : Nat) (f : Fault4) : State :=
  let u := s.faultUnit f
  let s := s.raiseCode 0x3007 pgMGT 0 (some p)
  let s := s.modMgmt (fun m => { m with retireLog := m.retireLog ++ [⟨u.1, u.2, f.seq, f.syndrome, s.ns, 1, false⟩] })
  let s := s.addF pgETU Reg.ETU_PERMANENT_COUNT 1
  if u.1 = 3 then
    let peer := s.peerChip u.2
    let s := (s.clerkMessage p peer [11, s.getL u.2 Reg.ICL_LEDGER0_PEER_PORT]).reportFailed p (max s.chipId peer)
    (s.sendQueued u.2).disablePort u.2
  else s.reportFailed p s.chipId

/-- After a replay the Clerk compares its incidents with those of the earlier attempt. -/
def execReplayCompare (p : PartId) (s : State) : Host.Outcome State Fault Refusal :=
  let p := p.val
  let x := s.part p
  let j := s.getF pgETU (Reg.ETU_RCV_ABORT_ROUND.at p)
  let n := s.getF pgETU (Reg.ETU_RCV_ATTEMPTS.at p)
  .next (if !s.mgmt.clerkUp || n = 0 then s
  else if s.prtState p = prtRUNNING ∧ s.round p ≠ j then
    ((s.addF pgETU Reg.ETU_TRANSIENT_COUNT 1).setF pgETU (Reg.ETU_RCV_ATTEMPTS.at p) 0).modPart p
      (fun x => { x with attempt := [], lastAttempt := [] })
  else if s.prtState p = prtHOLDING ∧ 2 ≤ n then
    let same := fun (a b : Fault4) => a.chip == b.chip && a.block == b.block && a.inst == b.inst && a.code == b.code
    let again := x.attempt.filter (fun a => x.lastAttempt.any (same a))
    let kind := fun (k : Repeat) => again.filter (fun a => repeatOf a.code == k)
    let broken := (kind .hardware).foldl (fun (l : List Fault4) a => if l.any (fun b => s.faultUnit b == s.faultUnit a) then l else l ++ [a]) []
    let s := s.modPart p (fun x => { x with
      lastAttempt := if x.attempt.isEmpty then x.lastAttempt else x.attempt, attempt := [] })
    let s := s.forEach broken (fun s f => s.retire p f)
    let s := if (kind .image).isEmpty then s else (s.raiseCode 0x3012 pgMGT 0 (some p)).askFence p
    if !broken.isEmpty || !(kind .image).isEmpty then s
    else if 3 ≤ n then s.askFence p
    else if (kind .gear).isEmpty then s
    else if s.governs p then s.shiftDown (s.gearLimit .emergency) else s.tellGovernor p [6, 1]
  else s)

/-! ### Failover (10 R303 to R307) -/

/-- The image with a spare in the place of a lost chip. -/
def replaceChip (im : Image) (lost spare : Nat) : Image :=
  if !im.chips.contains lost then im
  else
    let swap := fun (c : Nat) => if c = lost then spare else c
    let keep := fun (c : Section) => c.chip != spare
    { im with
      chips := (im.chips.map swap).eraseDups
      entryChips := im.entryChips.map (fun e => { e with chip := swap e.chip })
      governor := swap im.governor, deputy := swap im.deputy
      sections := (im.sections.filter keep).map (fun c => { c with chip := swap c.chip, links := c.links.map (fun b => { b with peer := swap b.peer }) })
      districts := im.districts.map (fun d => { d with
        chips := (d.chips.map swap).eraseDups, twins := d.twins.map (fun t => (swap t.1, swap t.2)),
        restorable := d.restorable.map (fun t => (swap t.1, t.2)) }) }

/-- What this chip keeps of the failover of a chip. -/
def State.failoverOf (s : State) (p lost : Nat) : Option Failover := (s.part p).failovers.find? (fun f => f.lost == lost)

/-- The image as it stood when the failover of a chip began. -/
def State.failoverImage (s : State) (p lost : Nat) : Option Image :=
  match s.failoverOf p lost with
  | some f => f.image
  | none => s.image p

/-- This chip is the spare of the lost chip's district. -/
def State.isSpareOf (s : State) (p lost : Nat) : Bool :=
  match s.districtOf p lost with | some d => d.spare == s.chipId && d.spare != lost | none => false

/-- The shadow bank of partition p holds no entry of it (06 R188). -/
def State.clearBank (s : State) (p bank : Nat) : State :=
  s.modIch (fun z => { z with
    tables := z.tables.filter (fun e => !(e.1 / 32768 % 2 == bank &&
      (if e.1 / 32768 / 94 = 0 then (TtEntry.ofBits e.2).part == p && s.ttPresent e.2
       else (LdEntry.ofBits e.2).part == p && s.ldPresent e.2)))
    names := z.names.filter (fun e => e.1 / 64 != 2 * p + bank) })

/-- The clear engine clears every unit of the section's handles: volatile handles stay so (R304), and the twin's stream fills the
restorable ones. -/
def State.zeroHandles (s : State) (l : List HandleInit) : State :=
  s.forEach l (fun s h => s.modTile h.tile (fun x => x.clearRanges [((readHandle h).base, (readHandle h).bound)]))

/-- The restorable handles of position c that R304 allows: Class W or shared Class A, which the twin's section places at the same BASE
and BOUND. Any other one the image declares is volatile. -/
def restorableOf (im : Image) (c : Nat) : List HandleInit :=
  match im.districts.find? (fun d => d.chips.contains c), im.sections.find? (fun z => z.chip == c) with
  | some d, some z =>
    let twin := ((d.twins.find? (fun t => t.1 == c)).bind (fun t => im.sections.find? (fun y => y.chip == t.2)))
    let declared := ((d.restorable.find? (fun t => t.1 == c)).map (·.2)).getD []
    z.handles.filter (fun h => declared.contains (h.tile, h.handle) &&
      ((readHandle h).classW || (readHandle h).owner == ownerShared) &&
      match twin with
      | none => false
      | some y => y.handles.any (fun k => k.tile == h.tile && k.handle == h.handle && (readHandle k).base == (readHandle h).base &&
          (readHandle k).bound == (readHandle h).bound))
  | _, _ => []

/-- The TARGET of a window that the lost position's section opens on all of a handle for writes (06 Table 18). -/
def windowInto (z : Section) (h : HandleInit) : Option Nat :=
  z.windows.findSome? (fun e =>
    let w := fun (i : Nat) => (e.2.getD i 0).toNat
    if (w 0).testBit 31 && (w 0).testBit 27 && bits (w 0) 24 17 == h.tile && bits (w 0) 16 11 == h.handle && bits (w 4) 18 0 == 0 &&
        decide (8 * (readHandle h).units.length ≤ bits (w 5) 21 0) then
      some (w 1)
    else none)

/-- The words of a window on all of handle h of partition p, for WRITEs of `src` at a TARGET. -/
def streamWindow (p target src : Nat) (h : HandleInit) : List (BitVec 32) :=
  [2 ^ 31 + p * 2 ^ 29 + 2 ^ 27 + h.tile * 2 ^ 17 + h.handle * 2 ^ 11, target, 0xFFFFFFFF, src * 2 ^ 16 + 0xFFFF, 0,
    8 * (readHandle h).units.length, 0xFFFFFFFF, 0xFFFFFFFF].map (BitVec.ofNat 32)

/-- The spare's Clerk opens a free window to the twin for each restorable handle that has none (DESIGN CHOICE, log entry 98). -/
def State.openStreams (s : State) (p c : Nat) (im : Image) (z : Section) : State :=
  let twin := (((im.districts.find? (fun d => d.chips.contains c)).bind (fun d => d.twins.find? (fun t => t.1 == c))).map (·.2)).getD c
  let bare := (restorableOf im c).zipIdx.filter (fun h => (windowInto z h.1).isNone)
  let free := (List.range 32).filter (fun i => rwt s Reg.RWT_VALID i == 0)
  s.forEach (free.zip bare) (fun s e => s.putWindow e.1 (streamWindow p (streamTarget e.2.2) twin e.2.1))

/-- The spare's Clerk has loaded the lost position's section: its tables lie in the shadow bank until the swap (R306, step 3). -/
def execFailoverSectionLoaded (p : PartId) (lost : BitVec 16) (s : State) : Host.Outcome State Fault Refusal :=
  let p := p.val
  let c := lost.toNat
  .next (match s.image p with
    | none => s
    | some im =>
      match im.sections.find? (fun z => z.chip == c) with
      | none => s
      | some z =>
        if !s.isSpareOf p c || s.prtState p != prtHOLDING || !s.mgmt.clerkUp then s
        else
          let bank := 1 - s.gen p
          let s := ((s.zeroHandles z.handles).installTiles p z).clearBank p bank
          let s := (s.installTables p bank im.elastic z).openStreams p c im z
          let s := s.setTiles (s.tilesOf p) seqHOLDING true
          (s.stage p c (fun f => { f with sectionLoaded := true })).modPart p
            (fun x => { x with image := some (replaceChip im c s.chipId) }))

/-- The swap of a changed chip is armed with the T that the governor sent, once it has come and the tables are in place. -/
def State.armFailover (s : State) (p c : Nat) : State :=
  match s.failoverOf p c with
  | none => s
  | some f => match f.swapAt with
    | none => s
    | some t =>
      if !f.detours then s
      else (s.set64 pgICH (Reg.ICH_TT_SWAP_LO.at p) (Reg.ICH_TT_SWAP_HI.at p) t).setF pgICH (Reg.ICH_SWAP_ARM.at p) 1

/-- A changed chip copies its detour set into the shadow bank and arms the swap (R306, step 4). -/
def execDetourSetInstall (p : PartId) (lost : BitVec 16) (s : State) : Host.Outcome State Fault Refusal :=
  let p := p.val
  let c := lost.toNat
  .next (match s.image p with
    | none => s
    | some im =>
      if s.prtState p ≠ prtHOLDING ∨ ¬ s.mgmt.clerkUp then s
      else
        let bank := 1 - s.gen p
        let loaded := match s.failoverOf p c with | some f => f.sectionLoaded | none => false
        let spare := match s.districtOf p c with | some d => d.spare | none => c
        let changed := fun (s : State) => (s.stage p c (fun f => { f with detours := true })).armFailover p c
        let s := match im.detours.find? (fun d => d.lost == c && d.chip == s.chipId) with
          | some d => changed (if s.bankKept p bank then s
              else (s.clearBank p bank).putTables p bank d.timetable d.landing d.names d.leases)
          | none => if loaded then changed s else s
        s.modPart p (fun x => { x with image := x.image.map (fun im => replaceChip im c spare) }))

/-- The governor sends T for the failover of chip c, which tells the chip that c is lost. -/
def State.takeSwapAt (s : State) (p c t : Nat) : State :=
  if !s.partRuns p then s
  else
    let s := s.modPart p (fun x => { x with lost := if x.lost.contains c then x.lost else c :: x.lost })
    (s.stage p c (fun f => { f with swapAt := some t })).armFailover p c

/-- The ports by which the twin streams: those in UP to the spare and to the other chips of its board, the lost one apart (R306). -/
def State.streamPaths (s : State) (lost spare : Nat) : List Nat :=
  allPorts.filter (fun x => s.linkState x == lnkUP && (s.peerChip x == spare ||
    (boardOf (s.peerChip x) == boardOf s.chipId && s.peerChip x != lost && s.peerChip x != s.chipId)))

/-- WRITE packets of up to 16 units that carry a handle's contents to a TARGET of the spare, in turn over the paths (DESIGN CHOICE, log
entry 98). -/
def State.streamHandle (s : State) (p spare : Nat) (paths : List Nat) (target : Nat) (h : HandleInit) : State :=
  let us := (readHandle h).units
  s.forEach (List.range ((us.length + 15) / 16)) (fun s i =>
    let (ws, s) := s.sideReads h.tile h.handle ((us.drop (16 * i)).take 16)
    let f := mkPacket s 1 1 p spare target 0 (128 * i) (ws.any (·.p)) (ws.map (·.v))
    match paths[i % paths.length]? with | none => s | some x => s.enqueue x f none)

/-- The digest of a handle on this chip: the CRC-32C of its words, in the order of its units (DESIGN CHOICE, log entry 98). -/
def State.digest (s : State) (h : HandleInit) : Nat × State :=
  let (ws, s) := s.sideReads h.tile h.handle (readHandle h).units
  ((crc32c (wordBytes (ws.map (·.v)))).toNat, s)

/-- A digest reaches the governor. -/
def State.takeDigest (s : State) (d : DigestReport) : State :=
  { s with gov := { s.gov with digests :=
      d :: s.gov.digests.filter (fun e => !(e.part == d.part && e.lost == d.lost && e.chip == d.chip && e.index == d.index)) } }

/-- Report the digests of position c's restorable handles to the governor. -/
def State.reportDigests (s : State) (p c : Nat) (im : Image) (l : List HandleInit) : State :=
  let g := s.keeperOf p im []
  s.forEach l.zipIdx (fun s h =>
    let (d, s) := s.digest h.1
    if g = s.chipId then s.takeDigest ⟨p, c, s.chipId, h.2, d⟩ else s.clerkMessage p g [13, c, h.2, d])

/-- No Class W sheet of the partition's tiles waits to be resealed (05 R152). -/
def State.resealed (s : State) (p : Nat) : Bool := (s.tilesOf p).all (fun t => (s.unsealedSheets t).isEmpty)

/-- The twin's Clerk streams every restorable handle of the lost position to the spare, and reports their digests; the spare, once its
Class W sheets are resealed, reports its own (R306, steps 5 and 6). -/
def execRestorableStreamComplete (p : PartId) (lost : BitVec 16) (s : State) : Host.Outcome State Fault Refusal :=
  let p := p.val
  let c := lost.toNat
  .next (if s.prtState p ≠ prtHOLDING ∨ ¬ s.mgmt.clerkUp then s
  else match s.failoverImage p c with
    | none => s
    | some im =>
      let l := restorableOf im c
      let twin := im.districts.any (fun d => d.twins.contains (c, s.chipId))
      let spare := (im.districts.find? (fun d => d.chips.contains c)).map (·.spare)
      let done := fun (s : State) => s.stage p c (fun f => { f with streamed := true })
      if twin then
        let s := match spare, im.sections.find? (fun z => z.chip == c) with
          | some x, some z => s.forEach l.zipIdx (fun s h =>
              s.streamHandle p x (s.streamPaths c x) ((windowInto z h.1).getD (streamTarget h.2)) h.1)
          | _, _ => s
        done (s.reportDigests p c im l)
      else if spare = some s.chipId then (if s.resealed p then done (s.reportDigests p c im l) else s)
      else done s)

/-- The spare and the twin have reported the same digest of every restorable handle of position c. -/
def State.digestsAgree (s : State) (p c : Nat) (im : Image) : Bool :=
  let said := fun (k i : Nat) => (s.gov.digests.find? (fun e => e.part == p && e.lost == c && e.chip == k && e.index == i)).map (·.digest)
  match im.districts.find? (fun d => d.chips.contains c) with
  | none => false
  | some d =>
    let twin := ((d.twins.find? (fun t => t.1 == c)).map (·.2)).getD c
    (List.range (restorableOf im c).length).all (fun i => (said d.spare i).isSome && said d.spare i == said twin i)

/-- Every chip that partition p's job has lost is restored but for the swap. -/
def State.allRestored (s : State) (p : Nat) : Bool :=
  (s.part p).lost.all (fun c => (s.part p).failovers.any (fun f => f.lost == c && f.digests))

/-- The governor names the replay start: it sends the chips a T that they can still meet, and RESUME with START = T (R299; R306, step
7). -/
def State.resumeFailovers (s : State) (p : Nat) : State :=
  let s := s.forEach (s.part p).failovers (fun s f => s.sendSwapAt p f.lost)
  let start := (s.part p).failovers.foldl (fun n f => max n (f.swapAt.getD 0)) 0
  let s := s.modPart p (fun x => { x with replayAt := some (start * nsUnit) })
  let s := (s.takeNotice p 2 (s.epoch p) s.chipId start).2
  s.sendNotice p 2 0 (s.epoch p) s.chipId (leBytes start 8) none

/-- The governor compares the digests of the spare and the twin; where they agree, and no other lost chip of the job waits, the job
resumes (R306, steps 6 and 7; R309). -/
def execFailoverDigestCompare (p : PartId) (lost : BitVec 16) (s : State) : Host.Outcome State Fault Refusal :=
  let p := p.val
  .next (match s.failoverImage p lost.toNat with
  | none => s
  | some im =>
    if s.keeps p && s.mgmt.clerkUp && s.prtState p == prtHOLDING && s.digestsAgree p lost.toNat im then
      let s := s.stage p lost.toNat (fun f => { f with digests := true })
      if s.allRestored p then (s.resumeFailovers p) else s
    else s)

end Sys2Proof.Machine
end

