-- ==== Sys2Proof/Machine/Commands.lean ====
section
/-! DEFINITION. What every mailbox command shares: taking it, its status and its results; the Clerk images and the retirement
log (12 R346 to R351). -/

namespace Sys2Proof.Machine

/-! ### The mailbox (12 R346, R348) -/

/-- STATUS codes, 12 Table 2. -/
def msOK : Nat := 0x00
def msBADOP : Nat := 0x01
def msBADARG : Nat := 0x02
def msSTATE : Nat := 0x03
def msREFUSED : Nat := 0x04
def msAUTH : Nat := 0x05
def msNOTGOV : Nat := 0x06
def msDMAERR : Nat := 0x07
def msNOTREADY : Nat := 0x08
def msRESTART : Nat := 0x09

/-- OP codes, 12 Table 1. -/
def mailboxOps : List Nat :=
  [0x01, 0x02, 0x03, 0x10, 0x11, 0x12, 0x13, 0x14, 0x15, 0x16, 0x20, 0x21, 0x22]

/-- Argument word n, and the 64-bit argument whose low word is n. -/
def State.arg (s : State) (n : Nat) : Nat := s.getF pgMGT (Reg.MGT_ARG_WORD.at n)

def State.arg64 (s : State) (n : Nat) : Nat := s.arg n + 2 ^ 32 * s.arg (n + 1)

/-- A command waits to be taken, and its OP. -/
def State.mailboxWaits (s : State) : Bool := s.getB pgMGT Reg.MGT_CMD_GO && !s.getB pgMGT Reg.MGT_RSP_BUSY

def State.mailboxOp (s : State) : Nat := s.getF pgMGT Reg.MGT_CMD_OP

def State.asks (s : State) (op : Nat) : Bool := s.mailboxWaits && s.mailboxOp == op

/-- The device takes the command: GO clears, BUSY sets, TAG is kept, and the results of an earlier command are gone (the
spec says what they hold only until here). -/
def State.takeCommand (s : State) : State :=
  let (l, s) := s.freeWords 8
  let s := s.setFs pgMGT [(Reg.MGT_CMD_GO, 0), (Reg.MGT_RSP_BUSY, 1), (Reg.MGT_RSP_DONE, 0),
    (Reg.MGT_RSP_TAG, s.getF pgMGT Reg.MGT_CMD_TAG)]
  s.setFs pgMGT ((l.zipIdx).map (fun e => (Reg.MGT_RES_WORD.at e.2, e.1.toNat)))

/-- The command ends: STATUS, results from RES0 on, DONE, and PF vector 3. -/
def State.endCommand (s : State) (status : Nat) (res : List Nat) : State :=
  let s := s.setFs pgMGT ((res.zipIdx).map (fun e => (Reg.MGT_RES_WORD.at e.2, e.1)))
  (s.setFs pgMGT [(Reg.MGT_RSP_BUSY, 0), (Reg.MGT_RSP_DONE, 1), (Reg.MGT_RSP_STATUS, status)]).pfInt 3

/-- Low and high words of a 64-bit result. -/
def words64 (v : Nat) : List Nat := [v % 2 ^ 32, v / 2 ^ 32 % 2 ^ 32]

/-- A command served by the Clerk (or, with `clerk` false, by the Postmaster): NOTREADY before the part is ready; while the
Clerk restarts its commands wait (12 R343, R348). -/
def State.serveCommand (s : State) (op : Nat) (clerk : Bool) (f : State → State) : State :=
  if !s.asks op then s
  else if !s.isReady then s.takeCommand.endCommand msNOTREADY []
  else if clerk && !s.mgmt.clerkUp then s
  else f s.takeCommand

/-- The partition runs an image: running, holding or fenced. -/
def State.runsImage (s : State) (p : Nat) : Bool := decide (prtRUNNING ≤ s.prtState p)

/-! ### The retirement log (12 R347) -/

/-- The units now retired: each once. -/
def State.retiredUnits (s : State) : List (Nat × Nat) :=
  ((s.mgmt.retireLog.filter (fun e => e.state == 1)).map (fun e => (e.kind, e.index))).eraseDups

/-- The bytes of an entry. -/
def RetireEntry.bytes (e : RetireEntry) : List Byte :=
  leBytes e.kind 2 ++ leBytes e.index 2 ++ leBytes e.seq 4 ++ leBytes e.syndrome 8 ++ leBytes e.nt 8 ++ leBytes e.state 1 ++
    List.replicate 7 0

/-- A unit retired with no incident record of its own: the spec states neither SEQ nor SYNDROME of the entry, so both are
free. -/
def State.logRetired (s : State) (kind index : Nat) : State :=
  let (a, s) := s.freeBits 32
  let (b, s) := s.freeBits 64
  s.modMgmt (fun m => { m with retireLog := m.retireLog ++ [⟨kind, index, a, b, s.ns, 1, false⟩] })

/-! ### Calibration and clearing of a region (05 R155; 08 R256) -/

/-- A region's calibration: V_FL, its validity and the reference slack of each gear from G5 to the top gear. V_FL is the last passing
voltage plus RGN_CAL_GUARD, valid up to RGN_VMAX. The last passing voltages and the slacks are the part's own, free here; `top` says
whether the top gear came out valid, and its voltage is one that says so. -/
def State.calibrate (s : State) (r : Nat) (top : Bool) : State :=
  let t := s.getF pgTMB Reg.TMB_GEAR_TOP
  let vmax := s.rgnValue r Reg.RGN_VMAX_MV
  let guard := s.rgnValue r Reg.RGN_CAL_GUARD_MV
  let s := s.modRmon r (fun x => { x with offset := 0, reference := List.replicate 6 0, above := none, held := false })
  let s := s.forEach ((List.range 6).filter (fun g => decide (t ≤ g))) (fun s g =>
    let (pass, s) := s.freeBits 12
    let (slack, s) := s.freeBits 16
    let v := if g ≠ t then pass + guard else if top then min (pass + guard) vmax else max (pass + guard) (vmax + 1)
    (s.setFs (pgRGN r) [(Reg.RGN_VF_MV.at g, v), (Reg.RGN_VF_VALID.at g, bit (decide (v ≤ vmax)) 0)]).modRmon r
      (fun x => { x with reference := x.reference.set g slack }))
  (s.setF (pgRGN r) Reg.RGN_STAT_CAL_OK (bit top 0)).trackRail r

/-- Every word of a tile holds 0 with seal 0, and no RV bit, repair or retained range is left. -/
def State.clearTile (s : State) (t : Nat) : State :=
  s.modTile t (fun x => { x with spd := [], rv := [], repairs := [], reseal := none, clear := [], retained := [] })

end Sys2Proof.Machine
end

