-- ==== Sys2Proof/Machine/Reset.lean ====
section
/-! DEFINITION. Resets and bring-up (12 R350, R356 to R359, R365 to R367; 13 R384; 14 R401; 15 R416). -/

namespace Sys2Proof.Machine

/-! ### Resets asked for (12 R347, R349, R365, R367) -/

/-- The scope whose end a reset of `z` ends with: `z`, or the higher one it merges with. -/
def State.covering (s : State) (z : Scope) : Scope :=
  if s.mgmt.resets.contains z then z else (s.mgmt.resets.find? (fun y => s.within z y)).getD z

/-- The target of a RESET command is there. -/
def State.scopeExists (s : State) : Scope → Bool
  | .tile t => decide (t < s.getF pgDEV Reg.DEV_CAPS_TILES)
  | .region r => decide (r < s.getF pgDEV Reg.DEV_CAPS_REGIONS)
  | .part p => decide (p < 4)

/-- A tile or region reset is refused while its partition runs an image and is not fenced. -/
def State.scopeBusy (s : State) (z : Scope) : Bool :=
  let busy := fun (p : Option Nat) => match p with | some p => s.partRuns p | none => false
  match z with
  | .tile t => busy (s.partOfTile t)
  | .region r => busy (s.partOfRegion r)
  | .part _ => false

def State.beginReset (s : State) (z : Scope) : State :=
  match z with
  | .tile t => s.beginTileReset t
  | .region r => s.beginRegionReset r
  | .part p => s.beginPartReset p

/-- The RESET command of the mailbox: level and target as its arguments say. A command for this scope stays BUSY until the
reset has completed. -/
def State.resetCommand (s : State) (level target : Nat) (z : Scope) : State :=
  let asked := s.arg 0 % 8
  let bad := asked == 0 || decide (4 < asked)
  let far := asked == level && match level with
    | 1 => !s.scopeExists (.tile (s.arg 1))
    | 2 => !s.scopeExists (.region (s.arg 1))
    | _ => !s.scopeExists (.part (s.arg 1))
  if !(bad || far || (asked == level && s.arg 1 == target)) then s
  else s.serveCommand 0x15 true (fun s =>
    if bad || far then s.endCommand msBADARG []
    else if s.scopeBusy z then s.endCommand msSTATE []
    else
      let c := s.covering z
      (s.modMgmt (fun m => { m with mbxScope := some c })).beginReset z)

/-- The SMBus endpoint's address (14 R394). -/
def State.smbusAddress (s : State) : Nat := 0x40 + s.module.pos.toNat % 16

/-- The endpoint answers at an address, by the auxiliary input's power. -/
def State.smbusAnswers (s : State) (addr : BitVec 7) : Bool := s.module.aux && addr.toNat == s.smbusAddress

/-- A status answered over SMBus. -/
def State.smbAnswer (s : State) (op status : Nat) (res : List Nat) : State := s.emit (.message (op :: status :: res))

/-- A tile, region or partition reset: by the mailbox, refused to the SMBus endpoint, or begun by the device. -/
def State.askReset (s : State) (level target : Nat) (z : Scope) (src : ResetBy) : State :=
  match src with
  | .mailbox => s.resetCommand level target z
  | .smbus a => if s.smbusAnswers a && s.module.powered then s.smbAnswer 0x15 msSTATE [] else s
  | .device => if s.scopeExists z && !s.scopeBusy z then s.beginReset z else s

/-- The tile's registers, Tally file, planes and queues return to reset values; scratchpad, handles and wheels stay. -/
def execTileReset (t : TileId) (src : ResetBy) (s : State) : Host.Outcome State Fault Refusal :=
  .next (s.askReset 1 t.val (.tile t.val) src)

/-- Every tile of the region, and its beat PLLs. -/
def execRegionReset (r : RegionId) (src : ResetBy) (s : State) : Host.Outcome State Fault Refusal :=
  .next (s.askReset 2 r.val (.region r.val) src)

/-- The partition's tiles; its image is unloaded and its tenants' entries complete with QRESET. -/
def execPartitionReset (p : PartId) (src : ResetBy) (s : State) : Host.Outcome State Fault Refusal :=
  .next (s.askReset 3 p.val (.part p.val) src)

/-- A reset of a scope is over: its pages answer again, and a region's monitor rechecks the gear in force. -/
def State.endReset (s : State) (sc : Scope) : State :=
  let s := s.modMgmt (fun m => { m with resets := m.resets.filter (fun y => y != sc) })
  match sc with | .region r => s.reverifyRegion s.gear r | _ => s

/-- A tile, region or partition reset ends, and with it the command that waited for it. -/
def execResetComplete (sc : Scope) (s : State) : Host.Outcome State Fault Refusal :=
  .next (if s.mgmt.resets.contains sc then
    let s := s.endReset sc
    if s.mgmt.mbxScope = some sc then
      (s.modMgmt (fun m => { m with mbxScope := none })).endCommand msOK []
    else s
  else s)

/-- Chip reset: level 4 by the mailbox or over SMBus keeps the PCIe configuration; a control-class incident on a shared
structure does not. A part in recovery does not serve the command (12 R350). -/
def execChipReset (src : ResetBy) (s : State) : Host.Outcome State Fault Refusal :=
  .next (match src with
    | .device => s.chipReset false
    | .smbus a => if s.smbusAnswers a && s.module.powered && !s.inRecovery then s.chipReset true else s
    | .mailbox =>
      if s.asks 0x15 && s.arg 0 % 8 == 4 then
        if s.inRecovery then s.takeCommand.endCommand msNOTREADY []
        else s.chipReset true
      else s)

/-! ### RESET_N (14 R392, R393, R396, R401 to R404, R410) -/

/-- RESET_N goes low: a chip reset, with the PCIe endpoint; the flash is joined to the board; a latched thermal trip is
released if its time and sensor 37 allow. During a power-fail shutdown it acts once the rails are off. -/
def execResetNAssert (s : State) : Host.Outcome State Fault Refusal :=
  .next (if !s.module.resetHigh then s
  else
    let s := s.clockAtLeast s.module.railsOffNt
    let cool := decide (s.module.tripNt + 1000000000 * nsUnit ≤ s.module.clock) &&
      decide (sgn 16 (s.module.sensors.get 37 0) ≤ 800)
    let was := s.module.resetN
    let s := { s with module := { s.module with
      resetHigh := false, resetN := false, flashBoard := true, restartNeeded := false, trip := s.module.trip && !cool } }
    if was then s.chipReset false else s)

/-- The board writes the flash. -/
def State.boardWrite (s : State) (w : FlashWrite) : State :=
  s.modMgmt (fun m => match w with
    | .record l => { m with boardRecord := l }
    | .copy b i => if b then { m with copyB := i } else { m with copyA := i })

/-- A transaction that the release of RESET_N cuts off leaves what it was writing undefined: bytes of the record are free, and of a Clerk
copy whether it is as it was, no image, or the new one. -/
def State.boardCut (s : State) : FlashWrite → State
  | .record _ =>
    let (v, s) := s.freeBits 512
    s.boardWrite (.record (leBytes v 64))
  | .copy b i =>
    let (v, s) := s.freeBits 2
    if v = 0 then s else if v = 1 then s.boardWrite (.copy b none) else s.boardWrite (.copy b i)

/-- RESET_N rises, after the board has written the flash: the straps are sampled and the flash is joined to the module. The module leaves
reset only with PWR_GOOD high for 100 ms; then the boot ROM starts and chooses a Clerk copy. -/
def execResetNRelease (pos : BitVec 7) (board : List FlashWrite) (cut : Option FlashWrite) (s : State) :
    Host.Outcome State Fault Refusal :=
  .next (if s.module.resetHigh then s
  else
    let s := s.clockAtLeast s.module.railsOffNt
    let s := s.forEach board State.boardWrite
    let s := match cut with | none => s | some w => s.boardCut w
    let go := s.module.pwrGood && decide (s.module.pwrGoodNt + 100000000 * nsUnit ≤ s.module.clock)
    let s := { s with module := { s.module with resetHigh := true, flashBoard := false, pos := pos, resetN := go } }
    if go then s.chipReset false else s)

/-! ### Bring-up (12 R356 to R359; 15 R416) -/

/-- Fields of the board configuration record (15 Table 1). -/
def boardRecordValid (l : List Byte) (board : Nat) : Bool :=
  let n := fun lo hi => leNat (slice l lo hi)
  l.length == 64 && n 0 4 == 0x4E474346 && n 4 6 == 1 && decide (n 6 8 < 512) &&
    (n 9 10 == 0xFF || n 9 10 == board) && (slice l 10 60).all (· == 0) &&
    n 60 64 == (crc32c (slice l 0 60)).toNat

/-- A write of DEV_CHIP_ID.RACK: only while every link is DOWN and no partition has an image (13 R384). -/
def State.writeRack (s : State) (rack : Nat) : State :=
  if allPorts.all (fun x => s.linkState x == lnkDOWN) && allParts.all (fun p => !s.holdsImage p) then
    (s.setF pgDEV Reg.DEV_CHIP_ID_RACK rack).setF pgDEV Reg.DEV_CHIP_ID_SET 1
  else s

/-- The part is in bring-up: out of reset, neither ready nor failed, and not in recovery. -/
def State.bringingUp (s : State) : Bool :=
  s.module.resetN && !s.isReady && !s.getB pgMGT Reg.MGT_BOOT_FAILED && !s.inRecovery

/-- The Clerk runs, started now if it was not. -/
def State.wakeClerk (s : State) : State := if s.mgmt.clerkUp then s else s.startClerk

/-- Stage 0x2: the Clerk starts and reads the board configuration record; stage 0x3 follows. -/
def execBoardConfigRead (s : State) : Host.Outcome State Fault Refusal :=
  .next (if s.bringingUp && decide (s.getF pgMGT Reg.MGT_BOOT_STAGE < 3) then
    let s := s.wakeClerk
    if !s.mgmt.clerkUp then s
    else
      let l := s.mgmt.boardRecord
      let role := leNat (slice l 8 9)
      let s := { s with module := { s.module with coolCheck := false } }.setF pgMGT Reg.MGT_BOOT_STAGE 3
      if boardRecordValid l (s.getF pgDEV Reg.DEV_CHIP_ID_BOARD) then
        let s := s.writeRack (leNat (slice l 6 8))
        let s := s.setFs pgTMB [(Reg.TMB_CTL_MASTER_A, role % 2), (Reg.TMB_CTL_MASTER_B, role / 2 % 2)]
        (s.setMaster false (role % 2 == 1)).setMaster true (role / 2 % 2 == 1)
      else s
  else s)

/-- Stage 0x3 ends: every region has calibrated, those of `cal` at the top gear, which all must (12 R357; 08 R256). -/
def State.endCalibration (s : State) (cal : BitVec 16) : State :=
  let n := s.getF pgDEV Reg.DEV_CAPS_REGIONS
  let s := s.forEach s.regions (fun s r => s.calibrate r (cal.getLsbD r))
  let s := s.setF pgMGT Reg.MGT_BOOT_CAL_OK (cal.toNat % 2 ^ n)
  if cal.toNat % 2 ^ n ≠ 2 ^ n - 1 then s.failBoot 0x04 else s.setF pgMGT Reg.MGT_BOOT_STAGE 4

/-- Stage 0x4 ends: every tile is clear. -/
def State.endClear (s : State) : State :=
  let s := s.forEach (List.range (16 * s.getF pgDEV Reg.DEV_CAPS_REGIONS)) (fun s t => s.clearTile t)
  { s with module := { s.module with coolCheck := false } }.setF pgMGT Reg.MGT_BOOT_STAGE 5

/-- A stage is reached, if the part is still in bring-up; it ends when `f` begins the next one. -/
def State.fromStage (s : State) (k : Nat) (f : State → State) : State :=
  if s.bringingUp && s.getF pgMGT Reg.MGT_BOOT_STAGE == k then f s else s

/-- Bring-up goes on: the next stage begins, or the last one ends and the part is ready. Stages that no command has begun are run
through. -/
def execBringupComplete (r : Bringup) (s : State) : Host.Outcome State Fault Refusal :=
  let stage := s.getF pgMGT Reg.MGT_BOOT_STAGE
  let woken := fun (s : State) (f : State → State) => let s := s.wakeClerk; if s.mgmt.clerkUp then f s else s
  .next (if !s.bringingUp then s
  else match r with
    | .noClerk => if s.chooseClerk.isNone then s.startClerk else s
    | .rail => s.failBoot 0x02
    | .topGear => s.failBoot 0x04
    | .spare => s.failBoot 0x07
    | .clerkCheck => if stage = 0 then s.setF pgMGT Reg.MGT_BOOT_STAGE 1 else s
    | .clerkStart => if stage < 2 then woken s (fun s => s.setF pgMGT Reg.MGT_BOOT_STAGE 2) else s
    | .clear cal => if stage < 4 then woken s (fun s => s.endCalibration cal) else s
    | .knownAnswer => s.fromStage 4 State.endClear
    | .ready cal => woken s (fun s =>
        let s := if stage < 4 then s.endCalibration cal else s
        (s.fromStage 4 State.endClear).fromStage 5 (fun s =>
          s.setFs pgMGT [(Reg.MGT_BOOT_STAGE, 6), (Reg.MGT_BOOT_READY, 1)])))

/-- A visible tile fails Vault repair or a known-answer run: retired, and the region starts again with it hidden, if the
region's spare was unused; otherwise the part fails (12 R358). -/
def execRegionBringupRestart (r : RegionId) (tile : Fin 17) (s : State) : Host.Outcome State Fault Refusal :=
  let r := r.val
  let g := s.physRegion r
  .next (if s.bringingUp && s.mgmt.clerkUp && s.scopeExists (.region r) && s.mgmt.hidden.get r 16 != tile.val then
    if decide (s.spareFuse g ≤ 16) || (s.retiredTile g).isSome then s.failBoot 0x07
    else
      let s := s.logRetired 1 (17 * g + tile.val)
      let s := (s.modMgmt (fun m => { m with hidden := m.hidden.put r tile.val 16 })).showHidden
      s.forEach ((List.range 16).map (fun i => 16 * r + i)) (fun s t =>
        ((s.resetTile t).closePage (pgTIL t)).clearTile t)
  else s)

end Sys2Proof.Machine
end

