-- ==== Sys2Proof/Machine/Mailbox.lean ====
section
/-! DEFINITION. Mailbox commands but for images and resets, and the Clerk's watchdog (12 R343, R346 to R354, R364, R368). -/

namespace Sys2Proof.Machine

/-- RES0 to RES2 of GET_STATUS. -/
def State.statusWords (s : State) : List Nat := [s.regWord pgMGT 0x180, s.retiredUnits.length, s.mgmt.runningSvn]

/-- GET_STATUS, also in recovery and while the Clerk is down; over SMBus without main power it ends with NOTREADY (14 R394). -/
def execGetStatus (src : Requester) (s : State) : Host.Outcome State Fault Refusal :=
  .next (match src with
    | .host => if s.asks 0x01 then s.takeCommand.endCommand msOK s.statusWords else s
    | .smbus a =>
      if !s.smbusAnswers a then s
      else if s.module.powered then s.smbAnswer 0x01 msOK s.statusWords else s.smbAnswer 0x01 msNOTREADY [])

/-- An entry of the ledger dump: port, state, peer chip and port, LAT_NS and RPL_NS. -/
def State.ledgerEntry (s : State) (x : Nat) : List Byte :=
  leBytes x 1 ++ leBytes (s.linkState x) 1 ++ leBytes (s.peerChip x) 2 ++ leBytes (s.getL x Reg.ICL_LEDGER0_PEER_PORT) 1 ++
    List.replicate 3 0 ++ leBytes (s.getL x Reg.ICL_LEDGER1_LAT_NS) 2 ++ leBytes (s.getL x Reg.ICL_LEDGER1_RPL_NS) 2 ++
    List.replicate 4 0

/-- A command with a host address: a multiple of 64, and DMA must work. -/
def State.hostCommand (s : State) (f : State → State) : State :=
  if s.arg64 0 % 64 ≠ 0 then s.endCommand msBADARG []
  else if !s.dmaOk then s.endCommand msDMAERR []
  else f s

def execLedgerDump (s : State) : Host.Outcome State Fault Refusal :=
  .next (s.serveCommand 0x02 true (fun s => s.hostCommand (fun s =>
    (s.hostWrite 0 (s.arg64 0) (allPorts.flatMap s.ledgerEntry)).endCommand msOK [])))

/-- As many entries as the buffer holds. -/
def execRetireLog (s : State) : Host.Outcome State Fault Refusal :=
  .next (s.serveCommand 0x03 true (fun s => s.hostCommand (fun s =>
    let l := s.mgmt.retireLog.take (s.arg 2 / 32)
    (s.hostWrite 0 (s.arg64 0) (l.flatMap RetireEntry.bytes)).endCommand msOK [l.length])))

/-! ### Partitions (12 R364) -/

/-- The partition ARG0 gives region r. -/
def State.askedPart (s : State) (r : Nat) : Nat := s.arg 0 / 4 ^ r % 4

/-- Regions move unless that touches a partition with an image; a moved region is reset at region level. -/
def execPartitionSet (s : State) : Host.Outcome State Fault Refusal :=
  .next (s.serveCommand 0x10 true (fun s =>
    let moved := s.regions.filter (fun r => !s.ownsRegion (s.askedPart r) r)
    let holds := fun (p : Option Nat) => match p with | some p => s.holdsImage p | none => false
    if moved.any (fun r => holds (s.partOfRegion r) || s.holdsImage (s.askedPart r)) then s.endCommand msSTATE []
    else
      let asked := s.askedPart
      let s := s.forEach moved (fun s r => s.beginRegionReset r)
      let s := s.forEach allParts (fun s p =>
        let own := s.regions.foldl (fun n r => n + bit (asked r == p) r) 0
        let s := s.setF (pgPRT p) Reg.PRT_STAT_REGIONS own
        if s.holdsImage p then s else s.setPrtState p (if own = 0 then prtNOREGIONS else prtEMPTY))
      s.endCommand msOK []))

/-! ### Field scan (12 R368, R370) -/

/-- The log after a scan: a failing tile is retired, a retired tile that passes is reinstated and marked as a suspected image fault. -/
def State.scanTile (s : State) (g k : Nat) (pass : Bool) : State :=
  let u := (1, 17 * g + k)
  if s.retiredUnits.contains u then
    if pass then s.modMgmt (fun m => { m with retireLog := m.retireLog.map (fun e =>
      if e.kind == 1 && e.index == 17 * g + k && e.state == 1 then { e with state := 2, suspect := true } else e) })
    else s
  else if pass then s else s.logRetired u.1 u.2

/-- Scan one region: result and log; then region reset, which is over when the region calibrates, the calibration and clearing. Of the
outcome bits [16:0] are the tiles' signatures, [17] the Vault periphery's, [18] the top gear's calibration and [19] the known-answer
runs, which leave no other trace (DESIGN CHOICE, log entry 103). -/
def State.scanRegion (s : State) (r : Nat) (v : BitVec 20) : State :=
  let s := s.setFs pgFSC [(Reg.FSC_RESULT_VAULT.at r, bits v.toNat 17 17), (Reg.FSC_RESULT_TILES.at r, bits v.toNat 16 0)]
  let g := s.physRegion r
  let s := s.forEach (List.range 17) (fun s k => s.scanTile g k (v.getLsbD k))
  let s := ((s.beginRegionReset r).endReset (.region r)).calibrate r (v.getLsbD 18)
  let ok := s.getF pgMGT Reg.MGT_BOOT_CAL_OK
  let s := s.setF pgMGT Reg.MGT_BOOT_CAL_OK (ok - bit (ok.testBit r) r + bit (v.getLsbD 18) r)
  s.forEach ((List.range 16).map (fun i => 16 * r + i)) (fun s t => s.clearTile t)

/-- The named regions are scanned, in the order of their numbers. -/
def execFieldScan (results : List (BitVec 20)) (s : State) : Host.Outcome State Fault Refusal :=
  .next (s.serveCommand 0x16 true (fun s =>
    let mask := s.arg 0 % 65536
    let named := (List.range 16).filter (fun r => mask.testBit r)
    let free := fun r => match s.partOfRegion r with | some p => !s.holdsImage p | none => true
    if named.any (fun r => !s.scopeExists (.region r)) then s.endCommand msBADARG []
    else if !named.all free then s.endCommand msSTATE []
    else
      let passed := fun r => results.getD r 0 == BitVec.allOnes 20
      let s := s.forEach named (fun s r => s.scanRegion r (results.getD r 0))
      s.endCommand msOK [named.foldl (fun n r => n + bit (passed r) r) 0]))

/-! ### Fuses (12 R353, R354; 13 R385) -/

/-- Words that FUSE_READ returns; the unique device secret and reserved words read 0. -/
def State.readFuse (s : State) (w : Nat) : Nat := if w ≤ 0x082 then s.fuse w else 0

/-- FUSE_READ is the Postmaster's, also in recovery and before the part is ready. -/
def execFuseRead (s : State) : Host.Outcome State Fault Refusal :=
  .next (if s.asks 0x20 then
    let w := s.arg 0
    let s := s.takeCommand
    if w ≤ 0xFF then s.endCommand msOK [s.readFuse w] else s.endCommand msBADARG []
  else s)

/-- A word that Table 4 lets the field program: of a hash slot, only one still all zero. -/
def State.fieldWord (s : State) (w : Nat) : Bool :=
  if w < 0x048 then (List.range 12).all (fun i => s.fuse (w / 12 * 12 + i) == 0) else decide (w ≤ 0x04B)

/-- A fresh nonce, which no one chooses. -/
def State.drawNonce (s : State) : State :=
  let (v, s) := s.freeBits 64
  s.set64 pgMGT Reg.MGT_NONCE_LO Reg.MGT_NONCE_HI v

/-- Blow the 1 bits of each value. -/
def State.blow (s : State) (l : List (Nat × BitVec 32)) : State :=
  s.forEach l (fun s e => s.modMgmt (fun m => { m with fuses := m.fuses.put e.1 (m.fuses.get e.1 0 ||| e.2) 0 }))

/-- What FUSE_PROGRAM answers for an authorisation read from host memory; none is one whose signature does not verify. -/
def State.fuseStatus (s : State) (auth : Option FuseAuth) : Nat :=
  if s.arg64 0 % 64 ≠ 0 then msBADARG
  else if allParts.any s.runsImage then msSTATE
  else if !s.dmaOk then msDMAERR
  else match auth with
    | none => msAUTH
    | some a =>
      if a.pairs.isEmpty || decide (16 < a.pairs.length) || s.arg 2 != 116 + 8 * a.pairs.length then msBADARG
      else if !s.keyGood a.key || a.serial.toNat != s.fuse 0x081 + 2 ^ 32 * s.fuse 0x082 ||
          a.nonce.toNat != s.get64 pgMGT Reg.MGT_NONCE_LO Reg.MGT_NONCE_HI then msAUTH
      else if !a.pairs.all (fun e => s.fieldWord e.1) then msBADARG
      else msOK

/-- The Postmaster checks an authorisation and blows fuses; the FUSE page reloads, and the nonce is new whatever the outcome. -/
def execFuseProgram (auth : Option FuseAuth) (s : State) : Host.Outcome State Fault Refusal :=
  .next (if s.asks 0x21 then
    let st := if s.isReady then s.fuseStatus auth else msNOTREADY
    let s := s.takeCommand
    let s := if s.isReady && s.dmaOk && s.arg64 0 % 64 == 0 && !allParts.any s.runsImage then s.fetchHost (s.arg64 0) (s.arg 2) else s
    let s := match auth with | some a => if st = msOK then s.blow a.pairs else s | none => s
    (s.copyFuses.drawNonce).endCommand st []
  else s)

/-- FLASH_UPDATE writes a valid image into the copy that is not running; the Postmaster's, also in recovery. `none` is a file
whose header or signature does not verify. -/
def execFlashUpdate (img : Option ClerkImage) (s : State) : Host.Outcome State Fault Refusal :=
  .next (if s.asks 0x22 && s.hasFlash then
    let b := (s.arg 3).testBit 0
    (s.takeCommand).hostCommand (fun s =>
      let s := s.fetchHost (s.arg64 0) (s.arg 2)
      match img.filter s.imageValid with
      | none => s.endCommand msAUTH []
      | some i =>
        if s.mgmt.runningCopy = some b then s.endCommand msSTATE []
        else (s.modMgmt (fun m => if b then { m with copyB := some i } else { m with copyA := some i })).endCommand msOK [])
  else s)

/-! ### The Clerk's watchdog (12 R343) -/

/-- The Clerk is restarted: no other block is reset, its command in progress ends with RESTART, and a poll for a gear change is over, so
that none is announced until the restart completes. -/
def execClerkWatchdogExpiry (s : State) : Host.Outcome State Fault Refusal :=
  .next (if s.mgmt.clerkUp then
    let s := (s.modMgmt (fun m => { m with clerkUp := false })).addF pgMGT Reg.MGT_CLERKRST_COUNT 1
    let busy := s.mgmt.mbxScope.isSome || s.gov.launching.isSome
    let s := { s with gov := { s.gov with poll := none, answers := [], asked := none, launching := none } }
    if busy then (s.modMgmt (fun m => { m with mbxScope := none })).endCommand msRESTART [] else s
  else s)

/-- The verified Clerk runs again and takes the incident records kept for it; a job that holds under LINK gets its roll call. -/
def execClerkRestartComplete (s : State) : Host.Outcome State Fault Refusal :=
  .next (if s.mgmt.clerkUp || s.mgmt.runningCopy.isNone || !s.hasFlash || decide (s.getF pgMGT Reg.MGT_BOOT_STAGE < 2) then s
  else
    let s := s.startClerk
    if !s.mgmt.clerkUp then s
    else
      let s := s.tellLeaves.modMgmt (fun m => { m with clerkRecords := [] })
      s.forEach (allParts.filter (fun p => s.prtState p == prtHOLDING && (s.part p).link)) (fun s p => s.startRollcall p))

/-! ### Other uses of the mailbox -/

/-- A command whose OP is none of Table 1 ends with BADOP. Over SMBus every OP but GET_STATUS and RESET, which have their own rows, ends
with STATE (12 R349); without main power none is served. -/
def execMailboxUnknownOp (smbus : Option (BitVec 7 × BitVec 8)) (s : State) : Host.Outcome State Fault Refusal :=
  .next (match smbus with
    | some (a, op) =>
      if s.smbusAnswers a && s.module.powered && op != 0x01 && op != 0x15 then s.smbAnswer op.toNat msSTATE [] else s
    | none => if s.mailboxWaits && !mailboxOps.contains s.mailboxOp then s.takeCommand.endCommand msBADOP [] else s)

/-- A GO written while BUSY is set is ignored and flagged. -/
def execMailboxGoIgnored (s : State) : Host.Outcome State Fault Refusal :=
  .next (if s.getB pgMGT Reg.MGT_RSP_BUSY then s.setF pgMGT Reg.MGT_RSP_IGNORED 1 else s)

end Sys2Proof.Machine
end

