-- ==== Sys2Proof/Machine/Loader.lean ====
section
/-! DEFINITION. Loading, launching, stopping and unloading images (12 R360 to R363), with the refusal codes of 12 Table 7. -/

namespace Sys2Proof.Machine

/-! ### What the checks look at -/

/-- What a check answers: nothing, or the detail for RES1 and RES2. -/
abbrev Detail := Option (List Nat)

/-- The first detail of a list of checks. -/
def firstDetail {α : Type} (l : List α) (f : α → Detail) : Detail := l.findSome? f

/-- `d` where the rule is broken. -/
def broken (b : Bool) (d : List Nat) : Detail := if b then some d else none

/-- Another partition than p that holds an image. -/
def State.otherHolders (s : State) (p : Nat) : List Nat := allParts.filter (fun q => q != p && s.holdsImage q)

/-- The detour sets for this chip (10 R303). -/
def State.ownDetours (s : State) (im : Image) : List Detour := im.detours.filter (fun d => d.chip == s.chipId)

/-! ### The image as a whole (codes 0x02 to 0x09) -/

/-- An IMGHASH slot that is not revoked. -/
def State.imgKeyGood (s : State) (k : Nat) : Bool := decide (k < 2) && !(s.fuse 0x048).testBit (4 + k)

def State.checkUnsigned (s : State) (im : Image) : Detail :=
  broken (s.getB pgFUSE Reg.FUSE_SEC_IMG_SIGN_REQ && im.signer.isNone) []

def State.checkSignature (s : State) (im : Image) : Detail :=
  match im.signer with | none => none | some k => broken (!s.imgKeyGood k) []

/-- A requirement names the lowest grade that meets it, 1 for A to 3 for C. The gear range follows the stated requirements as
one more (00 R3). -/
def State.checkGrade (s : State) (im : Image) : Detail :=
  let grade := s.getF pgDEV Reg.DEV_CAPS_GRADE
  match im.requirements.zipIdx.find? (fun e => decide (e.1 < grade)) with
  | some e => some [e.2]
  | none => broken (decide (im.fast < s.getF pgTMB Reg.TMB_GEAR_TOP)) [im.requirements.length]

/-- Tiles declared, and tiles named, against those of the partition. -/
def State.checkTiles (s : State) (p : Nat) (c : Section) : Detail :=
  let ts := s.tilesOf p
  let named := c.streams.map (·.tile) ++ c.handles.map (·.tile) ++ c.wheels.map (·.1) ++ c.changes.map (·.1)
  broken (decide (ts.length < c.tiles) || named.any (fun t => !ts.contains t)) [c.tiles, ts.length]

def checkRoundLen (im : Image) : Detail :=
  broken (im.roundLen % 180 != 0 || decide (im.roundLen < 5760) || decide (16777080 < im.roundLen)) [im.roundLen]

/-- One governor of the partitions that run on the chip, and one ROUND_LEN under it (01 R26, 08 R248). -/
def State.checkGovernor (s : State) (im : Image) : Detail :=
  firstDetail (allParts.filter s.partRuns) (fun q =>
    let g := s.getF (pgPRT q) Reg.PRT_GOV_GOVERNOR
    broken (g != im.governor || s.roundLen q != im.roundLen) [g])

def checkMode (im : Image) : Detail :=
  let n := im.chips.length
  broken ((im.elastic && decide (256 < n)) || decide (32768 < n)) [n]

def State.checkTime (s : State) : Detail := broken (!s.hasTime) []

/-! ### Links (codes 0x0A to 0x0D) -/

def State.checkTopology (s : State) (c : Section) : Detail :=
  firstDetail c.links (fun b => broken (s.linkState b.port != lnkUP || s.peerChip b.port != b.peer) [b.port, b.peer])

/-- ns in beats at a gear, rounded up. -/
def nsBeats (g ns : Nat) : Nat := (ns * (gearRatio g).1 + (gearRatio g).2 - 1) / (gearRatio g).2

/-- The allowance that 06 R177 asks of a link, and in LOCKSTEP 07 R216. -/
def needAllowance (im : Image) (b : LinkBudget) : Nat :=
  nsBeats im.fast (b.lat.getD 0 + b.rpl.getD 0) + 16 * slotBeats b.port + 8

/-- A budget against its measurement; a missing one is below any, and reads 0. -/
def budgetShort (v : Nat) (b : Option Nat) : Bool := match b with | none => true | some m => decide (m < v)

def State.checkLedger (s : State) (im : Image) (c : Section) : Detail :=
  firstDetail c.links (fun b =>
    let lat := s.getL b.port Reg.ICL_LEDGER1_LAT_NS
    let rpl := s.getL b.port Reg.ICL_LEDGER1_RPL_NS
    if budgetShort lat b.lat then some [b.port, lat * 65536 + b.lat.getD 0]
    else if im.elastic then none
    else if budgetShort rpl b.rpl then some [b.port + 0x100, rpl * 65536 + b.rpl.getD 0]
    else broken (decide (b.allow < needAllowance im b)) [b.port + 0x200, needAllowance im b * 65536 + b.allow])

/-- No slot is leased by another partition that holds an image, and a detour uses no lease that the section does not declare
(06 R165). -/
def State.checkLease (s : State) (p : Nat) (im : Image) (c : Section) : Detail :=
  let taken := fun (l : Nat × Nat) => match s.leaseOf l.1 l.2 with | some q => q != p && s.holdsImage q | none => false
  match firstDetail c.leases (fun l => broken (taken l) [l.1, l.2]) with
  | some d => some d
  | none => firstDetail ((s.ownDetours im).flatMap (·.leases)) (fun l => broken (!c.leases.contains l) [l.1, l.2])

def State.checkSds (s : State) (p : Nat) (im : Image) (c : Section) : Detail :=
  firstDetail (c.leases.map (·.1) ++ arrivalPorts c.names c.landing ++
      (s.ownDetours im).flatMap (fun d => arrivalPorts d.names d.landing)) (fun x =>
    broken (s.sds x == im.elastic && (s.otherHolders p).any (fun q => s.leases q x)) [x])

/-! ### Streams (code 0x0E; 03 R65, R67; 04 R125, R126) -/

/-- The four words of a bundle. -/
def bundleWords (w : BitVec 128) : Word × Word × Word × Word :=
  (w.extractLsb' 0 32, w.extractLsb' 32 32, w.extractLsb' 64 32, w.extractLsb' 96 32)

/-- Walk the bundles of a stream of `len` bundles from number n, with the last bundles of the open loops, innermost first: the
first illegal one by itself or by its loops. -/
def badBundle (len : Nat) : List (BitVec 128) → Nat → List Nat → Option Nat
  | [], _, _ => none
  | w :: l, n, loops =>
    let loops := loops.filter (fun e => decide (n ≤ e))
    let frames := loops.map (fun e => (⟨0, e, 1⟩ : LoopFrame))
    if (bundleFault { Tile.reset with seq := { Seq.reset with pc := n, loops := frames } } len 0 (bundleWords w)).isSome then some n
    else match decodeSc (bundleWords w).1 with
      | .ok (.loop k _) => badBundle len l (n + 1) ((n + k.toNat + 1) :: loops)
      | _ => badBundle len l (n + 1) loops

/-- Follow a stream as the sequencer does, every loop for at most two passes and END into one further round, with the DFMT of each
MC register, and find a drain of an odd number of rows to a Ledger target (04 R113, R126). DFMT comes from immediates alone (R98),
so that later passes and rounds find nothing new. -/
def oddDrain (bs : List (BitVec 128)) (entry : Nat) : Nat → Nat → List LoopFrame → Map Nat → Nat → Option Nat
  | 0, _, _, _, _ => none
  | fuel + 1, pc0, loops0, dfmt, round =>
    let r := resolveLoops pc0 loops0
    match bs[r.1]? with
    | none => none
    | some w =>
      let odd := match decodeMx (bundleWords w).2.2.1 with
        | .ok (.tdrain _ n _ _ _ _ mc) => isLedger (dfmt.get mc.toNat 0) && n.toNat % 2 == 0
        | .ok _ => false
        | .ill _ => false
      if odd then some r.1
      else match decodeSc (bundleWords w).1 with
        | .ok (.mcset mc .dfmt (.imm v)) =>
          oddDrain bs entry fuel (r.1 + 1) r.2 (dfmt.put mc.toNat (v.toNat % 2 ^ McField.dfmt.width) 0) round
        | .ok (.loop l c) => oddDrain bs entry fuel (r.1 + 1) (⟨r.1 + 1, r.1 + l.toNat + 1, min 2 (c.toNat + 1)⟩ :: r.2) dfmt round
        | .ok .endOp => if round = 0 then oddDrain bs entry fuel entry [] dfmt 1 else none
        | .ok _ => oddDrain bs entry fuel (r.1 + 1) r.2 dfmt round
        | .ill _ => none

/-- Every encoding of the first six kinds of 04 R125 is refused (R126). -/
def checkEncoding (c : Section) : Detail :=
  firstDetail c.streams (fun z =>
    match badBundle z.bundles.length z.bundles 0 [] with
    | some n => some [z.tile, n]
    | none => (oddDrain z.bundles z.entry (40 * (z.bundles.length + 1)) z.entry [] [] 0).map (fun n => [z.tile, n]))

/-! ### Handles (code 0x0F; 03 R432; 05 R135, R136) -/

/-- Two ranges share a unit. -/
def meets (a b : Nat × Nat) : Bool := decide (a.1 < b.2) && decide (b.1 < a.2) && decide (a.1 < a.2) && decide (b.1 < b.2)

def HandleWords.range (h : HandleWords) : Nat × Nat := (h.base, h.bound)

/-- The rowsum area of a Class W handle. -/
def HandleWords.sums (h : HandleWords) : Nat × Nat := (h.rsum, h.rsum + (h.bound - h.base) / 32)

/-- An entry that breaks a rule by itself. -/
def HandleWords.badAlone (h : HandleWords) : Bool :=
  (h.retain && h.owner != ownerShared) || (h.classW && decide (h.owner < ownerShared)) || (!h.classW && h.rsum != 0) ||
    (h.classW && (h.base % 256 != 0 || h.bound % 256 != 0 || h.stride8 || h.rsum % 8 != 0 || decide (0x50000 < h.sums.2) ||
      meets h.range h.sums))

/-- Two entries of one tile that break a rule together. -/
def HandleWords.badPair (a b : HandleWords) : Bool :=
  if meets a.range b.range then
    a.classW != b.classW || a.owner != b.owner || a.ecc != b.ecc ||
      (a.classW && (a.base != b.base || a.bound != b.bound || a.rsum != b.rsum)) ||
      (b.classW && meets a.range b.sums) || (a.classW && meets b.range a.sums)
  else
    (b.classW && meets a.range b.sums) || (a.classW && meets b.range a.sums) ||
      (a.classW && b.classW && meets a.sums b.sums)

/-- The code handle of a stream (03 R432). -/
def codeBad (hs : List HandleInit) (z : Stream) : Bool :=
  match hs.find? (fun h => h.tile == z.tile && h.handle == z.handle) with
  | none => true
  | some h =>
    let w := readHandle h
    !w.valid || decide (w.owner < ownerShared) || w.stride8 || w.orient || decide (0x8000 < w.bound) ||
      decide (8 * (w.bound - w.base) < z.bundles.length)

def sectionHandles (c : Section) : Detail :=
  let valid := c.handles.filter (fun h => (readHandle h).valid)
  match firstDetail valid (fun h =>
    broken ((readHandle h).badAlone || valid.any (fun k => k.tile == h.tile && decide (k.handle < h.handle) && (readHandle h).badPair (readHandle k)))
      [h.tile, h.handle]) with
  | some d => some d
  | none => firstDetail c.streams (fun z => broken (codeBad c.handles z) [z.tile, z.handle])

/-! ### Wheels (code 0x10; 05 R140, R142) -/

/-- The owner codes of a wheel's words. -/
def wheelCodes (l : List (BitVec 32)) : List Nat :=
  l.flatMap (fun w => (List.range 8).map (fun k => bits w.toNat (4 * k + 3) (4 * k)))

/-- No reserved code, and at least one SCR or CLR. -/
def wheelBad (l : List (BitVec 32)) : Bool :=
  (wheelCodes l).any (fun k => decide (0xB ≤ k)) || !(wheelCodes l).any (fun k => k == 9 || k == 0xA)

/-- Every wheel of every tile the section names. -/
def checkWheels (c : Section) : Detail :=
  let ts := (c.streams.map (·.tile) ++ c.handles.map (·.tile) ++ c.wheels.map (·.1)).eraseDups
  firstDetail (ts.flatMap (fun t => [0, 1, 2, 3].map (fun m => (t, m)))) (fun (e : Nat × Nat) =>
    let ws := match c.wheels.find? (fun w => w.1 == e.1 && w.2.1 == e.2) with | some w => w.2.2 | none => []
    broken (wheelBad ws) [e.1, e.2])

/-! ### Tables (codes 0x11 to 0x13) -/

/-- A set of tables: timetable, landing table and names, with whether it is a detour set. -/
structure TableSet where
  timetable : List TableEntry
  landing : List TableEntry
  names : List Nat
  detour : Bool
  deriving DecidableEq, Repr

def State.tableSets (s : State) (im : Image) (c : Section) : List TableSet :=
  ⟨c.timetable, c.landing, c.names, false⟩ ::
    (s.ownDetours im).map (fun d => ⟨d.timetable, d.landing, d.names, true⟩)

/-- The ICH_TBL_ADDR value of an entry (06 Table 7): table, bank 0, port and index. -/
def tblAddr (table : Nat) (e : TableEntry) : Nat := table * 2 ^ 30 + e.port % 64 * 2 ^ 23 + e.index % 32768

/-- The places a run takes on its port, as an interval. -/
def runSpan (sds : Bool) (e : TtEntry) : Nat × Nat :=
  let a := if sds then runRank e.start else e.start
  (a, a + e.run)

/-- A timetable entry that the loader can show to break 06 R164, R167, R169 or R170. -/
def ttBad (p : Nat) (im : Image) (c : Section) (names : List Nat) (e : TableEntry) : Bool :=
  let t := TtEntry.ofBits e.entry
  let x := names.getD e.port e.port
  let sds := !im.elastic
  let runs := t.kind != ttEND
  let last := slotOf sds t.start (t.run - 1)
  let leased := (List.range (min t.run 64)).all (fun i => c.leases.contains (x, slotOf sds t.start i % 64))
  !ttLegal e.entry || t.part != p ||
    (runs && ((sds && t.start % 16 == 15) || decide (im.roundLen / slotBeats x ≤ last) || !leased ||
      ((t.kind == ttPUT || t.kind == ttGETQ || t.kind == ttTALLY) && decide (slotBeats x * t.start < 8))))

/-- An earlier run of the same port that claims a slot of entry e (06 R169). -/
def claimedBefore (sds : Bool) (l : List TableEntry) (e : TableEntry) : Bool :=
  let t := TtEntry.ofBits e.entry
  t.kind != ttEND && l.any (fun d =>
    let u := TtEntry.ofBits d.entry
    d.port == e.port && decide (d.index < e.index) && u.kind != ttEND && meets (runSpan sds t) (runSpan sds u))

/-- A landing entry that breaks 06 R164, R173 or R177. -/
def ldBad (p : Nat) (im : Image) (e : TableEntry) : Bool :=
  let d := LdEntry.ofBits e.entry
  !ldLegal e.entry || d.part != p || (!im.elastic && d.start % 16 == 15) || decide (im.roundLen ≤ d.dueOf (d.run - 1) + 5)

def checkSet (p : Nat) (im : Image) (c : Section) (z : TableSet) : Detail :=
  let k := bit z.detour 0
  match firstDetail z.timetable (fun e =>
    broken (ttBad p im c z.names e || claimedBefore (!im.elastic) z.timetable e) [tblAddr 0 e, k]) with
  | some d => some d
  | none => firstDetail z.landing (fun e => broken (ldBad p im e) [tblAddr 1 e, k])

/-- A list of names is a valid alias bank: a permutation of the fabric ports (06 R186). -/
def namesGood (l : List Nat) : Bool := l.length == 47 && allPorts.all (fun x => l.contains x)

/-- The tables of every set, and the alias bank of the first generation (06 R187), which has no ICH_TBL_ADDR value: its detail
is a free value (log entry 95). -/
def State.checkTables (s : State) (p : Nat) (im : Image) (c : Section) : Detail :=
  match firstDetail (s.tableSets im c) (checkSet p im c) with
  | some d => some d
  | none => broken (!namesGood c.names) [Config.aliasDetail c.names, 0]

/-- Every chip on a route is a chip of the job: the peers of the links used and the destinations (06 R185). -/
def State.checkRoutes (s : State) (im : Image) (c : Section) : Detail :=
  let dst := (s.tableSets im c).flatMap (fun z => (z.timetable.map (fun e => TtEntry.ofBits e.entry)).filterMap (fun t =>
    if [ttPUT, ttGETQ, ttGETR, ttTALLY, ttFWD].contains t.kind then some t.dst else none))
  firstDetail (c.links.map (·.peer) ++ dst) (fun k => broken (!im.chips.contains k) [k])

/-- The first cell two ranges share. -/
def firstShared (a b : Nat × Nat) : Detail := broken (meets a b) [max a.1 b.1]

/-- Cells named by a table set: first and count. -/
def TableSet.cells (z : TableSet) : List (Nat × Nat) :=
  z.timetable.filterMap (fun e =>
    let t := TtEntry.ofBits e.entry
    if t.kind = ttFWD then some (t.cellF, t.run) else if t.kind = ttGETR then some (t.cellR, (t.run + 127) / 128) else none) ++
  z.landing.filterMap (fun e =>
    let d := LdEntry.ofBits e.entry
    if 2 ≤ d.action then some (d.cell, d.run) else none)

/-- The cells of the result entries of a section: two sets of ceil(UNITS / 4) for each, where the image places them (11 R332; DESIGN
CHOICE, log entry 95). None of an entry without a place. -/
def resultRanges (c : Section) : List (Nat × Option (Nat × Nat)) :=
  (c.hostRun.filter (fun e => let h := HostRun.ofBits e.2; h.valid && h.result)).map (fun e =>
    (e.1, (c.resultCells.find? (fun z => z.1 == e.1)).map (fun z =>
      (z.2, z.2 + 2 * (((HostRun.ofBits e.2).units + 3) / 4)))))

/-- Cells of the host area that the results of other loaded images reserve (11 R332). -/
def State.reservedCells (s : State) (p : Nat) : List (Nat × Nat) :=
  (s.otherHolders p).flatMap (fun q => match (s.image q).bind (fun im => im.sections.find? (fun c => c.chip == s.chipId)) with
    | none => []
    | some c => (resultRanges c).filterMap (·.2))

/-- The cell range and the result cells against what images may name, other partitions' ranges and result cells, the host area and one another, and the
entries against the range (06 R179, R194; 11 R323, R332). -/
def State.checkCells (s : State) (p : Nat) (im : Image) (c : Section) : Detail :=
  let own := (c.cellBase, c.cellLimit)
  let others := (s.otherHolders p).map (fun q =>
    (s.getF pgPH (Reg.ICH_PH_BASE_CELL.at q), s.getF pgPH (Reg.ICH_PH_LIMIT_CELL.at q)))
  let host := (s.getF pgHIF Reg.HIF_HA_BASE_CELL, s.getF pgHIF Reg.HIF_HA_LIMIT_CELL)
  let taken := (0x1A000, 0x20000) :: host :: others ++ s.reservedCells p
  let results := firstDetail (resultRanges c) (fun e => match e.2 with
    | none => some [e.1]
    | some r => firstDetail (own :: taken ++ ((resultRanges c).filter (fun f => decide (f.1 < e.1))).filterMap (·.2)) (firstShared r))
  match (firstDetail taken (firstShared own)).or results with
  | some d => some d
  | none => firstDetail ((s.tableSets im c).flatMap TableSet.cells) (fun (e : Nat × Nat) =>
    if e.1 < c.cellBase then some [e.1] else broken (decide (c.cellLimit < e.1 + e.2)) [max e.1 c.cellLimit])

/-! ### Entry chips, notices, host runs and detours (codes 0x14 to 0x17) -/

def entrySlots (e : EntryChip) : Nat × Nat := (e.base, e.base + e.count)

/-- Request slots that one entry chip may own (01 R30): 16 manifest parcels of 3,968. -/
def mostSlots : Nat := 16 * 3968

/-- The manifest runs of a timetable of an entry chip: one to each of the chips `dsts`, and each as 01 R431 gives it. -/
def manifestGood (e : EntryChip) (dsts : List Nat) (tt : List TableEntry) : Bool :=
  let runs := (tt.map (fun e => TtEntry.ofBits e.entry)).filter (fun t => t.manifest && decide (t.kind ≤ ttTALLY))
  dsts.all (fun k => (runs.filter (fun t => t.dst == k)).length == 1) &&
    runs.all (fun t => dsts.contains t.dst && t.run == manifestParcels e && t.kind == ttPUT && t.tile == 0 && t.handle == 0 && t.off == 0)

/-- The chip sends its manifest runs if it is an entry chip, and else none; a detour set sends them to every chip but the one
it replaces, and on the spare they are those of the chip replaced (10 R303; DESIGN CHOICE, log entry 95). -/
def State.manifestBad (s : State) (im : Image) (tt : List TableEntry) (lost : Option Nat) : Detail :=
  let spare := match lost with | some k => im.districts.any (fun d => d.chips.contains k && d.spare == s.chipId) | none => false
  let me := match lost with | some k => if spare then k else s.chipId | none => s.chipId
  match im.entryChips.find? (fun e => e.chip == me) with
  | none => broken (tt.any (fun e => let t := TtEntry.ofBits e.entry; t.manifest && decide (t.kind ≤ ttTALLY))) [0]
  | some e => broken (!manifestGood e (im.chips.filter (fun k => k != s.chipId && some k != lost)) tt) [e.base]

/-- Each request slot belongs to one entry chip, none of which owns more than its manifest can show, and this chip, if it is
one, sends each other chip of the job its manifest run, in every set of its tables (01 R29, R30, R431). -/
def State.checkManifest (s : State) (im : Image) (c : Section) : Detail :=
  match firstDetail im.entryChips (fun e => if mostSlots < e.count then some [e.base + mostSlots] else
    firstDetail (im.entryChips.filter (fun f => decide (e.chip < f.chip))) (fun f => firstShared (entrySlots e) (entrySlots f))) with
  | some d => some d
  | none =>
    match s.manifestBad im c.timetable none with
    | some d => some d
    | none => firstDetail (s.ownDetours im) (fun d => s.manifestBad im d.timetable (some d.lost))

/-- The round lasts at least ABORT_NS at the top gear of the range (10 R297). -/
def checkAbortNs (im : Image) : Detail :=
  let ns := im.roundLen * (gearRatio im.fast).2 / (gearRatio im.fast).1
  broken (decide (ns < im.abortNs)) [im.abortNs, ns]

def State.checkHostRuns (s : State) (p : Nat) (im : Image) (c : Section) : Detail :=
  let mine := im.entryChips.find? (fun e => e.chip == s.chipId)
  firstDetail c.hostRun (fun e =>
    let h := HostRun.ofBits e.2
    let twin := c.hostRun.any (fun f =>
      let k := HostRun.ofBits f.2
      decide (f.1 < e.1) && k.valid && k.result == h.result && k.rslot == h.rslot)
    let slot := if h.result then decide (65536 ≤ h.rslot)
      else match mine with | some m => decide (h.rslot < m.base) || decide (m.base + m.count ≤ h.rslot) | none => true
    broken (h.valid && (h.part != p || decide (513 < h.units) || decide (im.roundLen < h.beat + h.units) || twin || slot)) [e.1])

def State.checkDetour (s : State) (im : Image) : Detail := broken (decide (s.arg 6 < im.detourBytes)) [im.detourBytes]

/-- The checks of 12 Table 7 after FORMAT, each with its code, lowest first. -/
def State.loaderChecks (s : State) (p : Nat) (im : Image) (c : Section) : List (Nat × Detail) :=
  [(0x02, s.checkUnsigned im), (0x03, s.checkSignature im), (0x04, s.checkGrade im), (0x05, s.checkTiles p c),
   (0x06, checkRoundLen im), (0x07, s.checkGovernor im), (0x08, checkMode im), (0x09, s.checkTime), (0x0A, s.checkTopology c),
   (0x0B, s.checkLedger im c), (0x0C, s.checkLease p im c), (0x0D, s.checkSds p im c), (0x0E, checkEncoding c),
   (0x0F, sectionHandles c), (0x10, checkWheels c), (0x11, s.checkTables p im c), (0x12, s.checkRoutes im c),
   (0x13, s.checkCells p im c), (0x14, s.checkManifest im c), (0x15, checkAbortNs im), (0x16, s.checkHostRuns p im c),
   (0x17, s.checkDetour im)]

/-- The refusal of an image: its code and detail. -/
def State.refusal (s : State) (p : Nat) (im : Image) (c : Section) : Option (List Nat) :=
  (s.loaderChecks p im c).findSome? (fun e => e.2.map (fun d => e.1 :: d))

/-! ### Loading (12 R360) -/

/-- What the PRT page shows of an image. -/
def State.showImage (s : State) (p : Nat) (im : Image) : State :=
  let s := s.setFs (pgPRT p) [(Reg.PRT_STAT_MODE, bit im.elastic 0), (Reg.PRT_STAT_POLICY, bit im.onDemand 0),
    (Reg.PRT_ROUND_LEN_BT, im.roundLen), (Reg.PRT_GOV_GOVERNOR, im.governor), (Reg.PRT_GOV_DEPUTY, im.deputy),
    (Reg.PRT_GEARS_FAST, im.fast), (Reg.PRT_GEARS_SLOW, im.slow)]
  s.set64 (pgPRT p) Reg.PRT_TAG_LO Reg.PRT_TAG_HI im.tag

/-- Install an accepted image: the first generation of its tables is bank 0. -/
def State.install (s : State) (p : Nat) (im : Image) (c : Section) : State :=
  let s := (s.adoptRanges p im.retainTag c).installTiles p c
  let s := s.setFs pgICH [(Reg.ICH_SWAP_GEN.at p, 0), (Reg.ICH_SWAP_ARM.at p, 0), (Reg.ICH_SWAP_DRAINING.at p, 0)]
  let s := s.installTables p 0 im.elastic c
  let s := (s.ownDetours im).foldl (fun s d =>
    (s.putLeases p d.leases).setSds im.elastic (arrivalPorts d.names d.landing)) s
  let s := (s.modPart p (fun x => { Part.reset with image := some im, stepLatch := x.stepLatch })).showImage p im
  let s := s.setPrtState p prtLOADED
  s.reportLoaded p true

/-- The Clerk reads an image by DMA of the PF (11 R317), checks it and installs it, or refuses it with a code; a refused image changes nothing else. -/
def execImageLoad (img : ImageRead) (s : State) : Host.Outcome State Fault Refusal :=
  .next (s.serveCommand 0x11 true (fun s =>
    let p := s.arg 3 % 4
    if s.arg64 0 % 64 ≠ 0 ∨ s.arg64 4 % 64 ≠ 0 then s.endCommand msBADARG []
    else if s.prtState p ≠ prtEMPTY ∨ s.scopeInReset (.part p) then s.endCommand msSTATE []
    else if !s.dmaOk then s.endCommand msDMAERR []
    else
    let s := s.fetchHost (s.arg64 0) (s.arg 2)
    match img with
      | .dmaError => s.endCommand msDMAERR []
      | .notImage off => s.endCommand msREFUSED [0x01, off]
      | .image im =>
        match im.sections.find? (fun c => c.chip == s.chipId) with
        | none => s.endCommand msREFUSED [0x01, im.badOffset]
        | some c =>
          if !im.headerOk || s.arg 2 != 4 * im.raw.length then s.endCommand msREFUSED [0x01, im.badOffset]
          else match s.refusal p im c with
            | some l => s.endCommand msREFUSED l
            | none => (s.install p im c).endCommand msOK []))

/-- IMAGE_UNLOAD: of a stopped or never launched partition. -/
def execImageUnload (s : State) : Host.Outcome State Fault Refusal :=
  .next (s.serveCommand 0x12 true (fun s =>
    let p := s.arg 0 % 4
    if s.prtState p = prtLOADED ∧ (s.part p).launchNt.isNone then (s.unloadImage p).endCommand msOK []
    else s.endCommand msSTATE []))

/-! ### Launching and stopping (12 R362, R363) -/

/-- Two gear periods, in the units of `State.nt`. -/
def twoPeriods : Nat := 2 * 2 ^ 20 * nsUnit

/-- The launch NT: at least two gear periods after the last report, at a round start of a partition already governed. How
much later than the earliest one it lies is the governor's choice, free here. -/
def State.launchAt (s : State) (last : Nat) : Nat × State :=
  let x := max (last * nsUnit + twoPeriods) ((s.ns + 1) * nsUnit) + Config.free s.free * nsUnit
  let s := { s with free := s.free + 1 }
  match s.governed.find? s.partRuns with
  | some q => (s.positionFrom q x, s)
  | none =>
    match s.governed.findSome? (fun q => ((s.part q).launchNt).map (fun l => (q, l))) with
    | some (q, l) => (s.positionAfter q l x, s)
    | none => (x, s)

/-- What a launch sets on the chip: STEP0, JOB_SEED, counters and the recovery state of a new run. -/
def State.setLaunch (s : State) (p at0 step0 seed : Nat) : State :=
  let pg := pgPRT p
  let s := s.set64 pg Reg.PRT_LAUNCH_LO Reg.PRT_LAUNCH_HI (at0 / nsUnit)
  let s := s.set64 pg Reg.PRT_SEED_LO Reg.PRT_SEED_HI seed
  let s := s.set64 pg Reg.PRT_STEP_LO Reg.PRT_STEP_HI step0
  let s := s.setFs pg [(Reg.PRT_ROUND_ROUND, 0), (Reg.PRT_RUNCNT_COUNT, 0), (Reg.PRT_SKIPCNT_COUNT, 0)]
  let s := s.setFs pgETU [(Reg.ETU_RCV_EPOCH.at p, 0), (Reg.ETU_RCV_ATTEMPTS.at p, 0), (Reg.ETU_RCV_ABORTS.at p, 0),
    (Reg.ETU_RCV_ABORT_ROUND.at p, 0), (Reg.ETU_RCV_CAUSE.at p, 0)]
  let s := s.modMgmt (fun m => { m with recordCounts := m.recordCounts.filter (fun k => k.2.2.2 / 2 ^ 32 != p) })
  s.modPart p (fun x => { Part.reset with
    image := x.image, launchNt := some at0, deputy := x.deputy, stepLatch := x.stepLatch })

/-- The governor, chip c, launches partition p, which is loaded here and not launched yet; the Clerk acknowledges (12 R362). -/
def State.takeLaunch (s : State) (c p at0 step0 seed : Nat) : State :=
  if s.prtState p = prtLOADED ∧ (s.part p).launchNt.isNone then (s.setLaunch p at0 step0 seed).clerkMessage p c [14, p] else s

/-- The NT at which the last chip of partition p's job reported it loaded, once every chip has. -/
def State.lastReport (s : State) (p : Nat) (im : Image) : Option Nat :=
  let ours := s.gov.loaded.filter (fun e => e.1 == p && im.chips.contains e.2.1)
  if im.chips.all (fun c => ours.any (fun e => e.2.1 == c)) then some (ours.foldl (fun n e => max n e.2.2) 0) else none

/-- The LAUNCH command ends when every chip has acknowledged. -/
def State.endLaunch (s : State) : State :=
  match s.gov.launching with
  | some z => if z.waiting.isEmpty then
      ({ s with gov := { s.gov with launching := none } } : State).endCommand msOK (words64 z.nt) else s
  | none => s

/-- A chip acknowledges its launch. -/
def State.takeLaunchAck (s : State) (p c : Nat) : State :=
  match s.gov.launching with
  | some z => if z.part = p then
      ({ s with gov := { s.gov with launching := some { z with waiting := z.waiting.filter (fun k => k != c) } } } : State).endLaunch
    else s
  | none => s

/-- LAUNCH on the governor chip, once every chip of the job has reported the partition loaded and not running. -/
def execLaunch (s : State) : Host.Outcome State Fault Refusal :=
  .next (s.serveCommand 0x13 true (fun s =>
    let p := s.arg 0 % 4
    match s.image p with
    | none => s.endCommand msSTATE []
    | some im =>
      if !s.governs p then s.endCommand msNOTGOV []
      else match s.lastReport p im with
      | none => s.endCommand msSTATE []
      | some last =>
        if s.prtState p != prtLOADED || (s.part p).launchNt.isSome then s.endCommand msSTATE []
        else
          let step0 := if (s.arg 0).testBit 8 then s.arg64 1 else 0
          let seed := if (s.arg 0).testBit 9 then s.arg64 3 else im.seed
          let (at0, s) := s.launchAt last
          let others := im.chips.filter (fun c => c != s.chipId)
          let s := s.forEach others (fun s c => s.clerkMessage p c [8, p, at0 / nsUnit, step0, seed])
          let s := { s with gov := { s.gov with
            loaded := s.gov.loaded.filter (fun e => e.1 != p), launching := some ⟨p, at0 / nsUnit, others⟩ } }
          (s.setLaunch p at0 step0 seed).endLaunch))

/-- Partition p stops at a round start (12 R363). -/
def State.takeStop (s : State) (p at0 : Nat) : State :=
  if s.partRuns p then s.modPart p (fun x => { x with stopNt := some at0 }) else s

/-- STOP on the governor chip: the first round start at least two gear periods ahead. -/
def execStop (s : State) : Host.Outcome State Fault Refusal :=
  .next (s.serveCommand 0x14 true (fun s =>
    let p := s.arg 0 % 4
    match s.image p with
    | none => s.endCommand msSTATE []
    | some im =>
      if !s.governs p then s.endCommand msNOTGOV []
      else if !s.partRuns p then s.endCommand msSTATE []
      else
        let at0 := s.positionFrom p (s.nt + twoPeriods)
        let s := s.forEach (im.chips.filter (fun c => c != s.chipId)) (fun s c => s.clerkMessage p c [9, p, at0 / nsUnit])
        (s.takeStop p at0).endCommand msOK (words64 (at0 / nsUnit))))

end Sys2Proof.Machine
end

