-- ==== Sys2Proof/Machine/Topology.lean ====
section
/-! DEFINITION. Topology announcements and the unscheduled route table (15 R421 to R423, R429). -/

namespace Sys2Proof.Machine

/-! ### Announcements (15 R421, Table 2) -/

/-- Entry k of this chip's announcement. -/
def State.topoEntry (s : State) (x : Nat) : List Byte :=
  leBytes x 1 ++ leBytes (s.linkState x) 1 ++ leBytes (s.peerChip x) 2 ++ leBytes (s.getL x Reg.ICL_LEDGER0_PEER_PORT) 1 ++
    leBytes (s.getL x Reg.ICL_LEDGER1_LAT_NS) 2 ++ [0]

/-- The payload of this chip's announcement. -/
def State.topoPayload (s : State) (version : Nat) : List Byte :=
  leBytes s.chipId 2 ++ leBytes version 2 ++ leBytes 47 1 ++ [0, 0, 0] ++ allPorts.flatMap s.topoEntry

/-- Send an announcement, which its ORIGIN made, to the neighbour on each port in UP but one. -/
def State.spread (s : State) (l : List Byte) (but : Option Nat) : State :=
  s.forEach (allPorts.filter (fun x => s.linkState x == lnkUP && but != some x)) (fun s x =>
    s.neighbourMsg x (leNat (slice l 0 2)) 0 0xB00 (bytesToWords l))

/-- The Clerk sends its own announcement, with the next VERSION. -/
def execTopologyAnnounceSend (s : State) : Host.Outcome State Fault Refusal :=
  .next (if s.mgmt.clerkUp then
    let v := (s.mgmt.topoVersion + 1) % 2 ^ 16
    let l := s.topoPayload v
    (s.modMgmt (fun m => { m with topoVersion := v, topoSent := m.topoSent ++ [l], topoNt := s.nt })).spread l none
  else s)

/-- The form of Table 2. -/
def topoFormed (l : List Byte) : Bool :=
  l.length == 384 && leNat (slice l 4 5) == 47 && (slice l 5 8).all (· == 0)

/-- (VERSION − last) mod 2^16 lies in 1 to 2^15 − 1. -/
def topoNewer (v last : Nat) : Bool :=
  let d := (v + 65536 - last % 65536) % 65536
  decide (1 ≤ d) && decide (d < 32768)

/-- An announcement arrives: a newer one is kept and sent on; one of this chip's own that it never sent disables its
sub-trunks; any other is ignored. -/
def State.takeTopology (s : State) (port : Nat) (bytes : List Byte) : State :=
  let o := leNat (slice bytes 0 2)
  let v := leNat (slice bytes 2 4)
  if !s.mgmt.clerkUp || !topoFormed bytes then s
  else if o = s.chipId then
    if s.mgmt.topoSent.contains bytes then s
    else s.forEach ((List.range 32).map (15 + ·)) (fun s x => s.disablePort x)
  else
    let fresh := match s.mgmt.topo.find? (fun t => t.origin == o) with | none => true | some t => topoNewer v t.version
    if fresh then
      (s.modMgmt (fun m => { m with
        topo := ⟨o, v, bytes, s.nt⟩ :: m.topo.filter (fun t => t.origin != o) })).spread bytes (some port)
    else
      s.modMgmt (fun m => { m with topo := m.topo.map (fun t => if t.origin = o then { t with heard := s.nt } else t) })

def execTopologyAnnounceReceive (port : PortId) (bytes : List Byte) (s : State) : Host.Outcome State Fault Refusal :=
  .next (s.takeTopology port.val bytes)

/-- An ORIGIN not heard from for 5 s is forgotten. -/
def execTopologyOriginExpiry (origin : BitVec 16) (s : State) : Host.Outcome State Fault Refusal :=
  .next (match s.mgmt.topo.find? (fun t => t.origin == origin.toNat) with
    | none => s
    | some t =>
      (s.atLeast (t.heard + 5000000000 * nsUnit)).modMgmt (fun m => { m with
        topo := m.topo.filter (fun t => t.origin != origin.toNat) }))

/-! ### The route table (15 R423, R429) -/

/-- The peers that a chip's links in UP join it to: its own links, or those it announced. -/
def State.neighbours (s : State) (c : Nat) : List Nat :=
  if c = s.chipId then (allPorts.filter (fun x => s.linkState x == lnkUP)).map s.peerChip
  else match s.mgmt.topo.find? (fun t => t.origin == c) with
    | none => []
    | some t => (allPorts.filter (fun k => leNat (slice t.bytes (9 + 8 * k) (10 + 8 * k)) == lnkUP)).map
        (fun k => leNat (slice t.bytes (10 + 8 * k) (12 + 8 * k)))

/-- A packet at chip c reaches chip d of its rack by the choices of R422, over links in UP: over one link where board or position is
the same, or by the chip at d's position on c's board. -/
def State.inRack (s : State) (c d : Nat) : Bool :=
  let joined := fun a b => (s.neighbours a).contains b
  let via := chipRack c * 128 + chipBoard c * 16 + chipPos d
  c == d || (if chipBoard c == chipBoard d || chipPos c == chipPos d then joined c d else joined c via && joined via d)

/-- The chips of a rack that this chip knows of: those that announced themselves, and its own neighbours. -/
def State.knownChips (s : State) (rack : Nat) : List Nat :=
  (s.mgmt.topo.map (·.origin) ++ s.neighbours s.chipId).eraseDups.filter (fun c => chipRack c == rack)

/-- A packet that comes into its rack at chip c reaches every position there (DEDUCED, log entry 79). -/
def State.entersAt (s : State) (rack c : Nat) : Bool := chipRack c == rack && (s.knownChips rack).all (s.inRack c)

/-- Links from a set of chips to a chip of a rack from which a packet goes on to every chip there, within n links. In that rack a packet
takes no other rack's links. -/
def State.distance (s : State) (rack : Nat) : Nat → List Nat → List Nat → Option Nat
  | 0, _, _ => none
  | n + 1, front, seen =>
    if front.any (s.entersAt rack) then some 0
    else
      let next := (((front.filter (fun c => chipRack c != rack)).flatMap s.neighbours).eraseDups).filter (fun c => !seen.contains c)
      if next.isEmpty then none else (s.distance rack n next (next ++ seen)).map (· + 1)

/-- The entry for a rack: the lowest of the ports that a shortest route leaves by. -/
def State.routeTo (s : State) (rack : Nat) : Nat :=
  let fuel := s.mgmt.topo.length + 2
  let l := (allPorts.filter (fun x => s.linkState x == lnkUP)).filterMap (fun x =>
    (s.distance rack fuel [s.peerChip x] [s.chipId, s.peerChip x]).map (fun d => (d, x)))
  match l with
  | [] => 0
  | a :: l => 128 + (l.foldl (fun (b : Nat × Nat) e => if e.1 < b.1 then e else b) a).2

/-- The Clerk writes the entries that its topology map changes. -/
def execRouteTableUpdate (s : State) : Host.Outcome State Fault Refusal :=
  .next (if s.mgmt.clerkUp then
    let racks := (s.mgmt.topo.map (fun t => chipRack t.origin) ++
      ((allPorts.filter (fun x => s.linkState x == lnkUP)).map (fun x => chipRack (s.peerChip x)))).eraseDups
    let l := (racks.filter (fun r => r != chipRack s.chipId)).map (fun r => (r, s.routeTo r))
    s.modIch (fun z => { z with urt := l.foldl (fun m e => m.put e.1 e.2 0) [] })
  else s)

/-- A write of ICH_URT_DATA writes the entry that ICH_URT_ADDR names. -/
def execUrtDataWrite (v : BitVec 32) (s : State) : Host.Outcome State Fault Refusal :=
  let r := s.getF pgPH Reg.ICH_URT_ADDR_RACK
  .next (s.modIch (fun z => { z with urt := z.urt.put r (bits v.toNat 7 7 * 128 + bits v.toNat 5 0) 0 }))

end Sys2Proof.Machine
end

