-- ==== Sys2Proof/Machine/Clerk.lean ====
section
/-! DEFINITION. What a chip does with the messages that reach it: notices, topology announcements and what other Clerks send (07
R219; 08 R249, R250, R257; 10 R289, R295, R302, R305, R306; 12 R362, R363; 15 R421). -/

namespace Sys2Proof.Machine

/-- A notice in a message is acted on (10 R295, Table 4). -/
def State.takeNoticeFrame (s : State) (x : Nat) (l : List Byte) : State :=
  let n := fun lo hi => leNat (slice l lo hi)
  let p := n 1 2 % 4
  match n 0 1 with
  | 1 => s.takeAbort x p (n 2 3) (n 4 6) (n 6 8) (n 8 12) (n 12 16)
  | 2 => s.takeResume x p (n 4 6) (n 6 8) (n 8 16)
  | 3 => s.takeRollcall x p (n 4 6) (n 6 8) (n 8 10)
  | _ => s

/-- A chip of partition p's job has left it or has a permanent fault: the chip that fails it over declares it failed. The deputy governs
from the next round start where the governor has left (10 R289, R305). -/
def State.takeLeave (s : State) (p c : Nat) : State :=
  match s.image p with
  | none => s
  | some im =>
    let s := if im.governor = c ∧ im.deputy = s.chipId then s.modPart p (fun x => { x with deputyNext := true }) else s
    if s.keeperOf p im [c] = s.chipId then s.declareFailed p c else s

/-- What the Clerk does with a message from chip c about partition p (codes of log entry 34). -/
def State.clerkActs (s : State) (p c : Nat) : List Nat → State
  | 1 :: g :: tb :: _ => s.takeAnnouncement c g tb
  | 2 :: g :: _ => { s with gov := { s.gov with asked := some (c, g) } }
  | 3 :: g :: go :: _ => s.takeAnswer c g (go == 1)
  | 4 :: _ => s.takeAck c
  | 5 :: k :: _ => s.takeLeave p k
  | 6 :: cause :: _ => if s.governs p then s.shiftDown (s.gearLimit (if cause = 1 then .emergency else .power)) else s
  | 7 :: _ :: on :: _ => s.noteLoaded p c (on == 1)
  | 8 :: _ :: nt :: step0 :: seed :: _ => s.takeLaunch c p (nt * nsUnit) step0 seed
  | 9 :: _ :: nt :: _ => s.takeStop p (nt * nsUnit)
  | 11 :: port :: _ => if port < 47 then s.disablePort port else s
  | 12 :: _ => s.takeLeave p c
  | 13 :: lost :: i :: d :: _ => s.takeDigest ⟨p, lost, c, i, d⟩
  | 14 :: _ => s.takeLaunchAck p c
  | 15 :: k :: _ => s.takeLoss p c k
  | 16 :: lost :: t :: _ => s.takeSwapAt p lost t
  | _ => s

/-- A message is delivered: a notice or a topology announcement by its TARGET, or what another Clerk sent, which this chip's Clerk acts
on while it runs (DESIGN CHOICE, log entry 34). -/
def State.takeMessage (s : State) (x : Nat) (f : Frame) : State :=
  let p := f.hdr.postcode / 2 ^ 14
  if f.hdr.round = 0xA00 then s.takeNoticeFrame x (wordBytes f.data)
  else if f.hdr.round = 0xB00 then s.takeTopology x (wordBytes f.data)
  else if f.hdr.round = clerkTarget ∧ s.mgmt.clerkUp then s.clerkActs p f.hdr.src (clerkNumbers f.data)
  else s

/-- A message goes to the Clerk. -/
def execMsg (port : PortId) (s : State) : Host.Outcome State Fault Refusal :=
  .next (s.serve port.val 6 (fun s x k =>
    (s.modMgmt (fun m => { m with clerkInbox := m.clerkInbox ++ [k.frame] })).takeMessage x k.frame))

end Sys2Proof.Machine
end

