-- ==== Sys2Proof/Machine/Ingest.lean ====
section
/-! DEFINITION. The ingest window, payload fetches and the distribution into request slots (11 R320 to R322, R326 to R328). -/

namespace Sys2Proof.Machine

/-- Free cells of a tenant's quota (11 R323). -/
def State.freeCells (s : State) (t : Nat) : Nat := s.getT t Reg.IGQ_T_QUOTA_CELLS - s.cellsUsed t

/-- A descriptor's fields (11 Table 3). -/
def Desc.parse (l : List Byte) (res : Bool) : Desc :=
  ⟨leNat (slice l 0 8), leNat (slice l 8 12), (leNat (slice l 12 16)) % 4, leNat (slice l 16 24), slice l 24 64, 0, [], res, 0⟩

/-- The status of a bad descriptor (11 R321, step 3): the first case that applies. -/
def State.badDesc (s : State) (t : Nat) (d : Desc) (ctl : Nat) : Option Nat :=
  if d.len < 64 then some csRUNT
  else if 65536 < d.len ∨ s.getT t Reg.IGQ_T_MAXLEN_BYTES < d.len then some csOVERSIZE
  else if d.addr % 64 ≠ 0 ∨ 4 ≤ ctl then some csBADDESC
  else none

/-- The descriptor is admitted: its payload is fetched (11 R321, step 5). -/
def State.admitDesc (s : State) (t : Nat) (d : Desc) : State :=
  let d := { d with win := s.hif.winSeq }
  let s := s.modHif (fun h => { h with winSeq := h.winSeq + 1, fetchArb := h.fetchArb.add t (dmaCut d.addr d.len) 0 })
  ((s.modTenant t (fun x => { x with fetching := x.fetching ++ [d] })).settleTenant t).emit (.fetch t d.addr d.len)

/-- A write to the ingest window of tenant t's VF, by the first step of R321 that applies. -/
def execIngestWindowWrite (t : TenantId) (off : BitVec 16) (bytes : List Byte) (s : State) : Host.Outcome State Fault Refusal :=
  let t := t.val
  let p := s.partOfTenant t
  .next (if !s.vfExists t || !s.dmaOk then s
  else if off.toNat ≠ 0x1000 ∨ bytes.length ≠ 64 then s.setV t Reg.VF_IGQ_BADWR_COUNT (s.getV t Reg.VF_IGQ_BADWR_COUNT + 1)
  else if s.getB pgHIF (Reg.HIF_RP_CTL_EN.at p) then s.addF pgHIF (Reg.HIF_RP_IGN_COUNT.at p) 1
  else if !s.tenantOn t || s.inTeardown t then s.setV t Reg.VF_IGQ_BADWR_COUNT (s.getV t Reg.VF_IGQ_BADWR_COUNT + 1)
  else
    let res := s.lbReserves p
    let d := Desc.parse bytes res
    match s.badDesc t d (leNat (slice bytes 12 16)) with
    | some st => s.complete t st d.tag 0xFFFFFFFF 0xFFFF none
    | none =>
      let s := (s.usePointers t).2
      if 64 ≤ (s.tenant t).occ ∨ s.freeCells t < payloadCells d.len ∨ (res ∧ ¬ s.lbRoom d.len) then
        ((s.setV t Reg.VF_IGQ_STAT_OVR 1).setV t Reg.VF_IGQ_OVRCNT_COUNT (s.getV t Reg.VF_IGQ_OVRCNT_COUNT + 1)).cause t icOVR
      else s.admitDesc t d)

/-- The requests of the i-th descriptor being fetched have been issued. -/
def State.fetchIssued (s : State) (t i : Nat) : State :=
  s.runFetches t (((s.tenant t).fetching.drop (i + 1)).flatMap (fun d => dmaCut d.addr d.len)).length

/-- The last byte of a payload arrives: the i-th descriptor being fetched is accepted into the filling bank, after those accepted
before and, in one cycle, after those whose window writes were earlier (11 R322). -/
def execDescriptorAccept (t : TenantId) (i : BitVec 6) (s : State) : Host.Outcome State Fault Refusal :=
  let t := t.val
  .next (match (s.tenant t).fetching[i.toNat]? with
    | none => s
    | some d =>
      if !s.dmaOk then s
      else
        let (ok, s) := s.usePointers t
        if !ok then s
        else
          let s := s.fetchIssued t i.toNat
          let d := { d with nt := s.nt, payload := s.hostRead d.addr d.len }
          (s.modTenant t (fun x => { x with
            fetching := x.fetching.eraseIdx i.toNat,
            filling := x.filling.takeWhile (fun b => !b.later d) ++ d :: x.filling.dropWhile (fun b => !b.later d) })).settleTenant t)

/-- A fetch fails: DMAERR, and the cells are freed (11 R322). -/
def execPayloadFetchFailure (t : TenantId) (i : BitVec 6) (s : State) : Host.Outcome State Fault Refusal :=
  let t := t.val
  .next (match (s.tenant t).fetching[i.toNat]? with
    | none => s
    | some d =>
      let s := (s.fetchIssued t i.toNat).completeUncollected t csDMAERR [d]
      (s.modTenant t (fun x => { x with fetching := x.fetching.eraseIdx i.toNat })).settleTenant t)

/-! ### Distribution (11 R326 to R328) -/

/-- Host run entry e, when it is in use, of a kind, and its tenant is enabled and of its partition. -/
def State.hostRun (s : State) (e : Nat) (result : Bool) : Option HostRun :=
  let h := HostRun.ofBits (s.hif.hostRun.get e 0)
  if h.valid && h.result == result && s.tenantOn h.tenant && s.partOfTenant h.tenant == h.part then some h else none

/-- The request header (11 Table 5). -/
def requestHeader (g : Gathered) (collected : Nat) : List Byte :=
  leBytes g.desc.len 4 ++ leBytes g.tenant 2 ++ leBytes g.desc.prio 1 ++ [1] ++ leBytes g.desc.tag 8 ++
    leBytes (g.desc.nt / nsUnit) 4 ++ leBytes (collected / nsUnit) 4 ++ (g.desc.user ++ List.replicate 40 0).take 40

/-- The bytes of a request slot of `units` units: header, then payload, then zeros. -/
def slotBytes (g : Option Gathered) (collected units : Nat) : List Byte :=
  match g with
  | none => List.replicate (128 * units) 0
  | some g =>
    let b := (requestHeader g collected ++ List.replicate 64 0) ++ g.desc.payload
    (b ++ List.replicate (128 * units) 0).take (128 * units)

/-- An ingest-distribution run: unit j of the slot is written in beat BEAT + j, as poisoned zeros for a removed entry. -/
def execIngestDistributionRun (e : BitVec 15) (s : State) : Host.Outcome State Fault Refusal :=
  .next (match s.hostRun e.toNat false with
    | none => s
    | some h =>
      if s.prtState h.part ≠ prtRUNNING ∨ s.tileInReset h.tile then s
      else
        let s := s.atLeast (s.beatNt h.part h.beat)
        let c := s.collection h.part (s.round h.part)
        let g := c.bind (fun c => c.entries.find? (fun g => g.tenant == h.tenant && g.rslot == h.rslot))
        let removed := match g with | some g => g.removed | none => false
        let l := toWords (32 * h.units) (slotBytes g (match c with | some c => c.nt | none => 0) h.units)
        let s := s.forEach (List.range h.units) (fun s j =>
          let ws := if removed then badWords 32 else ((l.drop (32 * j)).take 32).map PV.ok
          s.fabricWrite ⟨hostPort, h.beat, h.tile, h.handle, h.off + j, cFAR, true, some h.tenant⟩ (h.beat + j) 0 0 ws)
        match g with
        | some g => if g.removed && g.undr then (s.setV h.tenant Reg.VF_IGQ_STAT_UNDR 1).cause h.tenant icUNDR else s
        | none => s)

end Sys2Proof.Machine
end

