-- ==== Sys2Proof/Machine/Letterbook.lean ====
section
/-! DEFINITION. The Letterbook ring and replay (09 R271, R273 to R275). -/

namespace Sys2Proof.Machine

/-- A write of HIF_LB_CTL; EN from 0 to 1 starts both counts at 0, with nothing under way and nothing lost before. -/
def execLetterbookEnable (v : BitVec 32) (s : State) : Host.Outcome State Fault Refusal :=
  let f := fun (r : Fld) => (r, bits v.toNat r.hi r.lo)
  let rises := v.getLsbD 31 && !s.getB pgHIF Reg.HIF_LB_CTL_EN
  let s := s.setFs pgHIF [f Reg.HIF_LB_CTL_EN, f Reg.HIF_LB_CTL_MODE, f Reg.HIF_LB_CTL_PARTS]
  .next (if rises then
    (s.setFs pgHIF [(Reg.HIF_LB_HEAD_BYTES, 0), (Reg.HIF_LB_TAIL_BYTES, 0)]).modHif
      (fun h => { h with lbWriting := [], lbGap := none, writeArb := h.writeArb.drop dmaPF 0 })
  else s)

/-- HIF_RPp_CTL.EN is set, while the partition runs no image (09 R275). -/
def execReplayEnable (p : PartId) (s : State) : Host.Outcome State Fault Refusal :=
  .next (if s.prtState p.val ≤ prtLOADED then s.setF pgHIF (Reg.HIF_RP_CTL_EN.at p.val) 1 else s)

/-- Every byte of the oldest record under way is written: HEAD moves past it, and PF vector 1 signals it. -/
def execLetterbookHeadAdvance (s : State) : Host.Outcome State Fault Refusal :=
  .next (match s.hif.lbWriting with
    | [] => s
    | r :: rest =>
      if !s.dmaOk then s
      else
        let s := s.runWrites dmaPF (rest.flatMap (fun r => dmaCut 0 r.bytes.length)).length
        let base := s.get64 pgHIF Reg.HIF_LB_BASE_LO Reg.HIF_LB_BASE_HI
        let s := s.ringWrite (base - base % 4096) s.lbSize (s.getF pgHIF Reg.HIF_LB_HEAD_BYTES) r.bytes
        ((s.modHif (fun h => { h with lbWriting := rest })).addF pgHIF Reg.HIF_LB_HEAD_BYTES r.bytes.length).pfInt 1)

end Sys2Proof.Machine
end

