-- ==== Sys2Proof/Machine/Pages.lean ====
section
/-! DEFINITION. Register accesses: the table window, swaps, port names, cell ranges, windows, handles, counters, injection,
the expert key and the plain write of a register (00 R10, R11; 03 R91; 05 R133; 06 R188, R191, R193 to
R195; 10 R315; 13 R371 to R386). -/

namespace Sys2Proof.Machine

/-! ### The interchange's tables (06 R188, R191, R193) -/

/-- ICH_TBL_ADDR. -/
structure TblAddr where
  table : Nat
  bank : Nat
  port : Nat
  index : Nat
  deriving DecidableEq, Repr

def State.tblAddr (s : State) : TblAddr :=
  let g := s.getF pgTBL
  ⟨g Reg.ICH_TBL_ADDR_TABLE, g Reg.ICH_TBL_ADDR_BANK, g Reg.ICH_TBL_ADDR_PORT, g Reg.ICH_TBL_ADDR_INDEX⟩

/-- The address names an entry. -/
def addrNames (a : TblAddr) : Bool := decide (a.table ≤ 2) && decide (a.port ≤ 46) && (a.table != 2 || decide (a.index ≤ 63))

/-- The entry that the address names: a timetable or landing entry whole, a lease in its low bits. -/
def State.tblEntry (s : State) (a : TblAddr) : Nat :=
  if a.table = 2 then s.ich.lease.get (64 * a.port + a.index) 0
  else (s.ich.tables.get (tableKey a.table a.port a.bank a.index) 0).toNat

/-- The command completes, refused or not. -/
def State.tblDone (s : State) (refused : Bool) : State :=
  s.setFs pgTBL [(Reg.ICH_TBL_STAT_DONE, 1), (Reg.ICH_TBL_STAT_REFUSED, bit refused 0)]

/-- OP 0b01. -/
def execTableWindowRead (s : State) : Host.Outcome State Fault Refusal :=
  .next (let a := s.tblAddr
  if !addrNames a then s.tblDone true
  else
    let v := s.tblEntry a
    (s.setFs pgTBL ([0, 1, 2, 3].map (fun k => (Reg.ICH_TBL_DATA_WORD.at k, v / 2 ^ (32 * k))))).tblDone false)

/-- The partition an entry belongs to; none when it is absent. -/
def State.entryOwner (s : State) (table : Nat) (w : BitVec 128) : Option Nat :=
  if table = 0 then (if s.ttPresent w then some (TtEntry.ofBits w).part else none)
  else if s.ldPresent w then some (LdEntry.ofBits w).part else none

/-- The write is refused. -/
def State.tblRefused (s : State) (a : TblAddr) (new : BitVec 128) : Bool :=
  if a.table = 2 then
    let old := s.tblEntry a
    old.testBit 2 && s.holdsImage (old % 4)
  else
    let kept := fun (w : BitVec 128) => match s.entryOwner a.table w with | some q => s.bankKept q a.bank | none => false
    kept (BitVec.ofNat 128 (s.tblEntry a)) || kept new

/-- The control word an entry is stored as. -/
def upEntry (a : TblAddr) : Upset → Bool :=
  if a.table = 2 then upLease a.port a.index else upTable (a.table == 1) a.port a.bank a.index

/-- The bits of word 0 that an armed injection inverts: a bit number above 38 acts as 38, and a DOUBLE of two equal bits
acts as SINGLE (13 R378). -/
def State.injectedBits (s : State) (pg : Nat) : BitVec 39 :=
  let one := fun (f : Fld) => (1 : BitVec 39) <<< (min 38 (s.getF pg f))
  if s.getF pg Reg.BLK_ERR_INJ_KIND = 2 then one Reg.BLK_ERR_INJ_BIT0 ||| one Reg.BLK_ERR_INJ_BIT1
  else one Reg.BLK_ERR_INJ_BIT0

/-- An entry written while an injection is armed on an interchange page has its word 0 struck (13 Table 4). -/
def State.strikeEntry (s : State) (a : TblAddr) : State :=
  match [pgICH, pgTBL, pgALI, pgPH].find? (fun pg => s.getB pg Reg.BLK_ERR_INJ_ARM &&
      (s.getF pg Reg.BLK_ERR_INJ_KIND == 1 || s.getF pg Reg.BLK_ERR_INJ_KIND == 2)) with
  | none => s
  | some pg =>
    let m := s.injectedBits pg
    if h : a.port < 47 then
      let x : PortId := ⟨a.port, h⟩
      let u := if a.table = 2 then Upset.lease x (BitVec.ofNat 6 a.index) m
        else if a.table = 1 then Upset.landing x (a.bank == 1) (BitVec.ofNat 15 a.index) 0 m
        else Upset.timetable x (a.bank == 1) (BitVec.ofNat 15 a.index) 0 m
      { s with upsets := s.upsets ++ [u] }.injected pg
    else s

/-- OP 0b10. -/
def execTableWindowWrite (s : State) : Host.Outcome State Fault Refusal :=
  .next (let a := s.tblAddr
  let v := [0, 1, 2, 3].foldl (fun n k => n + s.getF pgTBL (Reg.ICH_TBL_DATA_WORD.at k) * 2 ^ (32 * k)) 0
  if !addrNames a || s.tblRefused a (BitVec.ofNat 128 v) then s.tblDone true
  else
    let s := s.modIch (fun z =>
      if a.table = 2 then { z with lease := z.lease.put (64 * a.port + a.index) (v % 8) 0 }
      else { z with tables := z.tables.put (tableKey a.table a.port a.bank a.index) (BitVec.ofNat 128 v) 0 })
    ((s.rewriteControl (upEntry a)).strikeEntry a).tblDone false)

/-- ICH_SWAP_CTLp.ARM is set; ICH_TT_SWAPp already holds T. -/
def execSwapArm (p : PartId) (s : State) : Host.Outcome State Fault Refusal :=
  .next (s.hostSet pgICH (Reg.ICH_SWAP_ARM.at p.val) 1)

/-- Alias word w of a bank: logical ports 4w to 4w + 3. -/
def execAliasEntryWrite (p : PartId) (bank : Bool) (w : Fin 12) (v : BitVec 32) (s : State) : Host.Outcome State Fault Refusal :=
  let g := bit bank 0
  .next (if s.bankKept p.val g then s.setF pgTBL Reg.ICH_TBL_STAT_REFUSED 1
  else s.forEach ((List.range 4).filter (fun k => decide (4 * w.val + k < 47))) (fun s k =>
    let l := 4 * w.val + k
    let e := bits v.toNat (8 * k + 7) (8 * k + 7) * 128 + bits v.toNat (8 * k + 5) (8 * k)
    (s.modIch (fun z => { z with names := z.names.put ((2 * p.val + g) * 64 + l) e 0 })).rewriteControl (upName p.val g l)))

/-- ICH_SDS0 or ICH_SDS1: a port that a partition with an image leases keeps its bit. -/
def execSdsWrite (hi : Bool) (v : BitVec 32) (s : State) : Host.Outcome State Fault Refusal :=
  let f := if hi then Reg.ICH_SDS1_PORTS else Reg.ICH_SDS0_PORTS
  let old := s.getF pgALI f
  .next (s.setF pgALI f ((List.range f.width).foldl (fun n k =>
    n + bit (if s.leasedByHolder (k + (if hi then 32 else 0)) then old.testBit k else v.toNat.testBit k) k) 0))

/-- ICH_PH_BASEp or ICH_PH_LIMITp, while partition p holds no image; LIMIT is at most 0x1_A000. -/
def execPigeonholeRangeWrite (p : PartId) (limit : Bool) (v : BitVec 32) (s : State) : Host.Outcome State Fault Refusal :=
  let c := bits v.toNat 16 0
  .next (if s.holdsImage p.val then s
  else if limit then s.setF pgPH (Reg.ICH_PH_LIMIT_CELL.at p.val) (min c 0x1A000)
  else s.setF pgPH (Reg.ICH_PH_BASE_CELL.at p.val) c)

/-! ### The plain write (00 R10) -/

/-- A write of a region register that acts from the next measurement keeps the value it had for until then (08 R259). -/
def State.keepOld (s : State) (pg : Nat) (f : Fld) : State :=
  let late := [Reg.RGN_VMAX_MV, Reg.RGN_CAL_GUARD_MV, Reg.RGN_DROOP_EMERG_MV, Reg.RGN_DROOP_WARN_MV]
  if 0x010 ≤ pg ∧ pg ≤ 0x01F ∧ late.contains f then
    s.modRmon (pg - 0x010) (fun x =>
      { x with old := if x.old.any (fun e => e.1 == f.key pg) then x.old else x.old ++ [(f.key pg, s.getF pg f)] })
  else s

/-- A field takes a written word by its access code. -/
def State.writeField (s : State) (pg : Nat) (f : Fld) (w : Nat) : State :=
  let s := s.keepOld pg f
  let v := bits w f.hi f.lo
  let old := s.getF pg f
  match f.acc with
  | .ro | .wo => s
  | .rw => s.hostSet pg f v
  | .w1c => s.setF pg f (Nat.lor old v - v)
  | .w1s => s.setF pg f (Nat.lor old v)
  | .rwl => if s.getB pg Reg.BLK_EXPERT_KEY_OPEN then s.setF pg f v else s

/-- Word w of a remote window entry. -/
def execRwtEntryWrite (i : Fin 32) (w : Fin 8) (v : BitVec 32) (s : State) : Host.Outcome State Fault Refusal :=
  .next (s.forEach (Reg.ich3Fields.filterMap (fun f => if f.off < 0x200 then none else f.hit (0x200 + 0x20 * i.val + 4 * w.val)))
    (fun s f => s.writeField pgPH f v.toNat))

/-- Offsets of the handle, wheel, change-list and code registers of a tile. -/
def isHandleReg (off : Nat) : Bool :=
  (decide (0x400 ≤ off) && decide (off ≤ 0x7FF)) || (decide (0x200 ≤ off) && decide (off ≤ 0x27F)) || off == 0x160

/-- A handle, wheel, change-list or code register of a tile that is halted. CLOSED is not the writer's. -/
def execHandleEntryWrite (t : TileId) (off : BitVec 12) (v : BitVec 32) (s : State) : Host.Outcome State Fault Refusal :=
  let t := t.val
  let o := off.toNat
  .next (if s.seqState t ≠ seqHALTED ∨ !s.pageOpen (pgTIL t) ∨ !isHandleReg o then s
  else
    let s := s.forEach (Reg.tilFields.filterMap (fun f => f.hit o)) (fun s f => s.writeField (pgTIL t) f v.toNat)
    if 0x400 ≤ o then s.rewriteControl (upWord (upHandle t ((o - 0x400) / 16)) (o % 16 / 4))
    else if o < 0x200 then s
    else s.rewriteControl (upWord (upWheel t) ((o - 0x200) / 4)))

/-- TIL_INSP_MODEm of a tile that is halted. -/
def execInspectorModeWrite (t : TileId) (m : Fin 4) (v : BitVec 32) (s : State) : Host.Outcome State Fault Refusal :=
  .next (if s.seqState t.val ≠ seqHALTED ∨ !s.pageOpen (pgTIL t.val) then s
  else s.setF (pgTIL t.val) (Reg.TIL_INSP_MODE.at m.val) v.toNat)

/-! ### Counters (03 R91) -/

/-- The counters of a link. -/
def linkCounters : List Fld :=
  [Reg.ICL_CRCERR_COUNT, Reg.ICL_NAKTX_COUNT, Reg.ICL_NAKRX_COUNT, Reg.ICL_RPLTX_COUNT, Reg.ICL_FECCORR_COUNT,
   Reg.ICL_FECUNC_COUNT, Reg.ICL_MALFORMED_COUNT, Reg.ICL_DUP_COUNT, Reg.ICL_RPLOVF_COUNT, Reg.ICL_NAKSTALE_COUNT,
   Reg.ICL_ELDROP_COUNT, Reg.ICL_CREDOVF_COUNT, Reg.ICL_EXR_TX_COUNT, Reg.ICL_EXR_RX_COUNT, Reg.ICL_EXR_ERR_COUNT,
   Reg.ICL_EXR_FECH_COUNT]

/-- The counters of a page. -/
def pageCounters (pg : Nat) : List Fld :=
  let links := fun n => (List.range n).flatMap (fun u => linkCounters.map (fun f => f.shift (0x100 + 0x180 * u)))
  if pg = pgETU then [Reg.ETU_LOSTCNT_COUNT, Reg.ETU_SUPPCNT_COUNT, Reg.ETU_TRANSIENT_COUNT, Reg.ETU_PERMANENT_COUNT,
    Reg.ETU_CORRCNT_COUNT, Reg.ETU_RCV_ABORTS]
  else if pg = pgMGT then [Reg.MGT_RSTDISC_COUNT, Reg.MGT_CLERKRST_COUNT]
  else if pg = pgSNP then [Reg.SNP_MISSED_COUNT]
  else if 0x008 ≤ pg ∧ pg ≤ 0x00B then [Reg.PRT_RUNCNT_COUNT, Reg.PRT_SKIPCNT_COUNT]
  else if pg = pgICH then [Reg.ICH_DEADLETTER_COUNT, Reg.ICH_LANDMISS_COUNT, Reg.ICH_LATE_COUNT, Reg.ICH_GENMIS_COUNT,
    Reg.ICH_POISONOUT_COUNT, Reg.ICH_CELLOVR_COUNT, Reg.ICH_SUPPRESS_COUNT]
  else if pg = pgPH then [Reg.RWT_MISS_COUNT, Reg.RWT_SERVED_COUNT, Reg.ICH_URT_MISS_COUNT]
  else if 0x030 ≤ pg ∧ pg ≤ 0x03E then links 1
  else if 0x040 ≤ pg ∧ pg ≤ 0x047 then links 4
  else if pg = pgHIF then [Reg.HIF_LB_LOSTCNT_COUNT, Reg.HIF_RP_IGN_COUNT, Reg.HIF_RES_DROP_COUNT, Reg.HIF_RES_POISON_COUNT,
    Reg.HIF_RES_DUP_COUNT]
  else if 0x100 ≤ pg ∧ pg ≤ 0x1FF then [Reg.TIL_DISPATCH_DROPS_COUNT, Reg.TIL_CKMIS_CNT_COUNT, Reg.TIL_SPD_CECNT_COUNT,
    Reg.TIL_SPD_UECNT_COUNT, Reg.TIL_SPD_REPCNT_COUNT, Reg.TIL_SPD_REFCNT_COUNT, Reg.TIL_SPD_COLLCNT_COUNT]
  else if 0x1000 ≤ pg then [Reg.VF_IGQ_OVRCNT_COUNT, Reg.VF_IGQ_BADWR_COUNT, Reg.VF_RR_LOST_COUNT]
  else []

/-- The page a reference names. -/
def pageNum (r : PageRef) : Nat :=
  match r with
  | .bar0 n => n.toNat
  | .vf t => pgVF t.val
  | .pfMsix => 0x2000

/-- The page takes writes; the PF's MSI-X table is no page of registers. -/
def State.takesWrites (s : State) (r : PageRef) : Bool :=
  match r with
  | .bar0 n => s.pageOpen n.toNat
  | .vf t => s.vfExists t.val
  | .pfMsix => false

/-- A counter takes the written value. -/
def execCounterWrite (pg : PageRef) (off : BitVec 12) (v : BitVec 32) (s : State) : Host.Outcome State Fault Refusal :=
  .next (if !s.takesWrites pg then s
  else s.forEach ((pageCounters (pageNum pg)).filterMap (fun f => f.hit off.toNat)) (fun s f => s.setF (pageNum pg) f v.toNat))

/-! ### The header's own commands (13 R378, R379) -/

/-- Pages with an injection target (13 Table 4). -/
def injects (pg : Nat) : Bool :=
  (decide (0x100 ≤ pg) && decide (pg ≤ 0x1FF)) || (decide (0x020 ≤ pg) && decide (pg ≤ 0x023)) ||
    (decide (0x030 ≤ pg) && decide (pg ≤ 0x03E)) || (decide (0x040 ≤ pg) && decide (pg ≤ 0x047))

/-- BLK_ERR_INJ: ARM 1 arms or replaces an injection, ARM 0 cancels it. A write in the cycle of the injection is discarded. -/
def execErrorInjectionArm (n : BitVec 12) (v : BitVec 32) (s : State) : Host.Outcome State Fault Refusal :=
  let pg := n.toNat
  .next (if !injects pg ∨ !s.pageOpen pg ∨ s.devMet pg Reg.BLK_ERR_INJ_ARM then s
  else
    let s := s.forEach [Reg.BLK_ERR_INJ_ARM, Reg.BLK_ERR_INJ_KIND, Reg.BLK_ERR_INJ_LINK, Reg.BLK_ERR_INJ_BIT1,
      Reg.BLK_ERR_INJ_BIT0] (fun s f => s.writeField pg f v.toNat)
    s.setF pg Reg.BLK_STAT_INJPEND (bits v.toNat 31 31))

/-- BLK_EXPERT_KEY: 0x0000_4558 opens, any other value closes. -/
def State.writeKeyOf (s : State) (n w : Nat) : State :=
  if s.pageOpen n then s.setF n Reg.BLK_EXPERT_KEY_OPEN (bit (w == 0x4558) 0) else s

def execExpertKeyWrite (n : BitVec 12) (v : BitVec 32) (s : State) : Host.Outcome State Fault Refusal :=
  .next (s.writeKeyOf n.toNat v.toNat)

/-- DEV_CHIP_ID.RACK. -/
def execRackWrite (v : BitVec 32) (s : State) : Host.Outcome State Fault Refusal :=
  .next (s.writeRack (bits v.toNat 15 7))

/-! ### A write to a register without its own row (00 R10) -/

/-- Registers whose writes have rows of their own: this one has no effect on them. -/
def hasOwnRow (pg off : Nat) : Bool :=
  let r := fun a b => decide (a ≤ off) && decide (off ≤ b)
  if 0x1000 ≤ pg then off == 0x50 || (pageCounters pg).any (fun f => (f.hit off).isSome)
  else
    off == 0x018 || off == 0x01C || (pageCounters pg).any (fun f => (f.hit off).isSome) ||
    (if pg = pgDEV then off == 0x104
     else if pg = pgTMB then off == 0x120 || off == 0x14C || off == 0x160
     else if pg = pgSNP then off == 0x100
     else if pg = pgTBL then off == 0x114
     else if pg = pgALI then r 0x100 0x304
     else if pg = pgPH then r 0x100 0x11F || off == 0x124 || r 0x200 0x5FF
     else if (0x030 ≤ pg ∧ pg ≤ 0x03E) ∨ (0x040 ≤ pg ∧ pg ≤ 0x047) then
       decide (0x800 ≤ off) || [0x000, 0x00C, 0x01C, 0x020, 0x024, 0x028, 0x02C, 0x0C0].any (fun k =>
         [0, 1, 2, 3].any (fun u => off == 0x100 + 0x180 * u + k))
     else if pg = pgHIF then off == 0x104 || off == 0x108 || off == 0x700
     else if pg = pgIGQ then r 0x104 0x110
     else if 0x100 ≤ pg then isHandleReg off || r 0x140 0x14F
     else false)

/-- The register takes writes as things stand: rings are laid out only while they are off (09 R284; 10 R314; 11 R337,
R338). -/
def State.writable (s : State) (pg off : Nat) : Bool :=
  if pg = pgHIF ∧ 0x708 ≤ off ∧ off ≤ 0x710 then !s.getB pgHIF Reg.HIF_LB_CTL_EN
  else if pg = pgETU ∧ 0x108 ≤ off ∧ off ≤ 0x110 then !s.getB pgETU Reg.ETU_CTL_EN
  else if pg = pgHIF ∧ 0x740 ≤ off ∧ (off - 0x740) % 0x20 ≤ 0xC ∧ 4 ≤ (off - 0x740) % 0x20 then
    decide (s.prtState ((off - 0x740) / 0x20) ≤ prtLOADED)
  else if 0x1000 ≤ pg ∧ 0x40 ≤ off ∧ off ≤ 0x48 then !s.getB pg Reg.VF_RR_CTL_EN
  else true

/-- HIF_RPp_CTL, whose EN this write only clears, and only while the partition runs no image. -/
def State.writeReplayCtl (s : State) (p w : Nat) : State :=
  let s := s.writeField pgHIF (Reg.HIF_RP_CTL_UNDERRUN.at p) w
  if !w.testBit 31 && decide (s.prtState p ≤ prtLOADED) then s.setF pgHIF (Reg.HIF_RP_CTL_EN.at p) 0 else s

/-- MGT_CMD: GO while BUSY is ignored and flagged (12 R346). -/
def State.writeCommand (s : State) (w : Nat) : State :=
  let s := (s.writeField pgMGT Reg.MGT_CMD_OP w).writeField pgMGT Reg.MGT_CMD_TAG w
  if !w.testBit 31 then s
  else if s.getB pgMGT Reg.MGT_RSP_BUSY then s.setF pgMGT Reg.MGT_RSP_IGNORED 1
  else s.setF pgMGT Reg.MGT_CMD_GO 1

/-- The round start at which the armed swap takes place has come (06 R189): a write that would clear ARM meets it (13 R382). -/
def State.swapMeets (s : State) (p : Nat) : Bool :=
  let x := (s.part p).nextNt
  s.prtState p == prtRUNNING && decide (x ≤ s.nt) && s.swapDue p x

/-- ICH_SWAP_CTLp, whose ARM this write only clears. -/
def State.writeSwapCtl (s : State) (p w : Nat) : State :=
  let s := s.writeField pgICH (Reg.ICH_SWAP_ERR.at p) w
  if w.testBit 31 || s.swapMeets p then s else s.hostSet pgICH (Reg.ICH_SWAP_ARM.at p) 0

/-- A write to a virtual function's window beside its registers: its MSI-X table is written, a piece of the ingest window is a malformed
descriptor write, and what is reserved takes none (11 R319, R321). -/
def State.writeVf (s : State) (t off w : Nat) : State :=
  if 0x1000 ≤ off ∧ off < 0x1040 then s.setV t Reg.VF_IGQ_BADWR_COUNT (s.getV t Reg.VF_IGQ_BADWR_COUNT + 1)
  else if 0x2000 ≤ off ∧ off < 0x2080 ∧ off % 4 = 0 then s.writeMsix (t + 1) ((off - 0x2000) / 16) (off % 16 / 4) w
  else s

/-- A write of a word of a page acts by its fields' access codes. -/
def State.plainWrite (s : State) (n o w : Nat) : State :=
  if hasOwnRow n o ∨ !s.writable n o then s
  else if 0x1000 ≤ n ∧ 0x1000 ≤ o then s.writeVf (n - 0x1000) o w
  else if n = pgMGT ∧ o = 0x100 then s.writeCommand w
  else if n = pgICH ∧ 0x148 ≤ o ∧ o ≤ 0x178 ∧ (o - 0x148) % 0x10 = 0 then s.writeSwapCtl ((o - 0x148) / 0x10) w
  else if n = pgHIF ∧ 0x740 ≤ o ∧ o ≤ 0x7A0 ∧ (o - 0x740) % 0x20 = 0 then s.writeReplayCtl ((o - 0x740) / 0x20) w
  else if 0x1000 ≤ n ∧ o = 0x4C then
    if w.testBit 31 || s.inTeardown (n - 0x1000) then s else s.setF n Reg.VF_RR_CTL_EN 0
  else
    let fs := if 0x1000 ≤ n then Reg.vfFields else Reg.hdrFields ++ blockFields n
    s.forEach (fs.filterMap (fun f => f.hit o)) (fun s f => s.writeField n f w)

end Sys2Proof.Machine
end

