-- ==== Sys2Proof/Machine/Result.lean ====
section
/-! DEFINITION. Result runs, result rings and interrupts of tenants (11 R332 to R335). -/

namespace Sys2Proof.Machine

/-- The ring of tenant t takes frames: enabled, no teardown pending, and the link up (11 R318, R332). -/
def State.ringOpen (s : State) (t : Nat) : Bool :=
  s.getV t Reg.VF_RR_CTL_EN == 1 && !s.inTeardown t && s.dmaOk

/-- Count a dropped frame or completion. -/
def State.dropResult (s : State) : State := s.addF pgHIF Reg.HIF_RES_DROP_COUNT 1

/-- The cases of R332 for the slot of entry e read as `ws`, in order. -/
def State.takeResult (s : State) (e : Nat) (h : HostRun) (ws : List (PV 32)) : State :=
  let w := fun (i : Nat) => (ws.getD i (.zero 32))
  let n := s.round h.part
  let len := (w 0).v.toNat
  let tag := (w 2).v.toNat + 2 ^ 32 * (w 3).v.toNat
  let run := some (h.beat, e)
  let pay := (ws.drop 32).take (min ((len + 3) / 4) (32 * (h.units - 1)))
  if (ws.take 4).any (·.p) then s.addF pgHIF Reg.HIF_RES_POISON_COUNT 1
  else if (w 1).v.toNat ≠ 1 then s
  else if pay.any (·.p) then s.addF pgHIF Reg.HIF_RES_POISON_COUNT 1
  else if len < 64 then s.complete h.tenant csRUNT tag n h.rslot run
  else if 65536 < len ∨ 128 * (h.units - 1) < len then s.complete h.tenant csOVERSIZE tag n h.rslot run
  else if (s.part h.part).delivered.contains (h.tenant, n, h.rslot) then s.addF pgHIF Reg.HIF_RES_DUP_COUNT 1
  else if !s.ringOpen h.tenant then s.dropResult
  else if (s.tenant h.tenant).results.any (fun r => !r.noframe && r.rslot == h.rslot && r.round % 2 == n % 2) then
    s.complete h.tenant csBACKLOG tag n h.rslot run
  else
    let data := (wordBytes (pay.map (·.v))).take len
    let s := s.queueResult h.tenant ⟨csOK, false, tag, n, h.rslot, data, run⟩
    s.modPart h.part (fun x => { x with delivered := x.delivered ++ [(h.tenant, n, h.rslot)] })

/-- A result run reads its slot, unit j in beat BEAT + j, in a round that runs. -/
def execResultRun (e : BitVec 15) (s : State) : Host.Outcome State Fault Refusal :=
  .next (match s.hostRun e.toNat true with
    | none => s
    | some h =>
      if !s.roundRuns h.part || s.tileInReset h.tile then s
      else
        let s := s.atLeast (s.beatNt h.part h.beat)
        let (ws, s) := (List.range h.units).foldl (fun (a : List (PV 32) × State) j =>
          let (u, s) := a.2.fabricRead ⟨hostPort, h.beat, h.tile, h.handle, h.off + j, cFDP, false, some h.tenant⟩ (h.beat + j) 0 0
          (a.1 ++ u, s)) ([], s)
        s.takeResult e.toNat h ws)

/-! ### Result rings (11 R333, R334) -/

def State.rrSize (s : State) (t : Nat) : Nat := ringSize (s.getV t Reg.VF_RR_SIZE_LOG2) 4 12

/-- The address of the entry that HEAD counts. -/
def State.rrEntry (s : State) (t : Nat) : Nat :=
  let base := s.get64 (pgVF t) Reg.VF_RR_BASE_LO Reg.VF_RR_BASE_HI
  base - base % 4096 + s.getV t Reg.VF_RR_HEAD_COUNT % s.rrSize t * 32

/-- Buffer address and length of that entry, and whether it keeps R333. -/
def State.rrBuffer (s : State) (t : Nat) : Nat × Nat × Bool :=
  let l := s.hostRead (s.rrEntry t) 12
  let a := leNat (slice l 0 8)
  let n := leNat (slice l 8 12)
  (a, n, a % 64 == 0 && n % 64 == 0 && decide (64 ≤ n) && decide (n ≤ 65536))

/-- HEAD has caught up with TAIL. -/
def State.rrEmpty (s : State) (t : Nat) : Bool := s.getV t Reg.VF_RR_HEAD_COUNT == s.getV t Reg.VF_RR_TAIL_COUNT

/-- Write the device fields of the entry and consume it; a LAST or status-only entry raises RES. -/
def State.rrConsume (s : State) (t : Nat) (r : ResultItem) (bytes status : Nat) (first last : Bool) : State :=
  let h := s.getV t Reg.VF_RR_HEAD_COUNT
  let phase := bit (h / s.rrSize t % 2 == 0) 31
  let ctl := phase + bit first 30 + bit last 29 + bit r.noframe 28 + status * 2 ^ 16 + r.rslot % 65536
  let s := s.hostWrite (t + 1) (s.rrEntry t + 0x0C) (leBytes bytes 4 ++ leBytes r.tag 8 ++ leBytes r.round 4 ++ leBytes ctl 4)
  let s := s.setV t Reg.VF_RR_HEAD_COUNT (h + 1)
  if last then s.cause t icRES else s

/-- The ring stops: for want of a posted entry, or at an invalid one, after which no TAIL write starts it again. -/
def State.rrStop (s : State) (t : Nat) (bad : Bool) : State :=
  let s := (s.setV t Reg.VF_RR_STAT_STOPPED 1).cause t icSTOP
  if bad then ((s.modTenant t (fun x => { x with ringBad := true })).setV t Reg.VF_RR_STAT_ERR 1).cause t icERR else s

/-- The entry at HEAD is read from host memory. -/
def State.rrFetch (s : State) (t : Nat) : State := s.dma (t + 1) false (s.rrEntry t) 12

/-- Fill posted buffers with a frame's bytes; the entry at HEAD is posted and valid. -/
def State.rrFill (s : State) (t : Nat) (r : ResultItem) : Nat → List Byte → Bool → State
  | 0, _, _ => s
  | n + 1, d, first =>
    let b := s.rrBuffer t
    let now := d.take b.2.1
    let rest := d.drop b.2.1
    let s := (s.rrFetch t).hostWrite (t + 1) b.1 now
    if rest.isEmpty then s.rrConsume t r now.length csOK first true
    else
      let ahead := s.setV t Reg.VF_RR_HEAD_COUNT (s.getV t Reg.VF_RR_HEAD_COUNT + 1)
      let none := ahead.rrEmpty t
      let bad := !none && !(ahead.rrBuffer t).2.2
      if none || bad then (s.rrConsume t r now.length csTRUNCATED first true).rrStop t bad
      else (s.rrConsume t r now.length csOK first false).rrFill t r n rest false

/-- The tenant's oldest frame or completion is written to its ring, when the arbiter has come to its requests; it is dropped when the
ring is closed, or lost when it has stopped or has no posted entry, and makes no request then. -/
def execResultFrameWrite (t : TenantId) (s : State) : Host.Outcome State Fault Refusal :=
  let t := t.val
  .next (match (s.tenant t).results with
    | [] => s
    | r :: rest =>
      let left := (rest.flatMap ResultItem.requests).length
      let s := s.modTenant t (fun x => { x with results := rest })
      let none := s.modHif (fun h => { h with writeArb := h.writeArb.drop t left })
      let lost := none.setV t Reg.VF_RR_LOST_COUNT (s.getV t Reg.VF_RR_LOST_COUNT + 1)
      if !s.ringOpen t then none.dropResult
      else if s.getV t Reg.VF_RR_STAT_STOPPED = 1 then lost
      else if s.rrEmpty t then lost.rrStop t false
      else if !(s.rrBuffer t).2.2 then (lost.rrFetch t).rrStop t true
      else
        let s := s.runWrites t left
        if r.noframe then (s.rrFetch t).rrConsume t r 0 r.status true true
        else s.rrFill t r (r.data.length / 64 + 1) r.data true)

/-- A write of VF_RR_TAIL: one that overruns the ring is ignored and sets ERR; STOPPED clears when an entry is posted, unless an
invalid entry set it (R333, R334). -/
def execResultRingTailWrite (t : TenantId) (v : BitVec 32) (s : State) : Host.Outcome State Fault Refusal :=
  let t := t.val
  .next (if !s.vfExists t then s
  else
    let n := (v.toNat + 2 ^ 32 - s.getV t Reg.VF_RR_HEAD_COUNT) % 2 ^ 32
    if s.rrSize t < n then (s.setV t Reg.VF_RR_STAT_ERR 1).cause t icERR
    else
      let s := s.setV t Reg.VF_RR_TAIL_COUNT v.toNat
      if 1 ≤ n ∧ (s.tenant t).ringBad = false then s.setV t Reg.VF_RR_STAT_STOPPED 0 else s)

/-- A write of VF_RR_CTL.EN from 0 to 1: HEAD and TAIL are 0, ERR and STOPPED clear; ignored during teardown (11 R337). -/
def execResultRingEnable (t : TenantId) (s : State) : Host.Outcome State Fault Refusal :=
  let t := t.val
  .next (if !s.vfExists t || s.inTeardown t || s.getV t Reg.VF_RR_CTL_EN == 1 then s
  else (s.modTenant t (fun x => { x with ringBad := false })).setFs (pgVF t) [(Reg.VF_RR_CTL_EN, 1), (Reg.VF_RR_HEAD_COUNT, 0),
    (Reg.VF_RR_TAIL_COUNT, 0), (Reg.VF_RR_STAT_ERR, 0), (Reg.VF_RR_STAT_STOPPED, 0)])

/-! ### Interrupts (11 R335) -/

/-- HOLDOFF × 16 ns after the first event on an idle vector, its message is sent. -/
def execInterruptHoldoffExpiry (t : TenantId) (vec : BitVec 3) (s : State) : Host.Outcome State Fault Refusal :=
  let f := t.val + 1
  let v := vec.toNat
  .next (match (s.vector f v).since with
    | none => s
    | some z =>
      let hold := s.getF pgHIF (Reg.HIF_QOS_HOLDOFF.at (s.getT t.val Reg.IGQ_T_CFG_CLASS))
      let s := s.atLeast (z + hold * 16 * nsUnit)
      (s.modVector f v (fun x => { x with events := 0, since := none })).msix f v)

/-- A vector of the PF (64 of them) or of a VF (8) is unmasked: a pending message is sent. -/
def execMsixUnmask (fn : Fin 513) (vec : BitVec 6) (s : State) : Host.Outcome State Fault Refusal :=
  let f := fn.val
  let v := vec.toNat
  .next (if f ≠ 0 ∧ (8 ≤ v ∨ ¬ s.vfExists (f - 1)) then s else s.unmask f v)

end Sys2Proof.Machine
end

