-- ==== Sys2Proof/Machine/Tenant.lean ====
section
/-! DEFINITION. Function-level reset, teardown, the PCIe link and the configuration of tenants (11 R317, R318, R323, R329, R337
to R340). -/

namespace Sys2Proof.Machine

/-- An FLR of VF t + 1 (11 R337). -/
def execVfFlr (t : TenantId) (s : State) : Host.Outcome State Fault Refusal :=
  .next (if s.vfExists t.val then s.flr t.val else s)

/-- The Postmaster reports the clear complete: no tile has a clear of the tenant left (11 R337, step 3). -/
def execTeardownComplete (t : TenantId) (s : State) : Host.Outcome State Fault Refusal :=
  let t := t.val
  .next (if (s.tenant t).teardown = .clearing ∧
      (s.tiles.all (fun e => e.2.clear.all (fun j => j.tenant != some t))) then
    let s := (s.modTenant t (fun x => { x with teardown := .none })).settleTenant t
    (s.setFs pgHIF [(Reg.HIF_TD_STAT_DONE, 1), (Reg.HIF_TD_STAT_LAST, t)]).pfInt 2
  else s)

/-- A conventional reset of the PCIe link, or an FLR of the PF (11 R318). -/
def execPcieConventionalReset (down : Bool) (s : State) : Host.Outcome State Fault Refusal :=
  let l := (List.range 512).filter s.vfExists
  let s := s.forEach l (fun s t => s.flr t)
  let s := s.setFs pgHIF [(Reg.HIF_LB_CTL_EN, 0), (Reg.HIF_LB_STAT_LOST, 0), (Reg.HIF_RES_DROP_COUNT, 0),
    (Reg.HIF_RES_POISON_COUNT, 0), (Reg.HIF_RES_DUP_COUNT, 0), (Reg.HIF_TD_STAT_DONE, 0), (Reg.HIF_TD_STAT_LAST, 0)]
  let s := s.setFs pgETU [(Reg.ETU_CTL_EN, 0), (Reg.ETU_STAT_LOST, 0)]
  let s := s.modHif (fun h => { h with lbWriting := [], pfVectors := [], fetchArb := .reset, writeArb := .reset })
  .next (if down then s.setFs pgHIF [(Reg.HIF_STAT_LINKUP, 0), (Reg.HIF_STAT_WIDTH, 0), (Reg.HIF_STAT_RATE, 0)] else s)

/-- The host area holds 16 cells for each enabled tenant and every enabled quota (11 R323). -/
def State.areaFits (s : State) : Bool :=
  let l := (List.range 512).filter (fun t => s.getT t Reg.IGQ_T_CFG_EN == 1)
  let need := 16 * l.length + l.foldl (fun n t => n + s.getT t Reg.IGQ_T_QUOTA_CELLS) 0
  decide (need ≤ s.getF pgHIF Reg.HIF_HA_LIMIT_CELL - s.getF pgHIF Reg.HIF_HA_BASE_CELL)

/-- The tenant that IGQ_SEL names: the IGQ_T registers are its (11 R339). -/
def State.selTenant (s : State) : Nat := s.getF pgIGQ Reg.IGQ_SEL_TENANT

/-- A write of IGQ_T_CFG: ignored during teardown, with watermarks out of order, or where the area would not hold an enabled
tenant; PART changes only while EN is 0. -/
def execIgqConfigWrite (v : BitVec 32) (s : State) : Host.Outcome State Fault Refusal :=
  let t := s.selTenant
  let f := fun (r : Fld) => bits v.toNat r.hi r.lo
  let hwm := f Reg.IGQ_T_CFG_HWM
  let lwm := f Reg.IGQ_T_CFG_LWM
  .next (if s.inTeardown t || hwm == 0 || decide (64 < hwm) || decide (hwm ≤ lwm) then s
  else
    let on := s.getT t Reg.IGQ_T_CFG_EN == 1
    let rs := [Reg.IGQ_T_CFG_EN, Reg.IGQ_T_CFG_GROUP, Reg.IGQ_T_CFG_CLASS, Reg.IGQ_T_CFG_HWM, Reg.IGQ_T_CFG_LWM] ++
      (if on then [] else [Reg.IGQ_T_CFG_PART])
    let z := s.setFs (pgIGT t) (rs.map (fun r => (r, f r)))
    if f Reg.IGQ_T_CFG_EN = 1 ∧ ¬ z.areaFits then s else z.settleTenant t)

/-- A write of IGQ_T_QUOTA: ignored where the area would not hold it. -/
def execIgqQuotaWrite (v : BitVec 32) (s : State) : Host.Outcome State Fault Refusal :=
  let t := s.selTenant
  let z := s.setF (pgIGT t) Reg.IGQ_T_QUOTA_CELLS v.toNat
  .next (if s.getT t Reg.IGQ_T_CFG_EN == 1 && !z.areaFits then s else z)

/-- The NT of a collection of tenant t's partition that has come and is still to be made. -/
def State.dueCollection (s : State) (t : Nat) : Option Nat :=
  (s.nextCollection (s.partOfTenant t)).filter (fun c => decide (c ≤ s.nt))

/-- The lease before a write is kept for a collection that has come already: the write is too late for it (11 R324). -/
def State.keepLease (s : State) (t : Nat) : State :=
  match s.dueCollection t with
  | none => s
  | some c =>
    let now := s.get64 (pgIGT t) Reg.IGQ_T_LEASE_LO Reg.IGQ_T_LEASE_HI
    s.modTenant t (fun x => { x with leaseWas := match x.leaseWas with
      | some (at0, old) => if c ≤ at0 then some (at0, old) else some (s.nt, now)
      | none => some (s.nt, now) })

/-- A write of IGQ_T_LEASE_LO or IGQ_T_LEASE_HI: ignored during teardown. -/
def execLeaseWrite (hi : Bool) (v : BitVec 32) (s : State) : Host.Outcome State Fault Refusal :=
  let t := s.selTenant
  .next (if s.inTeardown t then s
  else ((s.keepLease t).setF (pgIGT t) (if hi then Reg.IGQ_T_LEASE_HI else Reg.IGQ_T_LEASE_LO) v.toNat).showTenant t)

/-- A write of HIF_HA_BASE or HIF_HA_LIMIT: ignored while a tenant is enabled or a partition runs; LIMIT is at most 0x1_A000. -/
def execHostAreaWrite (limit : Bool) (v : BitVec 32) (s : State) : Host.Outcome State Fault Refusal :=
  .next (if !s.tenantsOn.isEmpty || s.anyRuns then s
  else if limit then s.setF pgHIF Reg.HIF_HA_LIMIT_CELL (min (bits v.toNat 16 0) 0x1A000)
  else s.setF pgHIF Reg.HIF_HA_BASE_CELL v.toNat)

/-- The PCIe link trains: log2 of its width, and its rate (11 Table 12). -/
def execPcieLinkUp (width rate : BitVec 4) (s : State) : Host.Outcome State Fault Refusal :=
  .next (s.setFs pgHIF [(Reg.HIF_STAT_LINKUP, 1), (Reg.HIF_STAT_WIDTH, width.toNat), (Reg.HIF_STAT_RATE, rate.toNat)])

/-- VF Enable and NumVFs are written: VFs that come to exist start with their registers reset (PRESUMED, log entry 11). -/
def execVfEnable (en : Bool) (n : BitVec 16) (s : State) : Host.Outcome State Fault Refusal :=
  let old := s
  let s := s.modHif (fun h => { h with vfEnable := en, numVfs := min 512 n.toNat })
  let fresh := (List.range 512).filter (fun t => s.vfExists t && !old.vfExists t)
  .next (s.forEach fresh (fun s t =>
    ((s.modTenant t (fun x => { x with vectors := [] })).resetVf t).showTenant t)).showPins

end Sys2Proof.Machine
end

