-- ==== Sys2Proof/Machine/Access.lean ====
section
/-! DEFINITION. Writes of words to any page, which come from the physical function and from the debug access port (00 R10; 12 R344, R355;
13 R372). A register whose writes have a row of their own is written as that row says. -/

namespace Sys2Proof.Machine

/-- The state after an outcome, s where there is none. -/
def State.orNext (s : State) : Host.Outcome State Fault Refusal → State
  | .next t => t
  | _ => s

/-! ### Registers with rows of their own, page by page -/

/-- A page of the interchange: the table window's command, where 0b00 and 0b11 do nothing, alias words and SDS, or ranges, the unscheduled
route table and the remote window (06 R193). -/
def State.writeIch (s : State) (n o : Nat) (v : BitVec 32) : State :=
  s.orNext (
    if n = pgTBL then
      (match v.toNat % 4 with | 1 => execTableWindowRead s | 2 => execTableWindowWrite s | _ => .next s)
    else if n = pgALI then
      let w := (o - 0x100) % 0x40 / 4
      let bank := (o - 0x100) / 0x40
      if 0x300 ≤ o then execSdsWrite (o == 0x304) v s
      else if w < 12 then execAliasEntryWrite (Fin.ofNat 4 (bank / 2)) (bank % 2 == 1) (Fin.ofNat 12 w) v s
      else .next s
    else if o < 0x120 then execPigeonholeRangeWrite (Fin.ofNat 4 ((o - 0x100) / 8)) (o % 8 == 4) v s
    else if o = 0x124 then execUrtDataWrite v s
    else execRwtEntryWrite (Fin.ofNat 32 ((o - 0x200) / 0x20)) (Fin.ofNat 8 (o % 0x20 / 4)) v s)

/-- The port whose link block u lies on a page of links (07 R230). -/
def portOfPage (pg u : Nat) : PortId := Fin.ofNat 47 (if pg < 0x040 then pg - 0x030 else 15 + 4 * (pg - 0x040) + u)

/-- ICL_CTL: EN, then RETRAIN and HOLDREQ where they are set. -/
def State.writeLinkCtl (s : State) (x : PortId) (w : Nat) : State :=
  let s := s.orNext (execLinkEnable x (w.testBit 31) s)
  let s := if w.testBit 30 then s.orNext (execRetrain x s) else s
  if w.testBit 29 then s.orNext (execHoldreq x s) else s

/-- A page of links: control, taps, the exerciser's mode, and the registers of 07 R221. -/
def State.writeLinkPage (s : State) (n o : Nat) (v : BitVec 32) : State :=
  if 0x800 ≤ o then
    if o % 0x80 < 0x20 ∧ (o - 0x800) / 0x80 < (if n < 0x040 then 1 else 4) then
      s.orNext (execTxffeWrite (portOfPage n ((o - 0x800) / 0x80)) (Fin.ofNat 8 (o % 0x80 / 4)) v s)
    else s
  else
    let x := portOfPage n ((o - 0x100) / 0x180)
    let k := (o - 0x100) % 0x180
    if k = 0x000 then s.writeLinkCtl x v.toNat
    else if k = 0x0C0 then s.orNext (execExerciserModeWrite x v s)
    else s.orNext (execLinkControlWrite x (if k = 0x00C then .lossNs else if k = 0x01C then .elasticMax
      else .vc (Fin.ofNat 4 ((k - 0x020) / 4))) v s)

/-- TMB_CTL, with USE_A where it is set; TMB_NT_SET_HI; or TMB_GEAR, which arms or cancels. -/
def State.writeTmb (s : State) (o : Nat) (v : BitVec 32) : State :=
  let w := v.toNat
  if o = 0x120 then
    let s := s.orNext (execTmbMasterWrite v s)
    if w.testBit 29 then s.orNext (execUseA s) else s
  else if o = 0x14C then s.orNext (execNtSet v s)
  else if w.testBit 31 then s.orNext (execGearArm (BitVec.ofNat 3 (bits w 30 28)) s)
  else s.orNext (execGearCancel (BitVec.ofNat 3 (bits w 30 28)) s)

/-- A register of page n, at offset o, that has a row of its own. -/
def State.writeOwn (s : State) (n o : Nat) (v : BitVec 32) : State :=
  let pg := BitVec.ofNat 12 n
  let counter := (pageCounters n).any (fun f => (f.hit o).isSome)
  if 0x1000 ≤ n then
    let t : TenantId := Fin.ofNat 512 (n - 0x1000)
    s.orNext (if counter then execCounterWrite (.vf t) (BitVec.ofNat 12 o) v s else execResultRingTailWrite t v s)
  else if o = 0x018 then s.orNext (execErrorInjectionArm pg v s)
  else if o = 0x01C then s.orNext (execExpertKeyWrite pg v s)
  else if counter then s.orNext (execCounterWrite (.bar0 pg) (BitVec.ofNat 12 o) v s)
  else if n = pgDEV then s.orNext (execRackWrite v s)
  else if n = pgTMB then s.writeTmb o v
  else if n = pgSNP then s.orNext (execFrankMatchArm v s)
  else if n = pgTBL ∨ n = pgALI ∨ n = pgPH then s.writeIch n o v
  else if (0x030 ≤ n ∧ n ≤ 0x03E) ∨ (0x040 ≤ n ∧ n ≤ 0x047) then s.writeLinkPage n o v
  else if n = pgHIF then s.orNext (if o = 0x700 then execLetterbookEnable v s else execHostAreaWrite (o == 0x108) v s)
  else if n = pgIGQ then
    s.orNext (if o = 0x104 then execIgqConfigWrite v s
      else if o = 0x110 then execIgqQuotaWrite v s else execLeaseWrite (o == 0x10C) v s)
  else
    let t : TileId := Fin.ofNat 256 (n - 0x100)
    s.orNext (if isHandleReg o then execHandleEntryWrite t (BitVec.ofNat 12 o) v s
      else execInspectorModeWrite t (Fin.ofNat 4 ((o - 0x140) / 4)) v s)

/-- The bits that only set by a row of their own, in registers that have others: ICH_SWAP_CTLp.ARM, HIF_RPp_CTL.EN and VF_RR_CTL.EN. -/
def State.writeSets (s : State) (n o : Nat) : State :=
  if n = pgICH ∧ 0x148 ≤ o ∧ o ≤ 0x178 ∧ (o - 0x148) % 0x10 = 0 then s.orNext (execSwapArm (Fin.ofNat 4 ((o - 0x148) / 0x10)) s)
  else if n = pgHIF ∧ 0x740 ≤ o ∧ o ≤ 0x7A0 ∧ (o - 0x740) % 0x20 = 0 then
    s.orNext (execReplayEnable (Fin.ofNat 4 ((o - 0x740) / 0x20)) s)
  else if 0x1000 ≤ n ∧ o = 0x4C then s.orNext (execResultRingEnable (Fin.ofNat 512 (n - 0x1000)) s)
  else s

/-- A word is written to a page that takes writes. -/
def State.writeWord (s : State) (n o : Nat) (v : BitVec 32) : State :=
  if hasOwnRow n o then s.writeOwn n o v
  else
    let s := s.plainWrite n o v.toNat
    if v.toNat.testBit 31 then s.writeSets n o else s

/-- A word of the PF's MSI-X table, or of a page. -/
def State.writeRef (s : State) (pg : PageRef) (o : Nat) (v : BitVec 32) : State :=
  if pg = .pfMsix then (if o < 0x400 ∧ o % 4 = 0 then s.writeMsix 0 (o / 16) (o % 16 / 4) v.toNat else s)
  else if s.takesWrites pg then s.writeWord (pageNum pg) o v
  else s

/-- A write of registers: a word, two words of which the lower address is written first, or a part of a word, which is ignored. -/
def execRegisterWrite (pg : PageRef) (off : BitVec 16) (d : RegData) (s : State) : Host.Outcome State Fault Refusal :=
  let o := off.toNat
  .next (match d with
    | .word v => s.writeRef pg o v
    | .bytes _ _ => s
    | .pair lo hi => (s.writeRef pg (o / 8 * 8) lo).writeRef pg (o / 8 * 8 + 4) hi)

end Sys2Proof.Machine
end

