-- ==== Sys2Proof/Machine/Power.lean ====
section
/-! DEFINITION. Power, sensors and cooling of the module (14 R392 to R411). Times are those of the always-on domain. -/

namespace Sys2Proof.Machine

def State.modModule (s : State) (f : Module → Module) : State := { s with module := f s.module }

/-- ALERT_N is low, which needs auxiliary power (14 R392, R395; 13 R384). -/
def State.alertLow (s : State) : Bool :=
  s.module.aux && (s.errSum != 0 || s.module.warning || s.module.faultUnread || s.module.trip)

/-! ### Shutdown (14 R402 to R404, R410) -/

/-- The main rails go off in the reverse of the order they came on in, and PWR_GOOD low. -/
def State.railsOff (s : State) : State :=
  if !s.module.powered then s
  else
    let s := s.forEach s.module.rails.reverse (fun s r => s.emit (.rail r false))
    let s := s.modModule (fun m => { m with rails := [], pwrGood := false, railsOffNt := m.clock + 20000 * nsUnit })
    s.forEach (List.range 16) (fun s r => s.setF (pgRGN r) Reg.RGN_VOLT_MV 0)

/-- The cause of a shutdown is latched, and the rails stay off until RESET_N has been driven low. -/
def State.latchFault (s : State) (cause : Nat) : State :=
  s.modModule (fun m => { m with restartNeeded := m.resetHigh, faultCause := cause, faultUnread := true })

/-- A power-fail shutdown: HOLD on every port in UP, PWR_GOOD low and the main rails off within 20 µs. -/
def State.shutDown (s : State) (cause : Nat) : State :=
  (((s.modModule (fun m => { m with resetN := false })).chipReset false).railsOff).latchFault cause

/-- A fault of cause `cause` shuts the module down while PWR_GOOD is high. -/
def State.powerFault (s : State) (cause : Nat) : State := if s.module.pwrGood then s.shutDown cause else s

/-- A thermal trip: THERM_TRIP_N goes low and stays so, and a shutdown starts; one under way takes it in and keeps its own cause. -/
def State.thermTrip (s : State) : State :=
  if s.module.trip && !s.module.powered then s
  else
    let s := s.modModule (fun m => { m with trip := true, tripNt := m.clock, coolCheck := true })
    if s.module.powered then s.shutDown 5
    else if s.module.clock < s.module.railsOffNt then s
    else s.latchFault 5

/-- Power-fault codes are those of 14 Table 9. An input that has fallen is read at once; a 48 V input below 38 V turns the main rails off
whether or not PWR_GOOD is high yet. -/
def execPowerFailShutdown (c : PowerCause) (s : State) : Host.Outcome State Fault Refusal :=
  .next (if !s.module.aux then s
  else match c with
    | .input48 mv =>
      if mv.toNat < 38000 then
        let s := s.modModule (fun m => { m with main48 := false, lost48Nt := m.clock, sensors := m.sensors.put 35 mv.toNat 0 })
        (s.powerFault 1).railsOff
      else s
    | .aux mv =>
      if mv.toNat < 10800 then
        (s.modModule (fun m => { m with auxGood := false, sensors := m.sensors.put 36 mv.toNat 0 })).powerFault 2
      else s
    | .overcurrent => s.powerFault 3
    | .rail => s.powerFault 4
    | .thermal => s.thermTrip)

/-! ### Warning and power limit (14 R408, R409) -/

/-- TJ_WARN within its limits, in 1/16 °C. -/
def Module.tjLimit (m : Module) : Int := max 1120 (min 1664 (sgn 16 m.tjWarn))

/-- The Clerk asks for a lower gear, at most once every 10 ms while the warning is active. -/
def State.warnRequest (s : State) : State :=
  let due := match s.module.warnReqNt with | none => true | some x => decide (x + 10000000 * nsUnit ≤ s.module.clock)
  if s.module.warning && due && s.mgmt.clerkUp then
    (s.modModule (fun m => { m with warnReqNt := some m.clock })).askLower .power
  else s

/-- A die sensor reads t: from TJ_WARN on the warning is active. -/
def State.judgeWarning (s : State) (t : Int) : State :=
  (if s.module.tjLimit ≤ t then s.modModule (fun m => { m with warning := true }) else s).warnRequest

/-- A temperature sensor is read: the hottest one of a region, whose page shows it too, IDs 1 to 16; of the die, 17, which the regions'
give (`State.pldm`); or the coolant outlet's, 37. Those of the die lie on the main rails. From 115 °C the module trips; the boot ROM that
comes up next after a trip takes the trip again from 95 °C of a die sensor (14 R409, R410). -/
def State.readTemp (s : State) (id temp : Nat) : State :=
  let t := sgn 16 temp
  let die := decide (1 ≤ id) && decide (id ≤ 17)
  let there := s.module.aux && if die then s.module.powered && (id == 17 || s.hasRegion (id - 1)) else id == 37
  if !there then s
  else
    let s := if id = 37 then s.modModule (fun m => { m with sensors := m.sensors.put 37 temp 0 })
      else if id = 17 then s else s.setF (pgRGN (id - 1)) Reg.RGN_TEMP_T temp
    let s := if die then s.judgeWarning t else s
    if 1840 ≤ t ∨ (s.module.coolCheck ∧ s.module.resetN ∧ die ∧ 1520 ≤ t) then s.thermTrip else s

/-- A region's hottest sensor is read. -/
def execThermalWarning (r : RegionId) (temp : BitVec 16) (s : State) : Host.Outcome State Fault Refusal :=
  .next (s.readTemp (r.val + 1) temp.toNat)

/-- A temperature sensor is read. -/
def execThermalTrip (id : BitVec 6) (temp : BitVec 16) (s : State) : Host.Outcome State Fault Refusal :=
  .next (s.readTemp id.toNat temp.toNat)

/-- Every sensor has fallen 3 °C below TJ_WARN: the warning clears. -/
def execThermalWarningClear (s : State) : Host.Outcome State Fault Refusal :=
  .next (if s.regions.all (fun r => decide (sgn 16 (s.getF (pgRGN r) Reg.RGN_TEMP_T) ≤ s.module.tjLimit - 48)) then
    s.modModule (fun m => { m with warning := false, warnReqNt := none })
  else s)

/-- A PLDM write, with main power and at the endpoint's address: PWR_LIMIT, held within 1,000 W to 2,000 W, or TJ_WARN, the upper-warning
threshold of sensor 17, which a region may then have reached already (14 R394, R408, R409). -/
def execPwrLimit (addr : BitVec 7) (w : PldmWrite) (s : State) : Host.Outcome State Fault Refusal :=
  .next (if !s.smbusAnswers addr || !s.module.powered then s
  else match w with
    | .pwrLimit w => s.modModule (fun m => { m with pwrLimit := max 1000 (min 2000 w.toNat) })
    | .tjWarn t =>
      let s := s.modModule (fun m => { m with tjWarn := t.toNat })
      s.forEach s.regions (fun s r => s.judgeWarning (sgn 16 (s.getF (pgRGN r) Reg.RGN_TEMP_T))))

/-- The average of 1 ms: above PWR_LIMIT the Clerk asks for a lower gear. -/
def execPowerAverageExpiry (w : BitVec 16) (s : State) : Host.Outcome State Fault Refusal :=
  let s := s.modModule (fun m => { m with power := w.toNat })
  .next (if s.module.pwrLimit < w.toNat then s.askLower .power else s)

/-! ### PLDM (14 R394, R411, Table 9) -/

/-- Sensors that can be read without main power. -/
def alwaysOn (id : Nat) : Bool := decide (34 ≤ id) && decide (id ≤ 40) && id != 38

/-- What a sensor or effecter of Table 9 reads. -/
def State.pldm (s : State) (id : Nat) : Nat :=
  if id ≤ 16 then s.getF (pgRGN (id - 1)) Reg.RGN_TEMP_T
  else if id = 17 then s.regions.foldl (fun n r =>
    let v := s.getF (pgRGN r) Reg.RGN_TEMP_T
    if sgn 16 n < sgn 16 v then v else n) (s.getF (pgRGN 0) Reg.RGN_TEMP_T)
  else if id ≤ 33 then s.getF (pgRGN (id - 18)) Reg.RGN_VOLT_MV
  else if id = 34 then s.module.power
  else if id = 38 then s.gear
  else if id = 39 then s.module.faultCause
  else if id = 40 then s.module.pwrLimit
  else s.module.sensors.get id 0

/-- A read over SMBus at the endpoint's address: the ID and its value, or the ID alone where it is unavailable. A read of the power-fault
sensor releases its cause of ALERT_N. -/
def execPldmSensorRead (addr : BitVec 7) (id : BitVec 8) (s : State) : Host.Outcome State Fault Refusal :=
  let i := id.toNat
  .next (if !s.smbusAnswers addr then s
  else if i = 0 ∨ 40 < i ∨ (s.module.powered = false ∧ alwaysOn i = false) then s.emit (.message [i])
  else
    let s := s.emit (.message [i, s.pldm i])
    if i = 39 then s.modModule (fun m => { m with faultUnread := false }) else s)

/-! ### Power-up and power-down (14 R392, R399 to R402) -/

/-- The 12 V auxiliary input enters range, 11.4 V to 12.6 V. -/
def execAuxPowerOn (mv : BitVec 16) (s : State) : Host.Outcome State Fault Refusal :=
  .next (if mv.toNat < 11400 ∨ 12600 < mv.toNat then s
  else s.modModule (fun m => { m with
    aux := true, auxGood := true, inputsNt := if m.aux && m.auxGood then m.inputsNt else m.clock,
    sensors := m.sensors.put 36 mv.toNat 0 }))

/-- It is removed: the main rails go off, the always-on domain loses what it held, and no output is driven. -/
def execAuxPowerOff (s : State) : Host.Outcome State Fault Refusal :=
  .next ((s.shutDown 2).modModule (fun m => { m with
    aux := false, auxGood := false, restartNeeded := false, faultCause := 0, faultUnread := false, trip := false, coolCheck := false,
    warning := false, warnReqNt := none, tjWarn := 1600, pwrLimit := 2000, power := 0, sensors := m.sensors.put 36 0 0,
    tap := .reset, ir := 0xF, irShift := 0, dr := [], boundary := [], bypass := false, tdo := none, debug := 0 }))

/-- The calibration start voltage of the part's top gear in region r, in mV: a step of 5 mV from 0.60 V to 0.95 V that the region's CAL
words hold; where in them is free (DESIGN CHOICE, log entry 4). -/
def State.startVolt (s : State) (r : Nat) : Nat :=
  let w := fun k => (s.mgmt.fuses.get (0x051 + 3 * s.physRegion r + k) 0)
  600 + 5 * (Config.calStart (w 0) (w 1) (w 2) (s.fuse 0x04C / 16 % 8) % 71)

/-- 10 ms after the auxiliary input came into range and the 48 V input, which exceeds 40 V since `since`, in ns of the module's time, and
stands at mv, the main rails start in their order. -/
def execMainRailsStart (since : BitVec 64) (mv : BitVec 16) (s : State) : Host.Outcome State Fault Refusal :=
  let m := s.module
  let up := decide (40000 < mv.toNat) && (m.main48 || decide (m.lost48Nt ≤ since.toNat * nsUnit))
  .next (if m.aux && m.auxGood && up && !m.powered && !m.restartNeeded && !m.trip then
    let s := s.clockAtLeast (max m.railsOffNt (max m.inputsNt (since.toNat * nsUnit) + 10000000 * nsUnit))
    let s := s.forEach MainRail.order (fun s r => s.emit (.rail r true))
    let s := s.modModule (fun m => { m with main48 := true, rails := MainRail.order, sensors := m.sensors.put 35 mv.toNat 0 })
    s.forEach s.regions (fun s r => s.setF (pgRGN r) Reg.RGN_VOLT_MV (s.startVolt r))
  else s)

/-- Every main rail is in regulation. -/
def execPwrGoodRise (s : State) : Host.Outcome State Fault Refusal :=
  .next (if s.module.powered && !s.module.pwrGood then
    s.modModule (fun m => { m with pwrGood := true, pwrGoodNt := m.clock })
  else s)

/-- A region's regulator reports that it has settled, within 10 µs of a change. -/
def execRegulatorSettle (r : RegionId) (s : State) : Host.Outcome State Fault Refusal :=
  .next (s.modRmon r.val (fun x => { x with settling := false }))

end Sys2Proof.Machine
end

