-- ==== Sys2Proof/Machine/Jtag.lean ====
section
/-! DEFINITION. The test access port, its boundary-scan chain and the debug access port (00 R6; 12 R344, R355; 14 R397; IEEE
1149.1, as log entry 13 says). -/

namespace Sys2Proof.Machine

/-- The next state of the test access port at a rising edge of TCK. -/
def Tap.next (t : Tap) (tms : Bool) : Tap :=
  match t with
  | .reset => if tms then .reset else .idle
  | .idle => if tms then .selDr else .idle
  | .selDr => if tms then .selIr else .capDr
  | .capDr => if tms then .exit1Dr else .shiftDr
  | .shiftDr => if tms then .exit1Dr else .shiftDr
  | .exit1Dr => if tms then .updDr else .pauseDr
  | .pauseDr => if tms then .exit2Dr else .pauseDr
  | .exit2Dr => if tms then .updDr else .shiftDr
  | .updDr => if tms then .selDr else .idle
  | .selIr => if tms then .reset else .capIr
  | .capIr => if tms then .exit1Ir else .shiftIr
  | .shiftIr => if tms then .exit1Ir else .shiftIr
  | .exit1Ir => if tms then .updIr else .pauseIr
  | .pauseIr => if tms then .exit2Ir else .pauseIr
  | .exit2Ir => if tms then .updIr else .shiftIr
  | .updIr => if tms then .selDr else .idle

/-- Instruction codes (PRESUMED, log entry 13). Every code that selects no other register selects BYPASS. -/
def irEXTEST : BitVec 4 := 0
def irSAMPLE : BitVec 4 := 1
def irDEBUG : BitVec 4 := 8
def irBYPASS : BitVec 4 := 0xF

/-- The boundary-scan register is selected. -/
def irScans (ir : BitVec 4) : Bool := ir == irEXTEST || ir == irSAMPLE

/-- The debug access port is selected, which a sealed part does not have (00 R6; 12 R355). -/
def State.debugs (s : State) : Bool := s.module.ir == irDEBUG && s.mgmt.daport

/-- Bits of the debug register (PRESUMED, log entry 13): the operation in [95:92]; a page in [91:80] and an offset in [79:68], or a tile in
[91:84] with a unit in [83:65] and a word in [64:60]; data in [31:0]. -/
def debugLen : Nat := 96

/-- What the debug access port does with an updated register: it reaches every page and every scratchpad unit, whatever OWNER is, and halts
and dumps (00 R6; 12 R344, R355; PRESUMED, log entry 13). Operation 1 reads a word of a page with the effects of a read, 2 a stored
scratchpad word; 3 writes a word of a page, but issues no mailbox command (12 R346), and 4 a scratchpad word; 5 halts a tile; 6 dumps
a scan chain, of which the spec gives no bit: free. -/
def State.debugAccess (s : State) (w : Nat) : State :=
  let pg := bits w 91 80
  let off := bits w 79 68
  let t := bits w 91 84
  let unit := bits w 83 65
  let put := fun (s : State) (v : Nat) => s.modModule (fun m => { m with debug := v })
  match bits w 95 92 with
  | 1 =>
    let (v, s) := s.readWord pg off
    put s v
  | 2 => put s (if unit < spdUnits then ((s.tile t).spd.get (unit * 32 + bits w 64 60) 0).toNat else 0)
  | 3 =>
    let v := bits w 31 0
    if s.pageOpen pg then s.writeWord pg off (BitVec.ofNat 32 (if pg = pgMGT ∧ off = 0x100 then v % 2 ^ 31 else v)) else s
  | 4 =>
    if unit < spdUnits ∧ s.tileInReset t = false then
      s.writeKey t (unit * 32 + bits w 64 60) (.ok (BitVec.ofNat 32 (bits w 31 0))) false false
    else s
  | 5 => if s.pageOpen (pgTIL t) then (s.freezeTile t (s.showBeat t)).setSeqState t seqHALTED else s
  | 6 =>
    let (v, s) := s.freeBits debugLen
    put s v
  | _ => s

/-- Cells of the boundary-scan chain: the 29 sideband pins, in the order of 14 Table 3, and the reference clock input (PRESUMED, log entry
13). -/
def boundaryLen : Nat := 30

/-- Cells of pins that are driven, TDO's apart, which the port itself drives (14 Table 3). -/
def cellDrives (i : Nat) : Bool := (decide (1 ≤ i) && decide (i ≤ 8)) || i == 17 || (decide (20 ≤ i) && decide (i ≤ 23))

/-- The level of a pin: what EXTEST drives, what the part drives, or a strap as sampled; none where others decide. FRANK_N is low while
the part drives it (09 R282; 14 R391 to R395, R410). -/
def State.pin (s : State) (i : Nat) : Option Bool :=
  let m := s.module
  if m.ir == irEXTEST && m.tap != .reset && cellDrives i then m.boundary[i]?
  else if i = 0 then some m.resetHigh
  else if i = 1 then some m.pwrGood
  else if i = 2 then some (!s.alertLow)
  else if i = 3 then some (!(m.aux && m.trip))
  else if i = 4 then (if s.franks.driveUntil.isSome then some false else none)
  else if i ≤ 8 then some (s.hif.ingrdy.testBit (i - 5))
  else if i ≤ 15 then some (m.pos.getLsbD (i - 9))
  else none

/-- What the cells capture; a level that others decide is free. -/
def State.captureCells (s : State) : List Bool × State :=
  let (v, s) := s.freeBits boundaryLen
  ((List.range boundaryLen).map (fun i => (s.pin i).getD (v.testBit i)), s)

/-- Shift a register toward its first cell, which was TDO's; `b` enters at the last. -/
def shiftIn (l : List Bool) (b : Bool) : List Bool := l.drop 1 ++ [b]

/-- What the rising edge does in the state it finds. -/
def State.tapRise (s : State) (tdi : Bool) : State :=
  let m := s.module
  match m.tap with
  | .capIr => s.modModule (fun m => { m with irShift := 1 })
  | .shiftIr => s.modModule (fun m => { m with irShift := (m.irShift >>> 1) ||| (if tdi then 8 else 0) })
  | .capDr =>
    if irScans m.ir then
      let (l, s) := s.captureCells
      s.modModule (fun m => { m with dr := l })
    else if s.debugs then s.modModule (fun m => { m with dr := (List.range debugLen).map (fun i => Nat.testBit m.debug i) })
    else s.modModule (fun m => { m with bypass := false })
  | .shiftDr =>
    if irScans m.ir || s.debugs then s.modModule (fun m => { m with dr := shiftIn m.dr tdi })
    else s.modModule (fun m => { m with bypass := tdi })
  | _ => s

/-- What the falling edge does in the new state: updates, and TDO while shifting. -/
def State.tapFall (s : State) : State :=
  let s := if s.module.tap = .updDr && s.debugs then
    s.debugAccess ((s.module.dr.zipIdx).foldl (fun n e => n + bit e.1 e.2) 0) else s
  let scans := irScans s.module.ir || s.debugs
  s.modModule (fun m =>
    let m := match m.tap with
      | .reset => { m with ir := irBYPASS }
      | .updIr => { m with ir := m.irShift }
      | .updDr => if irScans m.ir then { m with boundary := m.dr } else m
      | _ => m
    { m with tdo := match m.tap with
      | .shiftIr => some (m.irShift.getLsbD 0)
      | .shiftDr => some (if scans then m.dr.headD false else m.bypass)
      | _ => none })

/-- One period of TCK, with TRST_N low where `trst` says so: the port is then held in Test-Logic-Reset. It needs auxiliary
power. -/
def execJtagTapClock (tms tdi trst : Bool) (s : State) : Host.Outcome State Fault Refusal :=
  .next (if !s.module.aux then s
  else if trst then (s.modModule (fun m => { m with tap := .reset })).tapFall
  else
    let s := s.tapRise tdi
    (s.modModule (fun m => { m with tap := m.tap.next tms })).tapFall)

end Sys2Proof.Machine
end

