-- ==== Sys2Proof/Machine/Matrix.lean ====
section
/-! DEFINITION. The matrix engine and Tally file rows (03 R72 to R82; 04 R110, R113 to R115). -/

namespace Sys2Proof.Machine

/-- Beats from issue to the last read of a stream of m rows (03 R74). -/
def streamReads (g : MxFmt) (m : Nat) : Nat := 1 + g.rowBeats * (128 * (g.streamUnits m - 1) / g.bytes)

/-- The next beat from `b` on in which a row of a stream adds into the Tally file. -/
def nextContribution (iss m pair b : Nat) : Option Nat :=
  ((List.range m).map (fun i => iss + 2 + i * (pairAct pair).rowBeats + 67)).find? (fun d => decide (b ≤ d))

/-- MXLOAD (03 R72): the reads of a weight plane; WEIGHT_PLANE_COMPLETE follows in beat issue + N + 1. -/
def execMxload (t : TileId) (plane : Bool) (h : BitVec 6) (an : BitVec 4) (pi : Bool) (mc : BitVec 3) (s : State) : Host.Outcome State Fault Refusal :=
  .next (s.issueOp t.val ⟨.nop, .nop, .mxload plane h an pi mc, .nop⟩ ((pairWgt (mcField ((s.tile t.val).arch.rdMC mc).v .pair)).planeUnits + (pairWgt (mcField ((s.tile t.val).arch.rdMC mc).v .pair)).planeScales))

/-- At the end of beat issue + N + 1 a plane is complete (03 R72). -/
def execWeightPlaneComplete (t : TileId) (s : State) : Host.Outcome State Fault Refusal :=
  .next (s.passTo t.val (fun f _ => match f with | .mxload .. => some (flightLast f) | _ => none))

/-- MXSTREAM (03 R74): the reads of M activation rows; each row adds to the Tally file in TALLY_ROW_CONTRIBUTION. -/
def execMxstream (t : TileId) (plane chk pi : Bool) (m t0 : BitVec 6) (h : BitVec 6) (an : BitVec 4) (mc : BitVec 3) (s : State) : Host.Outcome State Fault Refusal :=
  .next (s.issueOp t.val ⟨.nop, .nop, .mxstream plane chk pi m t0 h an mc, .nop⟩ (streamReads (pairAct (mcField ((s.tile t.val).arch.rdMC mc).v .pair)) (m.toNat + 1)))

/-- In beat E_i + 67 the products of a streamed row are added into its Tally row (03 R74, 02 R44). -/
def execTallyRowContribution (t : TileId) (s : State) : Host.Outcome State Fault Refusal :=
  .next (s.passTo t.val (fun f b => match f with | .mxstream iss _ _ m _ _ _ mc _ _ _ => nextContribution iss m (mcField mc.v .pair) b | _ => none))

/-- TCLR (03 Table 3): rows to 0 with CKV set, in beat issue + 1. -/
def execTclr (t : TileId) (t0 n : BitVec 6) (s : State) : Host.Outcome State Fault Refusal :=
  .next (s.issueOp t.val ⟨.nop, .nop, .tclr t0 n, .nop⟩ (1))

/-- TLOAD (03 Table 3): rows replaced by Tally-form entries read from scratchpad. -/
def execTload (t : TileId) (t0 n : BitVec 6) (h : BitVec 6) (an : BitVec 4) (pi : Bool) (s : State) : Host.Outcome State Fault Refusal :=
  .next (s.issueOp t.val ⟨.nop, .nop, .tload t0 n h an pi, .nop⟩ (9 + 8 * n.toNat))

/-- TDRAIN (03 R81): rows converted and written to scratchpad. -/
def execTdrain (t : TileId) (t0 n : BitVec 6) (h : BitVec 6) (an : BitVec 4) (pi clr : Bool) (mc : BitVec 3) (s : State) : Host.Outcome State Fault Refusal :=
  .next (s.issueOp t.val ⟨.nop, .nop, .tdrain t0 n h an pi clr mc, .nop⟩ (if mcField ((s.tile t.val).arch.rdMC mc).v .dfmt = 8 then 8 * (n.toNat + 1) + 5 else n.toNat + 6))

end Sys2Proof.Machine
end

