-- ==== Sys2Proof/Machine/Mover.lean ====
section
/-! DEFINITION. The data mover rows (03 R88, R89; 04 R111): each issues its operation and runs the tile on to the beat of
its last access. -/

namespace Sys2Proof.Machine

/-- COPY (03 R88, Table 6): N units from source to destination; unit j is read in beat issue + 1 + j and written in issue + 3 + j. -/
def execCopy (t : TileId) (hs : BitVec 6) (as : BitVec 4) (hd : BitVec 6) (ad : BitVec 4) (dn : BitVec 4) (pis pid : Bool) (s : State) : Host.Outcome State Fault Refusal :=
  .next (s.issueOp t.val ⟨.nop, .copy hs as hd ad dn pis pid, .nop, .nop⟩ ((s.tile t.val).arch.rdDN dn + 2))

/-- FILL (03 R88, 04 R111): N units, each word from an S register. -/
def execFill (t : TileId) (hd : BitVec 6) (ad : BitVec 4) (dn : BitVec 4) (ss : BitVec 5) (pid : Bool) (s : State) : Host.Outcome State Fault Refusal :=
  .next (s.issueOp t.val ⟨.nop, .fill hd ad dn ss pid, .nop, .nop⟩ ((s.tile t.val).arch.rdDN dn))

/-- TRANS (03 R88): a square block transposed through the 16 KiB buffer. -/
def execTrans (t : TileId) (hs : BitVec 6) (as : BitVec 4) (hd : BitVec 6) (ad : BitVec 4) (sz : TransSz) (pis pid : Bool) (s : State) : Host.Outcome State Fault Refusal :=
  .next (s.issueOp t.val ⟨.nop, .trans hs as hd ad sz pis pid, .nop, .nop⟩ (2 * (match sz with | .b4 => 32 | .b2 => 64 | .b1 => 128) + 2))

/-- GATHER.E (03 R88, R89): 64 elements named by an index vector. -/
def execGatherE (t : TileId) (hs : BitVec 6) (vi : BitVec 4) (hd : BitVec 6) (ad : BitVec 4) (es : BitVec 2) (p : BitVec 3) (pid : Bool) (s : State) : Host.Outcome State Fault Refusal :=
  .next (s.issueOp t.val ⟨.nop, .gatherE hs vi hd ad es p pid, .nop, .nop⟩ (66))

/-- SCATTER.E (03 R88, R89). -/
def execScatterE (t : TileId) (hs : BitVec 6) (as : BitVec 4) (hd : BitVec 6) (vi : BitVec 4) (es : BitVec 2) (p : BitVec 3) (pis : Bool) (s : State) : Host.Outcome State Fault Refusal :=
  .next (s.issueOp t.val ⟨.nop, .scatterE hs as hd vi es p pis, .nop, .nop⟩ (66))

/-- GATHER.R (03 R88, R89): 64 runs of U units. -/
def execGatherR (t : TileId) (hs : BitVec 6) (vi : BitVec 4) (hd : BitVec 6) (ad : BitVec 4) (dn : BitVec 4) (p : BitVec 3) (pid : Bool) (s : State) : Host.Outcome State Fault Refusal :=
  .next (s.issueOp t.val ⟨.nop, .gatherR hs vi hd ad dn p pid, .nop, .nop⟩ (64 * (s.tile t.val).arch.rdDN dn + 2))

/-- SCATTER.R (03 R88, R89). -/
def execScatterR (t : TileId) (hs : BitVec 6) (as : BitVec 4) (hd : BitVec 6) (vi : BitVec 4) (dn : BitVec 4) (p : BitVec 3) (pis : Bool) (s : State) : Host.Outcome State Fault Refusal :=
  .next (s.issueOp t.val ⟨.nop, .scatterR hs as hd vi dn p pis, .nop, .nop⟩ (64 * (s.tile t.val).arch.rdDN dn + 2))

end Sys2Proof.Machine
end

