-- ==== Sys2Proof/Machine/Spdm.lean ====
section
/-! DEFINITION. The SPDM 1.2 requests that the Postmaster answers over PCIe DOE (12 R341, R352, Table 3). Codes of requests,
responses and errors are SPDM 1.2's, which the spec names (PRESUMED, log entry 15). -/

namespace Sys2Proof.Machine

/-- Response codes of SPDM 1.2. -/
def spdmDIGESTS : Nat := 0x01
def spdmCERTIFICATE : Nat := 0x02
def spdmCHALLENGEAUTH : Nat := 0x03
def spdmVERSION : Nat := 0x04
def spdmMEASUREMENTS : Nat := 0x60
def spdmCAPABILITIES : Nat := 0x61
def spdmALGORITHMS : Nat := 0x63
def spdmERROR : Nat := 0x7F

/-- Error codes: an invalid request, and one out of its order. -/
def spdmInvalid : Nat := 0x01
def spdmUnexpected : Nat := 0x04

/-- A response. -/
def State.spdmSend (s : State) (l : List Nat) : State := s.emit (.message l)

/-- A request reaches the Postmaster while the PCIe link is up and the part is not in recovery (12 R350); before `ready` holds it is out
of order. -/
def State.spdm (s : State) (ready : Bool) (f : State → State) : State :=
  if !s.dmaOk || s.inRecovery then s
  else if ready then f s
  else s.spdmSend [spdmERROR, spdmUnexpected]

/-- GET_VERSION starts a negotiation; the version is 1.2. -/
def execGetVersion (s : State) : Host.Outcome State Fault Refusal :=
  .next (s.spdm true (fun s =>
    (s.modMgmt (fun m => { m with spdmVersion := true, spdmCaps := false, spdmAlgs := false })).spdmSend [spdmVERSION, 0x12]))

/-- GET_CAPABILITIES: digests and certificates, challenge, and measurements. -/
def execGetCapabilities (s : State) : Host.Outcome State Fault Refusal :=
  .next (s.spdm s.mgmt.spdmVersion (fun s =>
    (s.modMgmt (fun m => { m with spdmCaps := true, spdmAlgs := false })).spdmSend [spdmCAPABILITIES]))

/-- NEGOTIATE_ALGORITHMS offers only ECDSA P-384 and SHA-384. -/
def execNegotiateAlgorithms (s : State) : Host.Outcome State Fault Refusal :=
  .next (s.spdm s.mgmt.spdmCaps (fun s =>
    (s.modMgmt (fun m => { m with spdmAlgs := true })).spdmSend [spdmALGORITHMS, 0x80, 0x02]))

/-- GET_DIGESTS: slot 0 alone holds a chain. -/
def execGetDigests (s : State) : Host.Outcome State Fault Refusal :=
  .next (s.spdm s.mgmt.spdmAlgs (fun s => s.spdmSend [spdmDIGESTS, 1, Config.digest (Config.certificate 0)]))

/-- GET_CERTIFICATE: a portion of the chain of slot 0, after its length and what remains. -/
def execGetCertificate (slot : BitVec 3) (off len : BitVec 16) (s : State) : Host.Outcome State Fault Refusal :=
  .next (s.spdm s.mgmt.spdmAlgs (fun s =>
    let c := Config.certificate 0
    if slot ≠ 0 ∨ c.length ≤ off.toNat then s.spdmSend [spdmERROR, spdmInvalid]
    else
      let part := (c.drop off.toNat).take len.toNat
      s.spdmSend ([spdmCERTIFICATE, slot.toNat, part.length, c.length - off.toNat - part.length] ++ part)))

/-- CHALLENGE: the digest of the chain, a nonce of the Postmaster and its signature by the device identity key; nonce and
signature are free (PRESUMED, log entry 15). -/
def execChallenge (slot : BitVec 3) (nonce : BitVec 256) (s : State) : Host.Outcome State Fault Refusal :=
  .next (s.spdm s.mgmt.spdmAlgs (fun s =>
    if slot ≠ 0 then s.spdmSend [spdmERROR, spdmInvalid]
    else
      let (mine, s) := s.freeBits 256
      let (sig, s) := s.freeBits 768
      s.spdmSend [spdmCHALLENGEAUTH, 0, nonce.toNat, Config.digest (Config.certificate 0), mine, sig]))

/-- A measurement block of 12 Table 3. -/
def State.measurement (s : State) (i : Nat) : Nat :=
  if i = 1 then Config.bootRomDigest
  else if i = 2 then
    let c := match s.mgmt.runningCopy with | some true => s.mgmt.copyB | some false => s.mgmt.copyA | none => none
    Config.digest (s.mgmt.runningSvn :: (match c with | some k => k.raw | none => []))
  else if i = 3 then Config.digest ((List.range 9).map (fun k => s.fuse (0x048 + k)))
  else match s.image (i - 4) with | some im => Config.digest im.raw | none => 0

/-- GET_MEASUREMENTS: one block, or for index 0xFF all seven; index 0 asks for their number. -/
def execGetMeasurements (index : BitVec 8) (s : State) : Host.Outcome State Fault Refusal :=
  let i := index.toNat
  .next (s.spdm s.mgmt.spdmAlgs (fun s =>
    if i = 0 then s.spdmSend [spdmMEASUREMENTS, 7]
    else if i = 0xFF then s.spdmSend (spdmMEASUREMENTS :: 7 :: ([1, 2, 3, 4, 5, 6, 7].map s.measurement))
    else if i ≤ 7 then s.spdmSend [spdmMEASUREMENTS, 1, s.measurement i]
    else s.spdmSend [spdmERROR, spdmInvalid]))

end Sys2Proof.Machine
end

