-- ==== Sys2Proof/Machine/Vector.lean ====
section
/-! DEFINITION. The vector engine rows (03 R83 to R87; 04 R116 to R121). -/

namespace Sys2Proof.Machine

/-- The beat in which a vector operation writes its result. -/
def vectorDue (f : Flight) : Option Nat :=
  match f with
  | .vres _ due _ _ _ => some due
  | .pres _ due _ _ _ _ _ => some due
  | .sres _ due _ _ => some due
  | .vld iss _ _ _ _ _ => some (iss + 2)
  | .vptld iss _ _ _ => some (iss + 2)
  | .vdispatch iss _ _ _ _ _ _ => some (iss + 5)
  | _ => none

/-- VADD (04 Table 13, R120); VECTOR_RESULT_WRITE writes the result in beat issue + 3. -/
def execVadd (t : TileId) (vd va vb : BitVec 4) (p : BitVec 3) (rm : VRm) (s : State) : Host.Outcome State Fault Refusal :=
  .next (s.issueOp t.val ⟨.nop, .nop, .nop, .vf .vadd vd va vb p rm⟩ 0)

/-- VSUB (04 Table 13, R120); VECTOR_RESULT_WRITE writes the result in beat issue + 3. -/
def execVsub (t : TileId) (vd va vb : BitVec 4) (p : BitVec 3) (rm : VRm) (s : State) : Host.Outcome State Fault Refusal :=
  .next (s.issueOp t.val ⟨.nop, .nop, .nop, .vf .vsub vd va vb p rm⟩ 0)

/-- VMUL (04 Table 13, R120); VECTOR_RESULT_WRITE writes the result in beat issue + 3. -/
def execVmul (t : TileId) (vd va vb : BitVec 4) (p : BitVec 3) (rm : VRm) (s : State) : Host.Outcome State Fault Refusal :=
  .next (s.issueOp t.val ⟨.nop, .nop, .nop, .vf .vmul vd va vb p rm⟩ 0)

/-- VFMA (04 R120): VA × VB + VC, one rounding. -/
def execVfma (t : TileId) (vd va vb vc : BitVec 4) (p : BitVec 3) (rm : VRm) (s : State) : Host.Outcome State Fault Refusal :=
  .next (s.issueOp t.val ⟨.nop, .nop, .nop, .vfma vd va vb vc p rm⟩ 0)

/-- VBFMA (02 R60): 128 BF16 lanes. -/
def execVbfma (t : TileId) (vd va vb vc : BitVec 4) (p : BitVec 3) (rm : VRm) (s : State) : Host.Outcome State Fault Refusal :=
  .next (s.issueOp t.val ⟨.nop, .nop, .nop, .vbfma vd va vb vc p rm⟩ 0)

/-- VIADD (04 Table 13, R121). -/
def execViadd (t : TileId) (vd va vb : BitVec 4) (p : BitVec 3) (s : State) : Host.Outcome State Fault Refusal :=
  .next (s.issueOp t.val ⟨.nop, .nop, .nop, .vi .viadd vd va vb p⟩ 0)

/-- VISUB (04 Table 13, R121). -/
def execVisub (t : TileId) (vd va vb : BitVec 4) (p : BitVec 3) (s : State) : Host.Outcome State Fault Refusal :=
  .next (s.issueOp t.val ⟨.nop, .nop, .nop, .vi .visub vd va vb p⟩ 0)

/-- VAND (04 Table 13, R121). -/
def execVand (t : TileId) (vd va vb : BitVec 4) (p : BitVec 3) (s : State) : Host.Outcome State Fault Refusal :=
  .next (s.issueOp t.val ⟨.nop, .nop, .nop, .vi .vand vd va vb p⟩ 0)

/-- VOR (04 Table 13, R121). -/
def execVor (t : TileId) (vd va vb : BitVec 4) (p : BitVec 3) (s : State) : Host.Outcome State Fault Refusal :=
  .next (s.issueOp t.val ⟨.nop, .nop, .nop, .vi .vor vd va vb p⟩ 0)

/-- VXOR (04 Table 13, R121). -/
def execVxor (t : TileId) (vd va vb : BitVec 4) (p : BitVec 3) (s : State) : Host.Outcome State Fault Refusal :=
  .next (s.issueOp t.val ⟨.nop, .nop, .nop, .vi .vxor vd va vb p⟩ 0)

/-- VSHL (04 Table 13, R121). -/
def execVshl (t : TileId) (vd va vb : BitVec 4) (p : BitVec 3) (s : State) : Host.Outcome State Fault Refusal :=
  .next (s.issueOp t.val ⟨.nop, .nop, .nop, .vi .vshl vd va vb p⟩ 0)

/-- VSHR (04 Table 13, R121). -/
def execVshr (t : TileId) (vd va vb : BitVec 4) (p : BitVec 3) (s : State) : Host.Outcome State Fault Refusal :=
  .next (s.issueOp t.val ⟨.nop, .nop, .nop, .vi .vshr vd va vb p⟩ 0)

/-- VSAR (04 Table 13, R121). -/
def execVsar (t : TileId) (vd va vb : BitVec 4) (p : BitVec 3) (s : State) : Host.Outcome State Fault Refusal :=
  .next (s.issueOp t.val ⟨.nop, .nop, .nop, .vi .vsar vd va vb p⟩ 0)

/-- VIMIN (04 Table 13, R121). -/
def execVimin (t : TileId) (vd va vb : BitVec 4) (p : BitVec 3) (s : State) : Host.Outcome State Fault Refusal :=
  .next (s.issueOp t.val ⟨.nop, .nop, .nop, .vi .vimin vd va vb p⟩ 0)

/-- VIMAX (04 Table 13, R121). -/
def execVimax (t : TileId) (vd va vb : BitVec 4) (p : BitVec 3) (s : State) : Host.Outcome State Fault Refusal :=
  .next (s.issueOp t.val ⟨.nop, .nop, .nop, .vi .vimax vd va vb p⟩ 0)

/-- VSEL (03 R83): VA where the predicate bit is 1, VB where it is 0, in every lane. -/
def execVsel (t : TileId) (vd va vb : BitVec 4) (p : BitVec 3) (s : State) : Host.Outcome State Fault Refusal :=
  .next (s.issueOp t.val ⟨.nop, .nop, .nop, .vsel vd va vb p⟩ 0)

/-- VCMP (04 R116). -/
def execVcmp (t : TileId) (pd : BitVec 3) (va vb : BitVec 4) (p : BitVec 3) (cond : VCond) (s : State) : Host.Outcome State Fault Refusal :=
  .next (s.issueOp t.val ⟨.nop, .nop, .nop, .vcmp pd va vb p cond⟩ 0)

/-- VBCAST (04 Table 13): every active lane from an S register. -/
def execVbcast (t : TileId) (vd : BitVec 4) (p : BitVec 3) (sx : BitVec 5) (s : State) : Host.Outcome State Fault Refusal :=
  .next (s.issueOp t.val ⟨.nop, .nop, .nop, .vbcast vd p sx⟩ 0)

/-- VTOS (04 R119): one lane into an S register. -/
def execVtos (t : TileId) (va : BitVec 4) (lane : BitVec 6) (sx : BitVec 5) (s : State) : Host.Outcome State Fault Refusal :=
  .next (s.issueOp t.val ⟨.nop, .nop, .nop, .vtos va lane sx⟩ 0)

/-- VCVT (04 R117). -/
def execVcvt (t : TileId) (vd va : BitVec 4) (p : BitVec 3) (cvt : VCvt) (part : BitVec 2) (mc : BitVec 3) (s : State) : Host.Outcome State Fault Refusal :=
  .next (s.issueOp t.val ⟨.nop, .nop, .nop, .vcvt vd va p cvt part mc⟩ 0)

/-- VTR (04 R118, 02 R61). -/
def execVtr (t : TileId) (vd va : BitVec 4) (p : BitVec 3) (fn : VFn) (s : State) : Host.Outcome State Fault Refusal :=
  .next (s.issueOp t.val ⟨.nop, .nop, .nop, .vtr vd va p fn⟩ 0)

/-- VRSUM (03 R85). -/
def execVrsum (t : TileId) (vd va : BitVec 4) (p : BitVec 3) (s : State) : Host.Outcome State Fault Refusal :=
  .next (s.issueOp t.val ⟨.nop, .nop, .nop, .vred .vrsum vd va p⟩ 0)

/-- VRMAX (03 R85). -/
def execVrmax (t : TileId) (vd va : BitVec 4) (p : BitVec 3) (s : State) : Host.Outcome State Fault Refusal :=
  .next (s.issueOp t.val ⟨.nop, .nop, .nop, .vred .vrmax vd va p⟩ 0)

/-- VRMIN (03 R85). -/
def execVrmin (t : TileId) (vd va : BitVec 4) (p : BitVec 3) (s : State) : Host.Outcome State Fault Refusal :=
  .next (s.issueOp t.val ⟨.nop, .nop, .nop, .vred .vrmin vd va p⟩ 0)

/-- VRSUMI (03 R85). -/
def execVrsumi (t : TileId) (vd va : BitVec 4) (p : BitVec 3) (s : State) : Host.Outcome State Fault Refusal :=
  .next (s.issueOp t.val ⟨.nop, .nop, .nop, .vred .vrsumi vd va p⟩ 0)

/-- VPERM (03 R86): through a permute table. -/
def execVperm (t : TileId) (vd va : BitVec 4) (p : BitVec 3) (tb : BitVec 4) (s : State) : Host.Outcome State Fault Refusal :=
  .next (s.issueOp t.val ⟨.nop, .nop, .nop, .vperm vd va p tb⟩ 0)

/-- VPERMV (03 R86): through an index register. -/
def execVpermv (t : TileId) (vd va vb : BitVec 4) (p : BitVec 3) (s : State) : Host.Outcome State Fault Refusal :=
  .next (s.issueOp t.val ⟨.nop, .nop, .nop, .vpermv vd va vb p⟩ 0)

/-- VPTLD (03 R86): a permute table from one unit, at issue + 2. -/
def execVptld (t : TileId) (tb : BitVec 4) (h : BitVec 6) (an : BitVec 4) (pi : Bool) (p : BitVec 3) (s : State) : Host.Outcome State Fault Refusal :=
  .next (s.issueOp t.val ⟨.nop, .nop, .nop, .vptld tb h an pi p⟩ 2)

/-- VLD (03 Table 5): two units read in beat issue + 1; VECTOR_RESULT_WRITE writes the register. -/
def execVld (t : TileId) (vd : BitVec 4) (h : BitVec 6) (an : BitVec 4) (pi : Bool) (p : BitVec 3) (s : State) : Host.Outcome State Fault Refusal :=
  .next (s.issueOp t.val ⟨.nop, .nop, .nop, .vld vd h an pi p⟩ 1)

/-- VST (03 Table 5): two units written in beat issue + 2. -/
def execVst (t : TileId) (vs : BitVec 4) (h : BitVec 6) (an : BitVec 4) (pi : Bool) (p : BitVec 3) (s : State) : Host.Outcome State Fault Refusal :=
  .next (s.issueOp t.val ⟨.nop, .nop, .nop, .vst vs h an pi p⟩ 2)

/-- VDISPATCH (03 R87): counts in beat issue + 1; VECTOR_RESULT_WRITE writes the slots. -/
def execVdispatch (t : TileId) (vd va : BitVec 4) (p : BitVec 3) (sx : BitVec 5) (s : State) : Host.Outcome State Fault Refusal :=
  .next (s.issueOp t.val ⟨.nop, .nop, .nop, .vdispatch vd va p sx⟩ 1)

/-- VDCLR (03 R87): every dispatch count to 0 in beat issue + 1. -/
def execVdclr (t : TileId) (s : State) : Host.Outcome State Fault Refusal :=
  .next (s.issueOp t.val ⟨.nop, .nop, .nop, .vdclr⟩ 1)

/-- The next result of the vector engine is written in its beat issue + latency − 1 (03 R84). -/
def execVectorResultWrite (t : TileId) (s : State) : Host.Outcome State Fault Refusal :=
  .next (s.passTo t.val (fun f _ => vectorDue f))

end Sys2Proof.Machine
end

