-- ==== Sys2Proof/Machine/Dispatch.lean ====
section
/-! DEFINITION. The meaning of every command: one arm for each constructor of `Instr`. -/

namespace Sys2Proof.Machine

/-- The effect of a command on everything but the queue. -/
def exec (i : Instr) (s : State) : Host.Outcome State Fault Refusal :=
  match i with
  | .roundStart p => Sys2Proof.Machine.execRoundStart p s
  | .heldRoundPosition p => Sys2Proof.Machine.execHeldRoundPosition p s
  | .gearChangeEffect => Sys2Proof.Machine.execGearChangeEffect s
  | .beatPllPrelock => Sys2Proof.Machine.execBeatPllPrelock s
  | .bundleIssue t => Sys2Proof.Machine.execBundleIssue t s
  | .alu t f sd sa sb => Sys2Proof.Machine.execAlu t f sd sa sb s
  | .alui t f sd sa imm => Sys2Proof.Machine.execAlui t f sd sa imm s
  | .lui t sd imm => Sys2Proof.Machine.execLui t sd imm s
  | .aseti t ad imm => Sys2Proof.Machine.execAseti t ad imm s
  | .aaddi t ad as imm => Sys2Proof.Machine.execAaddi t ad as imm s
  | .aadds t ad as sx => Sys2Proof.Machine.execAadds t ad as sx s
  | .afroms t ad sx => Sys2Proof.Machine.execAfroms t ad sx s
  | .atos t as sx => Sys2Proof.Machine.execAtos t as sx s
  | .pand t pd pa pb => Sys2Proof.Machine.execPand t pd pa pb s
  | .por t pd pa pb => Sys2Proof.Machine.execPor t pd pa pb s
  | .pxor t pd pa pb => Sys2Proof.Machine.execPxor t pd pa pb s
  | .pandn t pd pa pb => Sys2Proof.Machine.execPandn t pd pa pb s
  | .pfroms t pd sa sb => Sys2Proof.Machine.execPfroms t pd sa sb s
  | .pfirst t pd sa => Sys2Proof.Machine.execPfirst t pd sa s
  | .ptoslo t pa sd => Sys2Proof.Machine.execPtoslo t pa sd s
  | .ptoshi t pa sd => Sys2Proof.Machine.execPtoshi t pa sd s
  | .ld t sd h an pi imm => Sys2Proof.Machine.execLd t sd h an pi imm s
  | .scalarLoadWriteback t => Sys2Proof.Machine.execScalarLoadWriteback t s
  | .st t ss h an pi imm => Sys2Proof.Machine.execSt t ss h an pi imm s
  | .mcset t mc field src => Sys2Proof.Machine.execMcset t mc field src s
  | .dnset t dn v => Sys2Proof.Machine.execDnset t dn v s
  | .wait t n => Sys2Proof.Machine.execWait t n s
  | .waitExpiry t => Sys2Proof.Machine.execWaitExpiry t s
  | .loop t l c => Sys2Proof.Machine.execLoop t l c s
  | .loopBackEdge t => Sys2Proof.Machine.execLoopBackEdge t s
  | .endOp t => Sys2Proof.Machine.execEndOp t s
  | .rdbeat t sd => Sys2Proof.Machine.execRdbeat t sd s
  | .rdround t sd => Sys2Proof.Machine.execRdround t sd s
  | .rdgtile t sd => Sys2Proof.Machine.execRdgtile t sd s
  | .rdsteplo t sd => Sys2Proof.Machine.execRdsteplo t sd s
  | .rdstephi t sd => Sys2Proof.Machine.execRdstephi t sd s
  | .rddrops t sd => Sys2Proof.Machine.execRddrops t sd s
  | .copy t hs as hd ad dn pis pid => Sys2Proof.Machine.execCopy t hs as hd ad dn pis pid s
  | .fill t hd ad dn ss pid => Sys2Proof.Machine.execFill t hd ad dn ss pid s
  | .trans t hs as hd ad sz pis pid => Sys2Proof.Machine.execTrans t hs as hd ad sz pis pid s
  | .gatherE t hs vi hd ad es p pid => Sys2Proof.Machine.execGatherE t hs vi hd ad es p pid s
  | .scatterE t hs as hd vi es p pis => Sys2Proof.Machine.execScatterE t hs as hd vi es p pis s
  | .gatherR t hs vi hd ad dn p pid => Sys2Proof.Machine.execGatherR t hs vi hd ad dn p pid s
  | .scatterR t hs as hd vi dn p pis => Sys2Proof.Machine.execScatterR t hs as hd vi dn p pis s
  | .mxload t plane h an pi mc => Sys2Proof.Machine.execMxload t plane h an pi mc s
  | .weightPlaneComplete t => Sys2Proof.Machine.execWeightPlaneComplete t s
  | .mxstream t plane chk pi m t0 h an mc => Sys2Proof.Machine.execMxstream t plane chk pi m t0 h an mc s
  | .tallyRowContribution t => Sys2Proof.Machine.execTallyRowContribution t s
  | .tclr t t0 n => Sys2Proof.Machine.execTclr t t0 n s
  | .tload t t0 n h an pi => Sys2Proof.Machine.execTload t t0 n h an pi s
  | .tdrain t t0 n h an pi clr mc => Sys2Proof.Machine.execTdrain t t0 n h an pi clr mc s
  | .vadd t vd va vb p rm => Sys2Proof.Machine.execVadd t vd va vb p rm s
  | .vsub t vd va vb p rm => Sys2Proof.Machine.execVsub t vd va vb p rm s
  | .vmul t vd va vb p rm => Sys2Proof.Machine.execVmul t vd va vb p rm s
  | .vfma t vd va vb vc p rm => Sys2Proof.Machine.execVfma t vd va vb vc p rm s
  | .vbfma t vd va vb vc p rm => Sys2Proof.Machine.execVbfma t vd va vb vc p rm s
  | .viadd t vd va vb p => Sys2Proof.Machine.execViadd t vd va vb p s
  | .visub t vd va vb p => Sys2Proof.Machine.execVisub t vd va vb p s
  | .vand t vd va vb p => Sys2Proof.Machine.execVand t vd va vb p s
  | .vor t vd va vb p => Sys2Proof.Machine.execVor t vd va vb p s
  | .vxor t vd va vb p => Sys2Proof.Machine.execVxor t vd va vb p s
  | .vshl t vd va vb p => Sys2Proof.Machine.execVshl t vd va vb p s
  | .vshr t vd va vb p => Sys2Proof.Machine.execVshr t vd va vb p s
  | .vsar t vd va vb p => Sys2Proof.Machine.execVsar t vd va vb p s
  | .vimin t vd va vb p => Sys2Proof.Machine.execVimin t vd va vb p s
  | .vimax t vd va vb p => Sys2Proof.Machine.execVimax t vd va vb p s
  | .vsel t vd va vb p => Sys2Proof.Machine.execVsel t vd va vb p s
  | .vcmp t pd va vb p cond => Sys2Proof.Machine.execVcmp t pd va vb p cond s
  | .vbcast t vd p sx => Sys2Proof.Machine.execVbcast t vd p sx s
  | .vtos t va lane sx => Sys2Proof.Machine.execVtos t va lane sx s
  | .vcvt t vd va p cvt part mc => Sys2Proof.Machine.execVcvt t vd va p cvt part mc s
  | .vtr t vd va p fn => Sys2Proof.Machine.execVtr t vd va p fn s
  | .vrsum t vd va p => Sys2Proof.Machine.execVrsum t vd va p s
  | .vrmax t vd va p => Sys2Proof.Machine.execVrmax t vd va p s
  | .vrmin t vd va p => Sys2Proof.Machine.execVrmin t vd va p s
  | .vrsumi t vd va p => Sys2Proof.Machine.execVrsumi t vd va p s
  | .vperm t vd va p tb => Sys2Proof.Machine.execVperm t vd va p tb s
  | .vpermv t vd va vb p => Sys2Proof.Machine.execVpermv t vd va vb p s
  | .vptld t tb h an pi p => Sys2Proof.Machine.execVptld t tb h an pi p s
  | .vld t vd h an pi p => Sys2Proof.Machine.execVld t vd h an pi p s
  | .vst t vs h an pi p => Sys2Proof.Machine.execVst t vs h an pi p s
  | .vdispatch t vd va p sx => Sys2Proof.Machine.execVdispatch t vd va p sx s
  | .vdclr t => Sys2Proof.Machine.execVdclr t s
  | .vectorResultWrite t => Sys2Proof.Machine.execVectorResultWrite t s
  | .slotWheelChange t sl => Sys2Proof.Machine.execSlotWheelChange t sl s
  | .scrubberPortUse t => Sys2Proof.Machine.execScrubberPortUse t s
  | .clearPortUse t => Sys2Proof.Machine.execClearPortUse t s
  | .tenantClearComplete t tenant => Sys2Proof.Machine.execTenantClearComplete t tenant s
  | .timetableDeparture p l e j => Sys2Proof.Machine.execTimetableDeparture p l e j s
  | .getrDeparture p l e j => Sys2Proof.Machine.execGetrDeparture p l e j s
  | .fwdDeparture p l e j => Sys2Proof.Machine.execFwdDeparture p l e j s
  | .scheduledParcelReceive port bytes bad => Sys2Proof.Machine.execScheduledParcelReceive port bytes bad s
  | .landingDueBeat p l e j => Sys2Proof.Machine.execLandingDueBeat p l e j s
  | .generationDrainEnd p => Sys2Proof.Machine.execGenerationDrainEnd p s
  | .replayDeparture port slot => Sys2Proof.Machine.execReplayDeparture port slot s
  | .ack port sym bad => Sys2Proof.Machine.execAck port sym bad s
  | .nak port sym bad => Sys2Proof.Machine.execNak port sym bad s
  | .credit port sym bad => Sys2Proof.Machine.execCredit port sym bad s
  | .train port sym bad => Sys2Proof.Machine.execTrain port sym bad s
  | .cal port sym bad => Sys2Proof.Machine.execCal port sym bad s
  | .hold port sym bad => Sys2Proof.Machine.execHold port sym bad s
  | .exr port sym bad => Sys2Proof.Machine.execExr port sym bad s
  | .ackTimerExpiry port unsch => Sys2Proof.Machine.execAckTimerExpiry port unsch s
  | .creditRefreshExpiry port => Sys2Proof.Machine.execCreditRefreshExpiry port s
  | .receivePoolFree port => Sys2Proof.Machine.execReceivePoolFree port s
  | .unscheduledPacketSend port gap => Sys2Proof.Machine.execUnscheduledPacketSend port gap s
  | .unscheduledPacketReceive port bytes bad => Sys2Proof.Machine.execUnscheduledPacketReceive port bytes bad s
  | .write port => Sys2Proof.Machine.execWrite port s
  | .writec port => Sys2Proof.Machine.execWritec port s
  | .read port => Sys2Proof.Machine.execRead port s
  | .rdata port => Sys2Proof.Machine.execRdata port s
  | .cpl port => Sys2Proof.Machine.execCpl port s
  | .msg port => Sys2Proof.Machine.execMsg port s
  | .windowAccessComplete => Sys2Proof.Machine.execWindowAccessComplete s
  | .signalDetect port => Sys2Proof.Machine.execSignalDetect port s
  | .trainComplete port => Sys2Proof.Machine.execTrainComplete port s
  | .trainAttemptTimeout port => Sys2Proof.Machine.execTrainAttemptTimeout port s
  | .calibrationComplete port => Sys2Proof.Machine.execCalibrationComplete port s
  | .signalLoss port => Sys2Proof.Machine.execSignalLoss port s
  | .fecLockLoss port => Sys2Proof.Machine.execFecLockLoss port s
  | .linkSilenceTimeout port => Sys2Proof.Machine.execLinkSilenceTimeout port s
  | .laserInputLoss tp lane => Sys2Proof.Machine.execLaserInputLoss tp lane s
  | .holdGraceExpiry port => Sys2Proof.Machine.execHoldGraceExpiry port s
  | .linkEnable port en => Sys2Proof.Machine.execLinkEnable port en s
  | .retrain port => Sys2Proof.Machine.execRetrain port s
  | .holdreq port => Sys2Proof.Machine.execHoldreq port s
  | .linkControlWrite port r v => Sys2Proof.Machine.execLinkControlWrite port r v s
  | .txffeWrite port lane v => Sys2Proof.Machine.execTxffeWrite port lane v s
  | .exerciserModeWrite port v => Sys2Proof.Machine.execExerciserModeWrite port v s
  | .exerciserParcelSend port slot => Sys2Proof.Machine.execExerciserParcelSend port slot s
  | .timeExchangeSend port dom => Sys2Proof.Machine.execTimeExchangeSend port dom s
  | .exchange port sym bad => Sys2Proof.Machine.execExchange port sym bad s
  | .announce port sym bad => Sys2Proof.Machine.execAnnounce port sym bad s
  | .parentTimeout dom => Sys2Proof.Machine.execParentTimeout dom s
  | .masterSilentTimeout dom => Sys2Proof.Machine.execMasterSilentTimeout dom s
  | .tmbMasterWrite v => Sys2Proof.Machine.execTmbMasterWrite v s
  | .useA => Sys2Proof.Machine.execUseA s
  | .ntSet hi => Sys2Proof.Machine.execNtSet hi s
  | .postmarkRead size => Sys2Proof.Machine.execPostmarkRead size s
  | .localTimeBaseRead size => Sys2Proof.Machine.execLocalTimeBaseRead size s
  | .hostTimeRead size => Sys2Proof.Machine.execHostTimeRead size s
  | .ptmDialog host => Sys2Proof.Machine.execPtmDialog host s
  | .gearArm next => Sys2Proof.Machine.execGearArm next s
  | .gearCancel next => Sys2Proof.Machine.execGearCancel next s
  | .gearRequest p c => Sys2Proof.Machine.execGearRequest p c s
  | .gearPoll gear slacks => Sys2Proof.Machine.execGearPoll gear slacks s
  | .gearAnnounce chip gear tb => Sys2Proof.Machine.execGearAnnounce chip gear tb s
  | .gearAck chip => Sys2Proof.Machine.execGearAck chip s
  | .gearAckResendExpiry => Sys2Proof.Machine.execGearAckResendExpiry s
  | .gearAckFailExpiry => Sys2Proof.Machine.execGearAckFailExpiry s
  | .deputyTakeover p => Sys2Proof.Machine.execDeputyTakeover p s
  | .rmonMeasure r slack => Sys2Proof.Machine.execRmonMeasure r slack s
  | .droopWarn r mv => Sys2Proof.Machine.execDroopWarn r mv s
  | .droopEmergency r mv => Sys2Proof.Machine.execDroopEmergency r mv s
  | .clockSkewExceeded r ps => Sys2Proof.Machine.execClockSkewExceeded r ps s
  | .frankNtMatch => Sys2Proof.Machine.execFrankNtMatch s
  | .frankRoundMatch => Sys2Proof.Machine.execFrankRoundMatch s
  | .frankPinFall => Sys2Proof.Machine.execFrankPinFall s
  | .now => Sys2Proof.Machine.execNow s
  | .release => Sys2Proof.Machine.execRelease s
  | .frankLatch => Sys2Proof.Machine.execFrankLatch s
  | .frankPinRelease => Sys2Proof.Machine.execFrankPinRelease s
  | .incidentRecord => Sys2Proof.Machine.execIncidentRecord s
  | .abortNotice port p cause epoch origin round seq => Sys2Proof.Machine.execAbortNotice port p cause epoch origin round seq s
  | .resumeNotice port p epoch origin start => Sys2Proof.Machine.execResumeNotice port p epoch origin start s
  | .rollcallNotice port p epoch origin district => Sys2Proof.Machine.execRollcallNotice port p epoch origin district s
  | .rollcallWindowExpiry p => Sys2Proof.Machine.execRollcallWindowExpiry p s
  | .replayStart p => Sys2Proof.Machine.execReplayStart p s
  | .replayCompare p => Sys2Proof.Machine.execReplayCompare p s
  | .failoverSectionLoaded p lost => Sys2Proof.Machine.execFailoverSectionLoaded p lost s
  | .detourSetInstall p lost => Sys2Proof.Machine.execDetourSetInstall p lost s
  | .restorableStreamComplete p lost => Sys2Proof.Machine.execRestorableStreamComplete p lost s
  | .failoverDigestCompare p lost => Sys2Proof.Machine.execFailoverDigestCompare p lost s
  | .ingestWindowWrite t off bytes => Sys2Proof.Machine.execIngestWindowWrite t off bytes s
  | .descriptorAccept t j => Sys2Proof.Machine.execDescriptorAccept t j s
  | .payloadFetchFailure t j => Sys2Proof.Machine.execPayloadFetchFailure t j s
  | .ingestDistributionRun e => Sys2Proof.Machine.execIngestDistributionRun e s
  | .resultRun e => Sys2Proof.Machine.execResultRun e s
  | .resultFrameWrite t => Sys2Proof.Machine.execResultFrameWrite t s
  | .resultRingTailWrite t v => Sys2Proof.Machine.execResultRingTailWrite t v s
  | .resultRingEnable t => Sys2Proof.Machine.execResultRingEnable t s
  | .interruptHoldoffExpiry t vec => Sys2Proof.Machine.execInterruptHoldoffExpiry t vec s
  | .msixUnmask fn vec => Sys2Proof.Machine.execMsixUnmask fn vec s
  | .vfFlr t => Sys2Proof.Machine.execVfFlr t s
  | .teardownComplete t => Sys2Proof.Machine.execTeardownComplete t s
  | .pcieConventionalReset down => Sys2Proof.Machine.execPcieConventionalReset down s
  | .igqConfigWrite v => Sys2Proof.Machine.execIgqConfigWrite v s
  | .igqQuotaWrite v => Sys2Proof.Machine.execIgqQuotaWrite v s
  | .leaseWrite hi v => Sys2Proof.Machine.execLeaseWrite hi v s
  | .hostAreaWrite limit v => Sys2Proof.Machine.execHostAreaWrite limit v s
  | .letterbookEnable v => Sys2Proof.Machine.execLetterbookEnable v s
  | .replayEnable p => Sys2Proof.Machine.execReplayEnable p s
  | .getStatus src => Sys2Proof.Machine.execGetStatus src s
  | .ledgerDump => Sys2Proof.Machine.execLedgerDump s
  | .retireLog => Sys2Proof.Machine.execRetireLog s
  | .partitionSet => Sys2Proof.Machine.execPartitionSet s
  | .imageLoad img => Sys2Proof.Machine.execImageLoad img s
  | .imageUnload => Sys2Proof.Machine.execImageUnload s
  | .launch => Sys2Proof.Machine.execLaunch s
  | .stop => Sys2Proof.Machine.execStop s
  | .tileReset t src => Sys2Proof.Machine.execTileReset t src s
  | .regionReset r src => Sys2Proof.Machine.execRegionReset r src s
  | .partitionReset p src => Sys2Proof.Machine.execPartitionReset p src s
  | .chipReset src => Sys2Proof.Machine.execChipReset src s
  | .fieldScan results => Sys2Proof.Machine.execFieldScan results s
  | .fuseRead => Sys2Proof.Machine.execFuseRead s
  | .fuseProgram auth => Sys2Proof.Machine.execFuseProgram auth s
  | .flashUpdate img => Sys2Proof.Machine.execFlashUpdate img s
  | .clerkWatchdogExpiry => Sys2Proof.Machine.execClerkWatchdogExpiry s
  | .resetNAssert => Sys2Proof.Machine.execResetNAssert s
  | .resetNRelease pos board cut => Sys2Proof.Machine.execResetNRelease pos board cut s
  | .boardConfigRead => Sys2Proof.Machine.execBoardConfigRead s
  | .bringupComplete r => Sys2Proof.Machine.execBringupComplete r s
  | .regionBringupRestart r tile => Sys2Proof.Machine.execRegionBringupRestart r tile s
  | .getVersion => Sys2Proof.Machine.execGetVersion s
  | .getCapabilities => Sys2Proof.Machine.execGetCapabilities s
  | .negotiateAlgorithms => Sys2Proof.Machine.execNegotiateAlgorithms s
  | .getDigests => Sys2Proof.Machine.execGetDigests s
  | .getCertificate slot off len => Sys2Proof.Machine.execGetCertificate slot off len s
  | .challenge slot nonce => Sys2Proof.Machine.execChallenge slot nonce s
  | .getMeasurements index => Sys2Proof.Machine.execGetMeasurements index s
  | .pldmSensorRead addr id => Sys2Proof.Machine.execPldmSensorRead addr id s
  | .pwrLimit addr w => Sys2Proof.Machine.execPwrLimit addr w s
  | .powerAverageExpiry w => Sys2Proof.Machine.execPowerAverageExpiry w s
  | .thermalWarning r temp => Sys2Proof.Machine.execThermalWarning r temp s
  | .thermalTrip id temp => Sys2Proof.Machine.execThermalTrip id temp s
  | .powerFailShutdown c => Sys2Proof.Machine.execPowerFailShutdown c s
  | .auxPowerOn mv => Sys2Proof.Machine.execAuxPowerOn mv s
  | .mainRailsStart since mv => Sys2Proof.Machine.execMainRailsStart since mv s
  | .pwrGoodRise => Sys2Proof.Machine.execPwrGoodRise s
  | .regulatorSettle r => Sys2Proof.Machine.execRegulatorSettle r s
  | .topologyAnnounceSend => Sys2Proof.Machine.execTopologyAnnounceSend s
  | .topologyAnnounceReceive port bytes => Sys2Proof.Machine.execTopologyAnnounceReceive port bytes s
  | .topologyOriginExpiry origin => Sys2Proof.Machine.execTopologyOriginExpiry origin s
  | .routeTableUpdate => Sys2Proof.Machine.execRouteTableUpdate s
  | .urtDataWrite v => Sys2Proof.Machine.execUrtDataWrite v s
  | .tableWindowRead => Sys2Proof.Machine.execTableWindowRead s
  | .tableWindowWrite => Sys2Proof.Machine.execTableWindowWrite s
  | .swapArm p => Sys2Proof.Machine.execSwapArm p s
  | .aliasEntryWrite p bank w v => Sys2Proof.Machine.execAliasEntryWrite p bank w v s
  | .sdsWrite hi v => Sys2Proof.Machine.execSdsWrite hi v s
  | .pigeonholeRangeWrite p limit v => Sys2Proof.Machine.execPigeonholeRangeWrite p limit v s
  | .rwtEntryWrite j w v => Sys2Proof.Machine.execRwtEntryWrite j w v s
  | .handleEntryWrite t off v => Sys2Proof.Machine.execHandleEntryWrite t off v s
  | .inspectorModeWrite t m v => Sys2Proof.Machine.execInspectorModeWrite t m v s
  | .counterWrite pg off v => Sys2Proof.Machine.execCounterWrite pg off v s
  | .errorInjectionArm n v => Sys2Proof.Machine.execErrorInjectionArm n v s
  | .expertKeyWrite n v => Sys2Proof.Machine.execExpertKeyWrite n v s
  | .rackWrite v => Sys2Proof.Machine.execRackWrite v s
  | .prtStepRead p size => Sys2Proof.Machine.execPrtStepRead p size s
  | .prtRoundRead p size => Sys2Proof.Machine.execPrtRoundRead p size s
  | .registerWrite pg off d => Sys2Proof.Machine.execRegisterWrite pg off d s
  | .codewordReceive port rx => Sys2Proof.Machine.execCodewordReceive port rx s
  | .pcieLinkUp width rate => Sys2Proof.Machine.execPcieLinkUp width rate s
  | .vfEnable en n => Sys2Proof.Machine.execVfEnable en n s
  | .frankMatchArm v => Sys2Proof.Machine.execFrankMatchArm v s
  | .thermalWarningClear => Sys2Proof.Machine.execThermalWarningClear s
  | .auxPowerOff => Sys2Proof.Machine.execAuxPowerOff s
  | .resetComplete sc => Sys2Proof.Machine.execResetComplete sc s
  | .clerkRestartComplete => Sys2Proof.Machine.execClerkRestartComplete s
  | .letterbookHeadAdvance => Sys2Proof.Machine.execLetterbookHeadAdvance s
  | .mailboxUnknownOp smbus => Sys2Proof.Machine.execMailboxUnknownOp smbus s
  | .mailboxGoIgnored => Sys2Proof.Machine.execMailboxGoIgnored s
  | .jtagTapClock tms tdi trst => Sys2Proof.Machine.execJtagTapClock tms tdi trst s
  | .storedBitUpset u => Sys2Proof.Machine.execStoredBitUpset u s

end Sys2Proof.Machine
end

