-- ==== Sys2Proof/Machine/Step.lean ====
section
/-! DEFINITION. One step: the command at the front of the queue, or, on an empty queue, the passing of time. -/

namespace Sys2Proof.Machine

/-- One nanosecond of the local time base passes, by which NT moves at its rate (08 R232, R243; DESIGN CHOICE, log entry 1). -/
def State.idle (s : State) : State := s.passTime ((nsUnit : Int) + sgn 32 (s.getF pgTMB Reg.TMB_RATE_RATE)).toNat

/-- Take the command at the front of the queue and give its outcome with the rest of the queue. -/
def step (s : State) : Host.Outcome State Fault Refusal :=
  match s.pending with
  | [] => .next s.idle
  | c :: rest => exec c { s with pending := rest }

/-- The command that a word spells, put at the front of the queue. No row of the table has bits, so no word spells one. -/
def State.withFetchWord (s : State) (nbits w : Nat) : State :=
  match decodeTableWord nbits w with
  | some c => { s with pending := c :: s.pending }
  | none => s

end Sys2Proof.Machine
end

