-- ==== Sys2Proof/WellFormed.lean ====
section
/-! DEFINITION. Which operations an encoding exists for, and which commands name things the part has. -/

namespace Sys2Proof

/-- An SC operation with an encoding (04 R103, R109). -/
def ScOp.WF : ScOp → Bool
  | .alui f _ _ imm => !f.isShift || decide (imm.toNat < 32)
  | .mcset _ f (.imm v) => !mcImmReserved f v && !mcImmHigh f v
  | .mcset _ f (.reg _) => f.sAllowed
  | .nop | .alu .. | .lui .. | .aseti .. | .aaddi .. | .aadds .. | .afroms .. | .atos .. | .pop .. | .pfroms ..
  | .pfirst .. | .ptos .. | .ld .. | .st .. | .dnset .. | .wait .. | .loop .. | .endOp | .sys .. => true

/-- Every DM operation has an encoding. -/
def DmOp.WF : DmOp → Bool
  | .nop | .copy .. | .fill .. | .trans .. | .gatherE .. | .scatterE .. | .gatherR .. | .scatterR .. => true

/-- An MX operation whose rows lie in the Tally file (04 R113). -/
def MxOp.WF : MxOp → Bool
  | .mxstream _ _ _ m t0 _ _ _ => !rowsBeyond t0 m
  | .tclr t0 n => !rowsBeyond t0 n
  | .tload t0 n _ _ _ => !rowsBeyond t0 n
  | .tdrain t0 n _ _ _ _ _ => !rowsBeyond t0 n
  | .nop | .mxload .. => true

/-- A VX operation with an encoding (04 R117). -/
def VxOp.WF : VxOp → Bool
  | .vcvt _ _ _ cvt part _ => decide (part.toNat ≤ cvt.maxPart)
  | .nop | .vf .. | .vfma .. | .vbfma .. | .vi .. | .vsel .. | .vcmp .. | .vbcast .. | .vtos .. | .vtr .. | .vred ..
  | .vperm .. | .vpermv .. | .vptld .. | .vld .. | .vst .. | .vdispatch .. | .vdclr => true

/-- A bundle whose four operations have encodings. -/
def Bundle.WF (b : Bundle) : Bool := b.sc.WF && b.dm.WF && b.mx.WF && b.vx.WF

end Sys2Proof
end

