-- ==== Sys2Proof/Safety.lean ====
section
/-! DEFINITION. What claims speak of: a command that completes, a tile that may issue, and what a command leaves as it was. -/

namespace Sys2Proof.Machine

/-- Command c, carried out in s, answers a next state of which P holds. -/
def Completes (c : Instr) (s : State) (P : State → Prop) : Prop := ∃ t, exec c s = .next t ∧ P t

/-- Every register field but those listed (page and field) reads in t as it reads in s. -/
def KeepsRegs (s t : State) (l : List (Nat × Fld)) : Prop :=
  ∀ k d, k ∉ l.map (fun e => e.2.key e.1) → t.regs.get k d = s.regs.get k d

/-- t and s differ in registers only. -/
def RegsOnly (s t : State) : Prop := t = { s with regs := t.regs }

/-- Tile t runs, holds no WAIT, and `n` beats from the one it is in still lie before the last beat of its round. -/
def Ready (s : State) (t n : Nat) : Prop :=
  s.tileRuns t = true ∧ (s.tile t).seq.wait = 0 ∧ (s.tile t).seq.beat + n < s.lastBeat t

/-- Ready, with no operation in flight. -/
def Idle (s : State) (t n : Nat) : Prop := Ready s t n ∧ (s.tile t).flight = []

/-- The tile of an operation of 04_instruction_set.md; none for the other commands. -/
def opTile (c : Instr) : Option TileId :=
  match c with
  | .alu t .. | .alui t .. | .lui t .. | .aseti t .. | .aaddi t .. | .aadds t .. | .afroms t .. | .atos t .. | .pand t ..
  | .por t .. | .pxor t .. | .pandn t .. | .pfroms t .. | .pfirst t .. | .ptoslo t .. | .ptoshi t .. | .ld t .. | .st t ..
  | .mcset t .. | .dnset t .. | .wait t _ | .loop t .. | .rdbeat t _ | .rdround t _ | .rdgtile t _ | .rdsteplo t _
  | .rdstephi t _ | .rddrops t _ | .copy t .. | .fill t .. | .trans t .. | .gatherE t .. | .scatterE t .. | .gatherR t ..
  | .scatterR t .. | .mxload t .. | .mxstream t .. | .tclr t .. | .tload t .. | .tdrain t .. | .vadd t .. | .vsub t ..
  | .vmul t .. | .vfma t .. | .vbfma t .. | .viadd t .. | .visub t .. | .vand t .. | .vor t .. | .vxor t .. | .vshl t ..
  | .vshr t .. | .vsar t .. | .vimin t .. | .vimax t .. | .vsel t .. | .vcmp t .. | .vbcast t .. | .vtos t .. | .vcvt t ..
  | .vtr t .. | .vrsum t .. | .vrmax t .. | .vrmin t .. | .vrsumi t .. | .vperm t .. | .vpermv t .. | .vptld t .. | .vld t ..
  | .vst t .. | .vdispatch t .. | .vdclr t => some t
  | _ => none

/-- What is left as it was by an operation of tile t: everything but time, registers of the tile's page and of the error
unit, the tile itself, incidents, the codes of control words, and the count of free values. -/
def TileFrame (s u : State) (t : Nat) : Prop :=
  u = { s with nt := u.nt, ltb := u.ltb, free := u.free, regs := u.regs, tiles := u.tiles, time := u.time,
               module := u.module, upsets := u.upsets, incidents := u.incidents } ∧
  (∀ t', t' ≠ t → u.tile t' = s.tile t') ∧
  (∀ pg f, pg ≠ pgTIL t → pg ≠ pgETU → f.off < 0x10000 → f.lo < 32 → u.getF pg f = s.getF pg f)

/-- The counter in field f of a page has moved on by n, wrapping at its width. -/
def Counts (s u : State) (pg : Nat) (f : Fld) (n : Nat) : Prop := u.getF pg f = (s.getF pg f + n) % 2 ^ f.width

/-- The same of a counter of a link. -/
def CountsL (s u : State) (x : Nat) (f : Fld) (n : Nat) : Prop := u.getL x f = (s.getL x f + n) % 2 ^ f.width

/-- One incident of a code was reported, by a block. -/
def Reports (s u : State) (code block : Nat) : Prop :=
  ∃ i, u.incidents = s.incidents ++ [i] ∧ i.code = code ∧ i.block = block

/-- No injection is armed on a page. -/
def Calm (s : State) (pg : Nat) : Prop := s.getB pg Reg.BLK_ERR_INJ_ARM = false

/-- A control symbol of type ty that link x takes: framed, its CRC right and its fields valid (07 R210, R211). -/
def GoodSym (s : State) (x : Nat) (y : BitVec 128) (ty : Nat) : Prop :=
  s.linkState x ≠ lnkDOWN ∧ s.linkState x ≠ lnkFAILED ∧ (s.link x).framing = false ∧ symCrcHolds y = true ∧
  symValid y = true ∧ symType y = ty

/-- Parcel i of timetable entry e, which reads en, departs on physical port x (06 R167 to R169). -/
def Departs (s : State) (p l e i : Nat) (en : TtEntry) (x : Nat) : Prop :=
  s.upsets = [] ∧ (s.liveTt p l).find? (fun z => z.1 == e) = some (e, en) ∧ s.physOf p (s.gen p) l = some x ∧
  i < en.run ∧ s.ttActive p en = true ∧ s.slotFate p l x e (slotOf (s.sds x) en.start i) = .departs

/-- A parcel of partition p can leave by port x in a slot: the link carries it, the slot is free, the replay buffer has
room, and no injection is armed (06 R168; 07 R212, R217; 13 R378). -/
def LinkTakes (s : State) (p x slot : Nat) : Prop :=
  s.carries p x = true ∧ (s.sds x = true ∨ s.beatNt p (slotBeats x * slot) ∉ (s.link x).taken ∧
    s.holdAt x (s.beatNt p (slotBeats x * slot)) = false) ∧
  (s.link x).sBuf.length < 1024 ∧ Calm s (linkPage x) ∧ Calm s 0x020 ∧ Calm s 0x021 ∧ Calm s 0x022 ∧ Calm s 0x023

/-- One frame was sent on port x under the next SEQ, and the replay buffer keeps it (07 R212). -/
def SentParcel (s u : State) (x : Nat) (f : Frame) : Prop :=
  f.hdr.seq = (s.link x).sNext ∧ (u.link x).sNext = ((s.link x).sNext + 1) % 65536 ∧
  (u.link x).sBuf = (s.link x).sBuf ++ [f] ∧ u.sent = s.sent ++ [.wire x f.wire false]

/-- A unit access of the interchange in beat b passes every check: the handle, the region port, the wheel and the bank
group (05 R131, R143; 06 R161). -/
def FabricPasses (s : State) (a : FabAcc) (b : Nat) : Prop :=
  let p := (s.handle a.tile a.handle).phys a.unit
  (s.handle a.tile a.handle).check p a.right a.tenant = .pass ∧
  (s.carried (a.tile / 16) b a.write [a]).contains a = true ∧ (s.fabHolders a.tile b [a]).contains a = true ∧
  (s.fabHolders a.tile b [a]).find? (fun d => s.fabGroup d == bankGroup p) = some a

/-- A frame that link x takes as good; it is as long as its CLASS and LEN say (07 R206, R211). -/
def GoodFrame (s : State) (x : Nat) (l : List Byte) : Prop :=
  s.linkState x = lnkUP ∧ (s.link x).framing = false ∧ 32 ≤ l.length ∧ l.length = frameLen l ∧ crcHolds l = true ∧ (Frame.parse l).hdr.ver = 1

/-- The landing entries, with the parcel's place in each, that cover the slot of a parcel which arrived on port x, as
partition p resolves it on logical port l in the parcel's bank (06 R174). -/
def landingsOf (s : State) (p x l : Nat) (h : Hdr) : List (Nat × LdEntry × Nat) :=
  (s.liveLd p l (if h.gen then 1 else 0)).filterMap (fun z =>
    if (s.part p).decision || z.2.mark then (slotIndex (s.sds x) z.2.start z.2.run h.slot).map (fun i => (z.1, z.2, i)) else none)

/-- A scheduled parcel that arrives good, on a link in normal use, under the SEQ after the highest received, for a running
partition of this chip in its own generation (06 R174; 07 R211, R212). -/
def Arrives (s : State) (x : Nat) (l : List Byte) (p lp : Nat) : Prop :=
  let h := (Frame.parse l).hdr
  GoodFrame s x l ∧ h.cls = 0 ∧ h.schedValid l.length false = true ∧ s.getL x Reg.ICL_EXR_CTL_MODE = 0 ∧
  h.seq = (match (s.link x).sHigh with | none => 0 | some q => (q + 1) % 65536) ∧ h.seq ∉ (s.link x).sGot ∧
  s.upsets = [] ∧ p = h.postcode / 2 ^ 14 ∧ s.partInReset p = false ∧ s.prtState p = prtRUNNING ∧
  (if h.gen then 1 else 0) = s.gen p ∧ s.logicalOf p (s.gen p) x = some lp

/-- The parcel is the one its landing expects, in time for the round (06 R174, R175). -/
def Lands (s : State) (p _x : Nat) (en : LdEntry) (i : Nat) (h : Hdr) : Prop :=
  h.round = s.round p ∧ s.nt < s.beatNt p (en.deadline i) ∧ h.postcode = en.postcode ∧ h.kind = en.pkind ∧
  h.hops % 16 = en.hopsSeen ∧ h.offset = i ∧ routeFits s.chipId en h = true

/-- Link x has lost itself with a cause: what it held of the scheduled class is gone, and it trains again at once, or holds
its unscheduled packets, as ICL_DOWN_MODE says (07 R223). -/
def LinkLost (s u : State) (x cause : Nat) : Prop :=
  u.getL x Reg.ICL_STATE_CAUSE = cause ∧ u.getL x Reg.ICL_ERR_LOSS = 1 ∧ u.getL x Reg.ICL_STATE_SCHED = 0 ∧
  (u.link x).sBuf = [] ∧ (u.link x).pend = [] ∧ (u.link x).resumed = [] ∧
  (if s.getL x Reg.ICL_DOWN_MODE_MODE = 0 then
    u.linkState x = lnkTRAIN ∧ u.getL x Reg.ICL_STATE_ATTEMPTS = 1 ∧ (u.link x).uBuf = [] ∧
    ∀ r ∈ (u.link x).requests, r.answer.isSome = true
   else u.linkState x = lnkHOLD ∧ (u.link x).uBuf = (s.link x).uBuf ∧
    ∀ r ∈ (s.link x).requests, r.answer = none → r ∈ (u.link x).requests)

/-- A good unscheduled packet under the next SEQ on a link in normal use (07 R211, R218, R219). -/
def PacketTaken (s : State) (x : Nat) (l : List Byte) : Prop :=
  let f := Frame.parse l
  GoodFrame s x l ∧ f.hdr.cls = 1 ∧ f.hdr.unschValid l.length f.data = true ∧ f.hdr.seq = (s.link x).uExp ∧
  f.units ≤ ((s.link x).lim.get f.hdr.vc 0 + 2 ^ 32 - (s.link x).rcv.get f.hdr.vc 0) % 2 ^ 32

/-- The mailbox command that was taken has ended with a status: its TAG is returned and DONE set (12 R346, R348). -/
def Answers (s u : State) (status : Nat) : Prop :=
  u.getF pgMGT Reg.MGT_CMD_GO = 0 ∧ u.getF pgMGT Reg.MGT_RSP_BUSY = 0 ∧ u.getF pgMGT Reg.MGT_RSP_DONE = 1 ∧
  u.getF pgMGT Reg.MGT_RSP_STATUS = status ∧ u.getF pgMGT Reg.MGT_RSP_TAG = s.getF pgMGT Reg.MGT_CMD_TAG % 2 ^ 16

/-- Result words from RES0 on. -/
def Results (u : State) (l : List Nat) : Prop :=
  ∀ k, k < min 8 l.length → u.getF pgMGT (Reg.MGT_RES_WORD.at k) = l.getD k 0 % 2 ^ 32

/-- A mailbox command waits that the Clerk serves now. -/
def Served (s : State) (op : Nat) : Prop := s.asks op = true ∧ s.isReady = true ∧ s.mgmt.clerkUp = true

/-- A message of this chip's Clerk about partition p waits to leave for chip dst, where a route leads there (08 R250; log entry 34). -/
def Told (s u : State) (p dst : Nat) (l : List Nat) : Prop :=
  ∀ x, s.route dst = .port x → ⟨mkPacket s 6 0 p dst clerkTarget 0 0 false (clerkWords l), none⟩ ∈ (u.link x).queue

/-- What a read of some size returns of a pair of words whose low one is the register read (13 R372). -/
def readOf (size : ReadSize) (w : Nat) : Nat :=
  match size with
  | .word => w % 2 ^ 32
  | .bytes first count => w % 2 ^ 32 / 2 ^ (8 * first.val) % 2 ^ (8 * count.val)
  | .pair => w % 2 ^ 64

/-- Nothing of tiles, partitions, links, tables, rings, the governor or the management complex has changed, and no register but those of
the management page, on which the mailbox lies. -/
def Untouched (s u : State) : Prop :=
  u.tiles = s.tiles ∧ u.parts = s.parts ∧ u.links = s.links ∧ u.ich = s.ich ∧ u.mgmt = s.mgmt ∧ u.hostMem = s.hostMem ∧
  u.time = s.time ∧ u.nt = s.nt ∧ u.hif.tenants = s.hif.tenants ∧ u.gov = s.gov ∧
  ∀ pg f, pg ≠ pgMGT → f.off < 0x10000 → f.lo < 32 → u.getF pg f = s.getF pg f

/-- A tile is at its reset values, and holds what its level of reset keeps: scratchpad, RV bits and retained ranges
(12 R365). -/
def TileReset (s u : State) (t : Nat) : Prop :=
  u.seqState t = seqHALTED ∧ (u.tile t).arch = .reset ∧ (u.tile t).seq = .reset ∧ (u.tile t).flight = [] ∧
  (u.tile t).repairs = [] ∧ (u.tile t).spd = (s.tile t).spd ∧ (u.tile t).rv = (s.tile t).rv

/-- The stores of the interchange, the host interface, Franks, the management complex and the module are in their canonical form. -/
def State.CanonicalStores (s : State) : Prop :=
  s.ich.tables.wf 0 = true ∧ s.ich.lease.wf 0 = true ∧ s.ich.names.wf 0 = true ∧ s.ich.cells.wf .reset = true ∧
  s.ich.regUse.wf 0 = true ∧ s.ich.urt.wf 0 = true ∧ s.hif.hostRun.wf 0 = true ∧ s.hif.tenants.wf .reset = true ∧
  s.hif.pfVectors.wf .reset = true ∧ s.franks.snaps.wf 0 = true ∧ s.mgmt.hidden.wf 16 = true ∧ s.module.sensors.wf 0 = true ∧
  s.devNt.wf 0 = true

/-- The sparse stores of the machine are in their canonical form, each scratchpad among them; of the registers, whose fields have values
at reset of their own, each is listed once, in the order of their places. -/
def State.Canonical (s : State) : Prop :=
  s.hostMem.wf 0 = true ∧ s.mgmt.fuses.wf 0 = true ∧ s.tiles.wf .reset = true ∧ s.parts.wf .reset = true ∧
  s.links.wf .reset = true ∧ s.rmons.wf .reset = true ∧ (∀ e ∈ s.tiles, e.2.spd.wf 0 = true) ∧
  s.regs.Pairwise (fun a b => a.1 < b.1) ∧ s.CanonicalStores

end Sys2Proof.Machine
end

