-- ==== Sys2Proof/Frame.lean ====
section
/-! DEFINITION. The frame of every command: the components of the state that it may change (from what each rule says its
operation does). -/

namespace Sys2Proof.Machine

/-- The components of the state. -/
inductive Comp where
  | nt | ltb | free | regs | tiles | parts | ich | links | time | gov | rmons | hif | franks | mgmt | module | upsets | incidents | devNt | hostMem | sent | pending
  deriving DecidableEq, Repr

/-- A component is the same in two states. -/
def State.same (s u : State) : Comp → Prop
  | .nt => u.nt = s.nt
  | .ltb => u.ltb = s.ltb
  | .free => u.free = s.free
  | .regs => u.regs = s.regs
  | .tiles => u.tiles = s.tiles
  | .parts => u.parts = s.parts
  | .ich => u.ich = s.ich
  | .links => u.links = s.links
  | .time => u.time = s.time
  | .gov => u.gov = s.gov
  | .rmons => u.rmons = s.rmons
  | .hif => u.hif = s.hif
  | .franks => u.franks = s.franks
  | .mgmt => u.mgmt = s.mgmt
  | .module => u.module = s.module
  | .upsets => u.upsets = s.upsets
  | .incidents => u.incidents = s.incidents
  | .devNt => u.devNt = s.devNt
  | .hostMem => u.hostMem = s.hostMem
  | .sent => u.sent = s.sent
  | .pending => u.pending = s.pending

/-- The components that a command may change; it leaves every other one as it was. -/
def mayChange : Instr → List Comp
  | .roundStart .. =>
    [.nt, .ltb, .free, .regs, .tiles, .parts, .ich, .links, .time, .gov, .rmons, .hif, .module, .upsets, .incidents, .devNt, .sent]
  | .heldRoundPosition .. =>
    [.nt, .ltb, .free, .regs, .tiles, .parts, .time, .rmons, .hif, .module, .incidents, .devNt]
  | .gearChangeEffect => [.nt, .ltb, .free, .regs, .time, .rmons, .hif, .module, .incidents, .devNt]
  | .beatPllPrelock => [.nt, .ltb, .regs, .time, .rmons, .module]
  | .bundleIssue .. | .alu .. | .alui .. | .lui .. | .aseti .. | .aaddi .. | .aadds .. | .afroms .. | .atos ..
  | .pand .. | .por .. | .pxor .. | .pandn .. | .pfroms .. | .pfirst .. | .ptoslo .. | .ptoshi .. | .ld ..
  | .scalarLoadWriteback .. | .st .. | .mcset .. | .dnset .. | .wait .. | .waitExpiry .. | .loop .. | .endOp ..
  | .rdbeat .. | .rdround .. | .rdgtile .. | .rdsteplo .. | .rdstephi .. | .rddrops .. | .copy .. | .fill ..
  | .trans .. | .gatherE .. | .scatterE .. | .gatherR .. | .scatterR .. | .mxload .. | .weightPlaneComplete ..
  | .mxstream .. | .tallyRowContribution .. | .tclr .. | .tload .. | .tdrain .. | .vadd .. | .vsub .. | .vmul ..
  | .vfma .. | .vbfma .. | .viadd .. | .visub .. | .vand .. | .vor .. | .vxor .. | .vshl .. | .vshr .. | .vsar ..
  | .vimin .. | .vimax .. | .vsel .. | .vcmp .. | .vbcast .. | .vtos .. | .vcvt .. | .vtr .. | .vrsum ..
  | .vrmax .. | .vrmin .. | .vrsumi .. | .vperm .. | .vpermv .. | .vptld .. | .vld .. | .vst .. | .vdispatch ..
  | .vdclr .. | .vectorResultWrite .. | .slotWheelChange .. =>
    [.nt, .ltb, .free, .regs, .tiles, .time, .module, .upsets, .incidents, .devNt]
  | .loopBackEdge .. => [.tiles]
  | .scrubberPortUse .. | .clearPortUse .. => [.nt, .ltb, .free, .regs, .tiles, .time, .module, .upsets, .incidents]
  | .tenantClearComplete .. => [.regs, .tiles]
  | .timetableDeparture .. =>
    [.nt, .ltb, .free, .regs, .tiles, .links, .time, .module, .upsets, .incidents, .devNt, .sent]
  | .getrDeparture .. =>
    [.nt, .ltb, .free, .regs, .tiles, .ich, .links, .time, .module, .upsets, .incidents, .devNt, .sent]
  | .fwdDeparture .. => [.nt, .ltb, .free, .regs, .ich, .links, .time, .module, .upsets, .incidents, .devNt, .sent]
  | .scheduledParcelReceive .. => [.free, .regs, .parts, .ich, .links, .upsets, .incidents, .devNt, .sent]
  | .landingDueBeat .. => [.nt, .ltb, .free, .regs, .tiles, .ich, .time, .module, .upsets, .incidents, .devNt]
  | .generationDrainEnd .. => [.nt, .ltb, .regs, .time, .module]
  | .replayDeparture .. | .ackTimerExpiry .. | .trainAttemptTimeout .. | .holdGraceExpiry ..
  | .exerciserParcelSend .. | .timeExchangeSend .. => [.nt, .ltb, .regs, .links, .time, .module, .devNt, .sent]
  | .ack .. | .credit .. | .train .. | .exr .. | .unscheduledPacketReceive .. =>
    [.regs, .links, .incidents, .devNt, .sent]
  | .nak .. | .cal .. => [.nt, .ltb, .regs, .links, .time, .module, .incidents, .devNt, .sent]
  | .hold .. | .signalLoss .. | .fecLockLoss .. | .laserInputLoss .. | .holdreq .. =>
    [.regs, .links, .time, .hif, .incidents, .devNt, .sent]
  | .creditRefreshExpiry .. => [.regs, .devNt, .sent]
  | .receivePoolFree .. | .signalDetect .. | .calibrationComplete .. | .retrain .. => [.regs, .links, .devNt, .sent]
  | .unscheduledPacketSend .. => [.regs, .parts, .links, .devNt, .sent]
  | .write .. | .writec .. | .read .. => [.free, .regs, .ich, .links, .upsets, .incidents]
  | .rdata .. | .cpl .. => [.regs, .links, .sent]
  | .msg .. | .replayCompare .. =>
    [.free, .regs, .tiles, .parts, .ich, .links, .time, .gov, .rmons, .hif, .mgmt, .incidents, .devNt, .sent]
  | .windowAccessComplete =>
    [.nt, .ltb, .free, .regs, .tiles, .ich, .links, .time, .module, .upsets, .incidents, .devNt]
  | .trainComplete .. => [.nt, .ltb, .free, .regs, .links, .time, .module, .devNt, .sent]
  | .linkSilenceTimeout .. | .codewordReceive .. =>
    [.nt, .ltb, .regs, .links, .time, .hif, .module, .incidents, .devNt, .sent]
  | .linkEnable .. => [.regs, .links, .time, .sent]
  | .linkControlWrite .. | .txffeWrite .. | .release | .igqQuotaWrite .. | .hostAreaWrite .. | .replayEnable ..
  | .tableWindowRead | .swapArm .. | .sdsWrite .. | .pigeonholeRangeWrite .. | .inspectorModeWrite ..
  | .counterWrite .. | .expertKeyWrite .. | .rackWrite .. | .pcieLinkUp .. | .mailboxGoIgnored => [.regs]
  | .exerciserModeWrite .. => [.free, .regs, .links, .sent]
  | .exchange .. => [.nt, .free, .regs, .links, .time, .incidents, .devNt, .sent]
  | .announce .. => [.free, .regs, .links, .time, .incidents, .devNt, .sent]
  | .parentTimeout .. | .masterSilentTimeout .. => [.nt, .ltb, .free, .regs, .time, .module, .incidents]
  | .tmbMasterWrite .. => [.free, .regs, .time, .incidents]
  | .useA => [.regs, .time]
  | .ntSet .. => [.nt, .regs, .time]
  | .postmarkRead .. | .localTimeBaseRead .. | .hostTimeRead .. | .prtStepRead .. | .prtRoundRead .. =>
    [.regs, .parts, .incidents, .sent]
  | .ptmDialog .. => [.nt, .ltb, .time, .module]
  | .gearArm .. | .gearCancel .. => [.free, .regs, .time, .rmons, .hif, .incidents, .devNt]
  | .gearRequest .. | .gearPoll .. | .droopWarn .. =>
    [.free, .regs, .links, .time, .gov, .rmons, .hif, .incidents, .devNt]
  | .gearAnnounce .. => [.free, .regs, .links, .time, .rmons, .hif, .incidents, .devNt]
  | .gearAck .. => [.gov]
  | .gearAckResendExpiry => [.nt, .ltb, .regs, .links, .time, .gov, .module]
  | .gearAckFailExpiry =>
    [.nt, .ltb, .regs, .tiles, .parts, .ich, .links, .time, .gov, .hif, .module, .incidents, .sent]
  | .deputyTakeover .. => [.parts]
  | .rmonMeasure .. => [.nt, .ltb, .free, .regs, .links, .time, .gov, .rmons, .hif, .module, .incidents, .devNt]
  | .droopEmergency .. => [.regs, .rmons, .incidents]
  | .clockSkewExceeded .. => [.regs, .incidents]
  | .frankNtMatch | .frankRoundMatch => [.nt, .ltb, .regs, .time, .hif, .franks, .module, .sent]
  | .frankPinFall | .now => [.regs, .hif, .franks, .sent]
  | .frankLatch => [.nt, .ltb, .regs, .parts, .time, .franks, .module, .incidents, .devNt]
  | .frankPinRelease => [.nt, .ltb, .time, .franks, .module]
  | .incidentRecord | .chipReset .. | .resetNAssert | .resetNRelease .. | .thermalWarning .. | .thermalTrip ..
  | .powerFailShutdown .. | .auxPowerOff =>
    [.nt, .ltb, .free, .regs, .tiles, .parts, .ich, .links, .time, .gov, .rmons, .hif, .franks, .mgmt, .module, .upsets, .incidents, .devNt, .hostMem, .sent]
  | .abortNotice .. => [.regs, .tiles, .parts, .ich, .links, .time, .hif, .mgmt, .incidents, .sent]
  | .resumeNotice .. => [.regs, .tiles, .parts, .links, .time, .hif, .mgmt, .incidents, .sent]
  | .rollcallNotice .. | .clerkRestartComplete => [.regs, .parts, .links, .hif, .mgmt, .sent]
  | .rollcallWindowExpiry .. =>
    [.nt, .ltb, .regs, .tiles, .parts, .ich, .links, .time, .hif, .module, .incidents, .sent]
  | .replayStart .. =>
    [.nt, .ltb, .free, .regs, .tiles, .parts, .ich, .links, .time, .rmons, .hif, .module, .incidents, .devNt]
  | .failoverSectionLoaded .. => [.regs, .tiles, .parts, .ich, .hif, .upsets, .devNt]
  | .detourSetInstall .. => [.regs, .parts, .ich, .upsets, .devNt]
  | .restorableStreamComplete .. => [.regs, .tiles, .parts, .links, .gov, .incidents]
  | .failoverDigestCompare .. => [.regs, .tiles, .parts, .links, .hif, .incidents, .sent]
  | .ingestWindowWrite .. | .descriptorAccept .. => [.free, .regs, .parts, .hif, .upsets, .incidents, .sent]
  | .payloadFetchFailure .. | .getStatus .. => [.free, .regs, .hif, .incidents, .sent]
  | .ingestDistributionRun .. =>
    [.nt, .ltb, .free, .regs, .tiles, .time, .hif, .module, .upsets, .incidents, .devNt, .sent]
  | .resultRun .. => [.nt, .ltb, .free, .regs, .tiles, .parts, .time, .hif, .module, .upsets, .incidents]
  | .resultFrameWrite .. | .letterbookHeadAdvance => [.regs, .hif, .hostMem, .sent]
  | .resultRingTailWrite .. | .teardownComplete .. | .igqConfigWrite .. => [.regs, .hif, .sent]
  | .resultRingEnable .. | .leaseWrite .. | .letterbookEnable .. | .vfEnable .. => [.regs, .hif]
  | .interruptHoldoffExpiry .. => [.nt, .ltb, .time, .hif, .module, .sent]
  | .msixUnmask .. => [.hif, .sent]
  | .vfFlr .. | .pcieConventionalReset .. => [.regs, .tiles, .parts, .hif, .upsets]
  | .ledgerDump | .retireLog => [.free, .regs, .hif, .hostMem, .sent]
  | .partitionSet => [.free, .regs, .tiles, .ich, .links, .hif, .mgmt, .upsets, .sent]
  | .imageLoad .. => [.free, .regs, .tiles, .parts, .ich, .links, .gov, .hif, .upsets, .incidents, .sent]
  | .imageUnload => [.free, .regs, .tiles, .parts, .ich, .links, .time, .gov, .hif, .sent]
  | .launch => [.free, .regs, .parts, .links, .gov, .hif, .mgmt, .sent]
  | .stop => [.free, .regs, .parts, .links, .hif, .sent]
  | .tileReset .. | .regionReset .. | .partitionReset .. =>
    [.free, .regs, .tiles, .parts, .ich, .links, .time, .gov, .hif, .mgmt, .upsets, .incidents, .sent]
  | .fieldScan .. => [.free, .regs, .tiles, .ich, .links, .rmons, .hif, .mgmt, .upsets, .sent]
  | .fuseRead | .mailboxUnknownOp .. => [.free, .regs, .hif, .sent]
  | .fuseProgram .. | .flashUpdate .. => [.free, .regs, .hif, .mgmt, .incidents, .sent]
  | .clerkWatchdogExpiry => [.regs, .gov, .hif, .mgmt, .sent]
  | .boardConfigRead => [.free, .regs, .time, .mgmt, .module, .incidents]
  | .bringupComplete .. => [.free, .regs, .tiles, .parts, .rmons, .mgmt, .module]
  | .regionBringupRestart .. => [.free, .regs, .tiles, .mgmt, .upsets]
  | .getVersion | .getCapabilities | .negotiateAlgorithms => [.mgmt, .sent]
  | .getDigests | .getCertificate .. | .getMeasurements .. => [.sent]
  | .challenge .. => [.free, .sent]
  | .pldmSensorRead .. => [.module, .sent]
  | .pwrLimit .. | .powerAverageExpiry .. =>
    [.free, .regs, .links, .time, .gov, .rmons, .hif, .module, .incidents, .devNt]
  | .auxPowerOn .. | .pwrGoodRise | .thermalWarningClear => [.module]
  | .mainRailsStart .. => [.nt, .ltb, .regs, .time, .module, .sent]
  | .regulatorSettle .. => [.rmons]
  | .topologyAnnounceSend => [.links, .mgmt]
  | .topologyAnnounceReceive .. => [.regs, .links, .time, .mgmt, .sent]
  | .topologyOriginExpiry .. => [.nt, .ltb, .time, .mgmt, .module]
  | .routeTableUpdate | .urtDataWrite .. => [.ich]
  | .tableWindowWrite => [.regs, .ich, .upsets, .devNt]
  | .aliasEntryWrite .. => [.regs, .ich, .upsets]
  | .rwtEntryWrite .. | .errorInjectionArm .. => [.regs, .rmons]
  | .handleEntryWrite .. => [.regs, .rmons, .upsets]
  | .registerWrite .. =>
    [.nt, .ltb, .free, .regs, .parts, .ich, .links, .time, .rmons, .hif, .franks, .module, .upsets, .incidents, .devNt, .sent]
  | .frankMatchArm .. => [.nt, .ltb, .regs, .parts, .time, .hif, .franks, .module, .incidents, .devNt, .sent]
  | .resetComplete .. => [.free, .regs, .rmons, .hif, .mgmt, .sent]
  | .jtagTapClock .. =>
    [.nt, .ltb, .free, .regs, .tiles, .parts, .ich, .links, .time, .rmons, .hif, .franks, .module, .upsets, .incidents, .devNt, .sent]
  | .storedBitUpset .. => [.tiles, .upsets, .incidents]

end Sys2Proof.Machine
end

