-- ==== Sys2Proof/Certificates/Slice0/Obligations.lean ====
section
/-! DEFINITION. The statements for the provers. A statement with several parts is their conjunction; each part is a definition
under `Claims`. -/

open Sys2Proof Sys2Proof.Machine

/-- The scalar unit writes an S register in the issue beat: the function of 04 Table 4, an immediate, an A register, half a
predicate, or one of the values of 04 Table 7, poisoned where a source is; S0 stays 0 (04 R95, R103 to R108, R122). -/
def Claims.ScalarResults : Prop :=
  ∀ (s : State) (t : TileId), Ready s t.val 0 →
    let a := (s.tile t.val).arch
    let p := (s.partOfTile t.val).getD 0
    let gives := fun (c : Instr) (sd : BitVec 5) (v : PV 32) =>
      Completes c s (fun u => (u.tile t.val).arch.rdS sd = if sd = 0 then .zero 32 else v)
    let reads := fun (c : Instr) (sd : BitVec 5) (v : Nat) => gives c sd (.ok (BitVec.ofNat 32 v))
    (∀ f sd sa sb, gives (.alu t f sd sa sb) sd ⟨aluFn f (a.rdS sa).v (a.rdS sb).v, (a.rdS sa).p || (a.rdS sb).p⟩) ∧
    (∀ f sd sa imm, (f.isShift = true → imm.toNat < 32) →
      gives (.alui t f sd sa imm) sd ⟨aluFn (aluiAlu f) (a.rdS sa).v (imm.signExtend 32), (a.rdS sa).p⟩) ∧
    (∀ sd imm, gives (.lui t sd imm) sd (.ok (imm.zeroExtend 32 <<< 12))) ∧
    (∀ ar sx, gives (.atos t ar sx) sx (a.rdA ar)) ∧
    (∀ pa sd, gives (.ptoslo t pa sd) sd ⟨(a.rdP pa).v.extractLsb' 0 32, (a.rdP pa).p⟩) ∧
    (∀ pa sd, gives (.ptoshi t pa sd) sd ⟨(a.rdP pa).v.extractLsb' 32 32, (a.rdP pa).p⟩) ∧
    (∀ sd, reads (.rdbeat t sd) sd (s.tile t.val).seq.beat) ∧
    (∀ sd, reads (.rdround t sd) sd (s.getF (pgPRT p) Reg.PRT_ROUND_ROUND)) ∧
    (∀ sd, reads (.rdgtile t sd) sd (s.chipId * 256 + t.val)) ∧
    (∀ sd, reads (.rdsteplo t sd) sd (s.getF (pgPRT p) Reg.PRT_STEP_LO)) ∧
    (∀ sd, reads (.rdstephi t sd) sd (s.getF (pgPRT p) Reg.PRT_STEP_HI)) ∧
    (∀ sd, reads (.rddrops t sd) sd (s.getF (pgTIL t.val) Reg.TIL_DISPATCH_DROPS_COUNT))

/-- The functions of ALU (04 Table 4): wrapping sums and products, shifts by the low five bits, and comparisons that
give 1 or 0. -/
def Claims.AluFunctions : Prop :=
  ∀ x y : Word,
    aluFn .add x y = x + y ∧ aluFn .sub x y = x - y ∧ aluFn .and x y = x &&& y ∧ aluFn .or x y = x ||| y ∧
    aluFn .xor x y = x ^^^ y ∧ aluFn .shl x y = x <<< (y.toNat % 32) ∧ aluFn .shr x y = x >>> (y.toNat % 32) ∧
    aluFn .sar x y = x.sshiftRight (y.toNat % 32) ∧ aluFn .mul x y = x * y ∧
    (aluFn .mulhu x y).toNat = x.toNat * y.toNat / 2 ^ 32 ∧
    (aluFn .min x y).toInt = min x.toInt y.toInt ∧ (aluFn .max x y).toInt = max x.toInt y.toInt ∧
    (aluFn .minu x y).toNat = min x.toNat y.toNat ∧ (aluFn .maxu x y).toNat = max x.toNat y.toNat ∧
    aluFn .seq x y = (if x = y then 1 else 0) ∧ aluFn .slt x y = (if x.toInt < y.toInt then 1 else 0) ∧
    aluFn .sltu x y = (if x.toNat < y.toNat then 1 else 0)

/-- A registers take an immediate, a sum or an S register; predicates the Boolean functions of 04 Table 6, 64 bits of two S
registers, or a run of ones; P0 stays all ones (04 R95, R105, R106, R122). -/
def Claims.AddressAndPredicateResults : Prop :=
  ∀ (s : State) (t : TileId), Ready s t.val 0 →
    let a := (s.tile t.val).arch
    let toA := fun (c : Instr) (ad : BitVec 4) (v : PV 32) => Completes c s (fun u => (u.tile t.val).arch.rdA ad = v)
    let toP := fun (c : Instr) (pd : BitVec 3) (v : PV 64) =>
      Completes c s (fun u => (u.tile t.val).arch.rdP pd = if pd = 0 then .ok (BitVec.allOnes 64) else v)
    (∀ ad imm, toA (.aseti t ad imm) ad (.ok (imm.zeroExtend 32))) ∧
    (∀ ad ar imm, toA (.aaddi t ad ar imm) ad ⟨(a.rdA ar).v + imm.signExtend 32, (a.rdA ar).p⟩) ∧
    (∀ ad ar sx, toA (.aadds t ad ar sx) ad ⟨(a.rdA ar).v + (a.rdS sx).v, (a.rdA ar).p || (a.rdS sx).p⟩) ∧
    (∀ ad sx, toA (.afroms t ad sx) ad (a.rdS sx)) ∧
    (∀ pd pa pb, toP (.pand t pd pa pb) pd ⟨(a.rdP pa).v &&& (a.rdP pb).v, (a.rdP pa).p || (a.rdP pb).p⟩) ∧
    (∀ pd pa pb, toP (.por t pd pa pb) pd ⟨(a.rdP pa).v ||| (a.rdP pb).v, (a.rdP pa).p || (a.rdP pb).p⟩) ∧
    (∀ pd pa pb, toP (.pxor t pd pa pb) pd ⟨(a.rdP pa).v ^^^ (a.rdP pb).v, (a.rdP pa).p || (a.rdP pb).p⟩) ∧
    (∀ pd pa pb, toP (.pandn t pd pa pb) pd ⟨(a.rdP pa).v &&& ~~~(a.rdP pb).v, (a.rdP pa).p || (a.rdP pb).p⟩) ∧
    (∀ pd sa sb, toP (.pfroms t pd sa sb) pd ⟨(a.rdS sb).v ++ (a.rdS sa).v, (a.rdS sa).p || (a.rdS sb).p⟩) ∧
    (∀ pd sa, Completes (.pfirst t pd sa) s (fun u =>
      pd ≠ 0 → (∀ i, i < 64 → ((u.tile t.val).arch.rdP pd).v.getLsbD i = decide (i < (a.rdS sa).v.toNat)) ∧
        ((u.tile t.val).arch.rdP pd).p = (a.rdS sa).p))

/-- Results of scalar, address and predicate operations. -/
def Obligations.ScalarResults : Prop :=
  Claims.ScalarResults ∧ Claims.AluFunctions ∧ Claims.AddressAndPredicateResults

/-- MCSET writes one field of an MC register and leaves the other fields as they were; DNSET holds its immediate plus 1
(04 R109, R112, R122). -/
def Claims.MatrixConfigResults : Prop :=
  ∀ (s : State) (t : TileId), Ready s t.val 0 →
    let a := (s.tile t.val).arch
    (∀ mc f v, mcImmReserved f v = false → mcImmHigh f v = false →
      Completes (.mcset t mc f (.imm v)) s (fun u =>
        mcField ((u.tile t.val).arch.rdMC mc).v f = v.toNat % 2 ^ f.width ∧
        (∀ g, g ≠ f → mcField ((u.tile t.val).arch.rdMC mc).v g = mcField (a.rdMC mc).v g) ∧
        ((u.tile t.val).arch.rdMC mc).p = (a.rdMC mc).p)) ∧
    (∀ mc f sa, f.sAllowed = true →
      Completes (.mcset t mc f (.reg sa)) s (fun u =>
        mcField ((u.tile t.val).arch.rdMC mc).v f = (a.rdS sa).v.toNat % 2 ^ f.width ∧
        (∀ g, g ≠ f → mcField ((u.tile t.val).arch.rdMC mc).v g = mcField (a.rdMC mc).v g) ∧
        ((u.tile t.val).arch.rdMC mc).p = ((a.rdMC mc).p || (a.rdS sa).p))) ∧
    (∀ dn v, Completes (.dnset t dn v) s (fun u => (u.tile t.val).arch.rdDN dn = v.toNat + 1))

/-- The sequencer: WAIT holds issue for the beats it names, LOOP opens a body, the back-edge starts the next pass or leaves
the loop, and the beats of a WAIT pass one by one (03 R63 to R65). -/
def Claims.SequencerResults : Prop :=
  ∀ (s : State) (t : TileId),
    let x := s.tile t.val
    let q := x.seq.settle
    (∀ n, Ready s t.val 0 → Completes (.wait t n) s (fun u =>
      (u.tile t.val).seq = ⟨q.pc + 1, q.beat + 1, n.toNat + 1, q.loops, q.beat⟩)) ∧
    (∀ l c, Ready s t.val 0 → loopBad { x with seq := q } (s.streamEnd t.val) l = false → Completes (.loop t l c) s (fun u =>
      (u.tile t.val).seq =
        ⟨q.pc + 1, q.beat + 1, 0, ⟨q.pc + 1, q.pc + l.toNat + 1, c.toNat + 1⟩ :: q.loops, q.beat⟩)) ∧
    (∀ f l, s.tileRuns t.val = true → x.seq.loops = f :: l → x.seq.pc = f.last + 1 → 1 < f.left →
      Completes (.loopBackEdge t) s (fun u => (u.tile t.val).seq =
        { x.seq with pc := f.first, loops := { f with left := f.left - 1 } :: l })) ∧
    (∀ f, s.tileRuns t.val = true → x.seq.loops = [f] → x.seq.pc = f.last + 1 → f.left ≤ 1 →
      Completes (.loopBackEdge t) s (fun u => (u.tile t.val).seq = { x.seq with loops := [] })) ∧
    (s.tileRuns t.val = true → x.seq.beat + x.seq.wait ≤ s.lastBeat t.val →
      Completes (.waitExpiry t) s (fun u => (u.tile t.val).seq = { x.seq with beat := x.seq.beat + x.seq.wait, wait := 0 })) ∧
    (s.tileRuns t.val = true → 0 < x.seq.wait → x.seq.beat ≠ s.lastBeat t.val →
      Completes (.bundleIssue t) s (fun u => (u.tile t.val).seq = { x.seq with beat := x.seq.beat + 1, wait := x.seq.wait - 1 }))

/-- END in the last beat of the round, with no operation at work in it, halts the tile (03 R66); that the beat of a last access counts as
work is log entry 46 (DEDUCED). That STEP moves on, and stamps are cleared, with the last tile's END, when no other tile of the
partition still runs or stands stopped, is the model's choice, log entry 50 (DEDUCED; 09 R267). -/
def Claims.EndOfRound : Prop :=
  ∀ (s : State) (t : TileId) (p : Nat), s.tileRuns t.val = true → s.partOfTile t.val = some p →
    let x := s.tile t.val
    x.seq.wait = 0 → x.seq.beat = s.lastBeat t.val → x.flight.any (fun f => decide (x.seq.beat ≤ flightLast f)) = false →
    Completes (.endOp t) s (fun u =>
      u.seqState t.val = seqHALTED ∧
      ((∀ w ∈ s.tilesOf p, w ≠ t.val → s.seqState w ≠ seqRUNNING ∧ s.seqState w ≠ seqSTOPPED) →
        u.get64 (pgPRT p) Reg.PRT_STEP_LO Reg.PRT_STEP_HI =
          (s.get64 (pgPRT p) Reg.PRT_STEP_LO Reg.PRT_STEP_HI + 1) % 2 ^ 64 ∧
        ∀ w ∈ s.tilesOf p, (u.tile w).arch.stamps = []))

/-- MCSET and DNSET, WAIT and loops, END and STEP. -/
def Obligations.ConfigurationAndSequencing : Prop :=
  Claims.MatrixConfigResults ∧ Claims.SequencerResults ∧ Claims.EndOfRound

/-- An idle tile that issues a scalar operation changes no other register of its own than the destination (04 R95 to R97). -/
def Claims.ScalarFrame : Prop :=
  ∀ (s : State) (t : TileId), Idle s t.val 0 →
    let a := (s.tile t.val).arch
    let toS := fun (c : Instr) (sd : BitVec 5) => Completes c s (fun u => ∃ v, (u.tile t.val).arch = a.wrS sd v)
    let toA := fun (c : Instr) (ad : BitVec 4) => Completes c s (fun u => ∃ v, (u.tile t.val).arch = a.wrA ad v)
    let toP := fun (c : Instr) (pd : BitVec 3) => Completes c s (fun u => ∃ v, (u.tile t.val).arch = a.wrP pd v)
    (∀ f sd sa sb, toS (.alu t f sd sa sb) sd) ∧ (∀ f sd sa imm, (f.isShift = true → imm.toNat < 32) → toS (.alui t f sd sa imm) sd) ∧
    (∀ sd imm, toS (.lui t sd imm) sd) ∧ (∀ ar sx, toS (.atos t ar sx) sx) ∧ (∀ pa sd, toS (.ptoslo t pa sd) sd) ∧
    (∀ pa sd, toS (.ptoshi t pa sd) sd) ∧ (∀ sd, toS (.rdbeat t sd) sd) ∧ (∀ sd, toS (.rdround t sd) sd) ∧
    (∀ sd, toS (.rdgtile t sd) sd) ∧ (∀ sd, toS (.rdsteplo t sd) sd) ∧ (∀ sd, toS (.rdstephi t sd) sd) ∧
    (∀ sd, toS (.rddrops t sd) sd) ∧
    (∀ ad imm, toA (.aseti t ad imm) ad) ∧ (∀ ad ar imm, toA (.aaddi t ad ar imm) ad) ∧
    (∀ ad ar sx, toA (.aadds t ad ar sx) ad) ∧ (∀ ad sx, toA (.afroms t ad sx) ad) ∧
    (∀ pd pa pb, toP (.pand t pd pa pb) pd) ∧ (∀ pd pa pb, toP (.por t pd pa pb) pd) ∧ (∀ pd pa pb, toP (.pxor t pd pa pb) pd) ∧
    (∀ pd pa pb, toP (.pandn t pd pa pb) pd) ∧ (∀ pd sa sb, toP (.pfroms t pd sa sb) pd) ∧ (∀ pd sa, toP (.pfirst t pd sa) pd) ∧
    (∀ mc f src, (ScOp.mcset mc f src).WF = true →
      Completes (.mcset t mc f src) s (fun u => ∃ v, (u.tile t.val).arch = a.wrMC mc v)) ∧
    (∀ dn v, Completes (.dnset t dn v) s (fun u => ∃ n, (u.tile t.val).arch = a.wrDN dn n))

/-- An operation of a tile leaves the other tiles and the rest of the part as they were: it changes time, the tile's own
page, the error unit's page, the tile, and what the block reports. -/
def Claims.TileOperationFrame : Prop :=
  ∀ (c : Instr) (t : TileId) (s u : State), opTile c = some t → exec c s = .next u → TileFrame s u t.val

/-- What an operation of a tile leaves as it was. -/
def Obligations.OperationFrames : Prop :=
  Claims.ScalarFrame ∧ Claims.TileOperationFrame

/-- S0 reads as 0 and P0 as all ones, so that P0 names every lane; an operation that writes S0 or P0 takes its beats, and its
write is discarded without a flag (04 R95). -/
def Obligations.ZeroRegisters : Prop :=
  (∀ a : Arch, a.rdS 0 = .zero 32 ∧ a.rdP 0 = .ok (BitVec.allOnes 64) ∧ (∀ v, a.wrS 0 v = a) ∧ (∀ v, a.wrP 0 v = a) ∧
    ∀ f, (laneOp (a.rdP 0) f).1.map (·.1) = List.range 64) ∧
  (∀ (s : State) (t : TileId), Idle s t.val 0 →
    let x := s.tile t.val
    let discarded := fun (c : Instr) => Completes c s (fun u =>
      (u.tile t.val).arch = x.arch ∧ (u.tile t.val).seq = x.seq.settle.after .nop ∧
      ∀ f ∈ [Reg.TIL_ARITH_FLAGS_SPILL, Reg.TIL_ARITH_FLAGS_NANIN, Reg.TIL_ARITH_FLAGS_GRIDLOSS, Reg.TIL_ARITH_FLAGS_POISON,
        Reg.TIL_ARITH_FLAGS_INV, Reg.TIL_ARITH_FLAGS_OVF, Reg.TIL_ARITH_FLAGS_UNF, Reg.TIL_ARITH_FLAGS_INX],
        u.getF (pgTIL t.val) f = s.getF (pgTIL t.val) f)
    (∀ f sa sb, discarded (.alu t f 0 sa sb)) ∧ (∀ imm, discarded (.lui t 0 imm)) ∧ (∀ ar, discarded (.atos t ar 0)) ∧
    (∀ pa, discarded (.ptoslo t pa 0)) ∧ discarded (.rdbeat t 0) ∧ (∀ pa pb, discarded (.pand t 0 pa pb)) ∧
    (∀ sa sb, discarded (.pfroms t 0 sa sb)) ∧ (∀ sa, discarded (.pfirst t 0 sa))) ∧
  (∀ (s : State) (t : TileId) (iss : Nat) (o : Opnd) (d : PV 32), s.tileRuns t.val = true →
    (s.tile t.val).flight = [.ld iss 0 o d] → (s.tile t.val).seq.beat = iss + 2 → iss + 2 ≠ s.lastBeat t.val →
    Completes (.scalarLoadWriteback t) s (fun u => (u.tile t.val).arch = (s.tile t.val).arch ∧ (u.tile t.val).flight = []))

/-- A bundle is fetched from the code handle, eight to a unit of 32 words, and a legal one issues: the sequencer moves on
(03 R63, R66, R432). The words are read clean and no control word is struck. -/
def Claims.BundleIssues : Prop :=
  ∀ (s : State) (t : TileId) (bd : Bundle),
    let x := s.tile t.val
    let h := s.getF (pgTIL t.val) Reg.TIL_SEQ_CODE_HANDLE
    let hd := s.handle t.val h
    let p := hd.base + x.seq.pc / 8
    Ready s t.val 0 → x.seq.loops = [] → s.upsets = [] → s.beatNt ((s.partOfTile t.val).getD 0) x.seq.beat ≤ s.nt →
    hd.valid = true → hd.closed = false → p < hd.bound → p < 0x8000 → bd.sc ≠ .endOp →
    bundleFault x (s.streamEnd t.val) x.seq.beat (encodeSc bd.sc, encodeDm bd.dm, encodeMx bd.mx, encodeVx bd.vx) = none →
    bd.WF = true →
    (∀ k, k < 4 → x.spd.get (p * 32 + 4 * (x.seq.pc % 8) + k) 0 = storeWord ((encodeBundle bd).getD k 0) false false) →
    Completes (.bundleIssue t) s (fun u => (u.tile t.val).seq = x.seq.after bd.sc)

/-- An operation whose encoding is illegal stops the tile: its word, slot, REASON and PC are recorded and code 0x2001 is raised
(04 R125 to R128). Here: a gather of runs longer than 4,096 units, REASON 6. -/
def Claims.IllegalBundleStops : Prop :=
  ∀ (s : State) (t : TileId) (hs : BitVec 6) (vi : BitVec 4) (hd : BitVec 6) (ad dn : BitVec 4) (p : BitVec 3) (pid : Bool),
    s.tileRuns t.val = true → (s.tile t.val).seq.wait = 0 → 4096 < (s.tile t.val).arch.rdDN dn →
    Completes (.gatherR t hs vi hd ad dn p pid) s (fun u =>
      u.seqState t.val = seqSTOPPED ∧ (u.tile t.val).flight = [] ∧
      u.getF (pgTIL t.val) Reg.TIL_ILL_STAT_VALID = 1 ∧ u.getF (pgTIL t.val) Reg.TIL_ILL_STAT_SLOT = 1 ∧
      u.getF (pgTIL t.val) Reg.TIL_ILL_STAT_REASON = 6 ∧
      u.getF (pgTIL t.val) Reg.TIL_ILL_WORD_WORD = (encodeDm (.gatherR hs vi hd ad dn p pid)).toNat ∧
      u.getF (pgTIL t.val) Reg.TIL_ILL_STAT_PC = (s.tile t.val).seq.settle.pc % 2 ^ Reg.TIL_ILL_STAT_PC.width ∧
      (∃ i, u.incidents = s.incidents ++ [i] ∧ i.code = 0x2001 ∧ i.block = pgTIL t.val))

/-- A legal bundle issues from the code handle; an illegal one stops the tile. -/
def Obligations.BundleIssue : Prop :=
  Claims.BundleIssues ∧ Claims.IllegalBundleStops

/-- A scalar store of an idle tile writes its word in the beat after issue, through a handle that allows it, and no other
word; with post-increment its A register moves on by 4 (03 R68; 04 R100, R107; 05 R131, R149). That IMM12 is extended with zeros is
the model's choice, log entry 39. -/
def Claims.ScalarStore : Prop :=
  ∀ (s : State) (t : TileId) (ss : BitVec 5) (h : BitVec 6) (an : BitVec 4) (pi : Bool) (imm : BitVec 12),
    let x := s.tile t.val
    let a := x.arch
    let b := x.seq.beat + 1
    let off := ((a.rdA an).v.toNat + 4 * imm.toNat) / 4 * 4
    let hd := s.handle t.val h.toNat
    let p := hd.phys (off / 128)
    let key := wordKey hd.col p (off / 4 % 32)
    Idle s t.val 1 → s.upsets = [] → (a.rdA an).p = false → hd.check p rDMW none = .pass → s.fabWinner t.val b (bankGroup p) [] = none →
    s.inspMode t.val h.toNat = .off → s.getB (pgTIL t.val) Reg.BLK_ERR_INJ_ARM = false →
    Completes (.st t ss h an pi imm) s (fun u =>
      (u.tile t.val).spd.get key 0 = storeWord (a.rdS ss).v (a.rdS ss).p false ∧
      (∀ k, k ≠ key → (u.tile t.val).spd.get k 0 = x.spd.get k 0) ∧
      (u.tile t.val).arch.rdA an = ⟨(a.rdA an).v + (if pi then 4 else 0), false⟩)

/-- A scalar load of an idle tile reads a clean word in the beat after issue; in the beat after that the word is in its S
register (03 R68; 04 R107; 05 R131, R148). -/
def Claims.ScalarLoad : Prop :=
  (∀ (s : State) (t : TileId) (sd : BitVec 5) (h : BitVec 6) (an : BitVec 4) (pi : Bool) (imm : BitVec 12) (w : Word),
    let x := s.tile t.val
    let a := x.arch
    let b := x.seq.beat
    let off := ((a.rdA an).v.toNat + 4 * imm.toNat) / 4 * 4
    let hd := s.handle t.val h.toNat
    let p := hd.phys (off / 128)
    Idle s t.val 1 → s.upsets = [] → (a.rdA an).p = false → hd.check p rDMR none = .pass →
    s.fabWinner t.val (b + 1) (bankGroup p) [] = none → s.inspMode t.val h.toNat = .off →
    x.spd.get (wordKey hd.col p (off / 4 % 32)) 0 = storeWord w false false →
    Completes (.ld t sd h an pi imm) s (fun u =>
      (u.tile t.val).flight = [.ld b sd.toNat ⟨h.toNat, off, false⟩ (.ok w)] ∧
      (u.tile t.val).arch.rdA an = ⟨(a.rdA an).v + (if pi then 4 else 0), false⟩)) ∧
  (∀ (s : State) (t : TileId) (iss : Nat) (sd : BitVec 5) (o : Opnd) (d : PV 32),
    s.tileRuns t.val = true → (s.tile t.val).flight = [.ld iss sd.toNat o d] → (s.tile t.val).seq.beat = iss + 2 →
    iss + 2 ≠ s.lastBeat t.val →
    Completes (.scalarLoadWriteback t) s (fun u =>
      (u.tile t.val).arch = (s.tile t.val).arch.wrS sd d ∧ (u.tile t.val).flight = []))

/-- Scalar store and load through a handle. -/
def Obligations.LoadAndStore : Prop :=
  Claims.ScalarStore ∧ Claims.ScalarLoad

/-- Each data mover operation keeps the mover busy for the beats of 03 R88 to R90 and moves the A registers of its operands on by
their footprints, where it asks for post-increment (03 R88 to R90; 04 R100, R110 to R113). -/
def Claims.DataMover : Prop :=
  ∀ (s : State) (t : TileId),
    let x := s.tile t.val
    let a := x.arch
    let b := x.seq.beat
    let moves := fun (c : Instr) (last : Nat) (inc : BitVec 4 → Nat) =>
      Ready s t.val last → x.dmvFree ≤ b → Completes c s (fun u =>
        (u.tile t.val).dmvFree = b + last + 1 ∧ (u.tile t.val).seq.beat = b + last + 1 ∧
        ∀ r, (u.tile t.val).arch.rdA r = ⟨(a.rdA r).v + BitVec.ofNat 32 (inc r), (a.rdA r).p⟩)
    let on := fun (c : Bool) (an : BitVec 4) (n : Nat) (r : BitVec 4) => if c = true ∧ r = an then n else 0
    (∀ hs sa hd ad dn pis pid, moves (.copy t hs sa hd ad dn pis pid) (a.rdDN dn + 2)
      (fun r => on pis sa (a.rdDN dn) r + on pid ad (a.rdDN dn) r)) ∧
    (∀ hd ad dn ss pid, moves (.fill t hd ad dn ss pid) (a.rdDN dn) (fun r => on pid ad (a.rdDN dn) r)) ∧
    (∀ hs sa hd ad sz pis pid,
      let n := match sz with | .b4 => 32 | .b2 => 64 | .b1 => 128
      moves (.trans t hs sa hd ad sz pis pid) (2 * n + 2) (fun r => on pis sa n r + on pid ad n r)) ∧
    (∀ hs vi hd ad es p pid, moves (.gatherE t hs vi hd ad es p pid) 66 (fun r => on pid ad (elemSize es / 2) r)) ∧
    (∀ hs sa hd vi es p pis, moves (.scatterE t hs sa hd vi es p pis) 66 (fun r => on pis sa (elemSize es / 2) r)) ∧
    (∀ hs vi hd ad dn p pid, a.rdDN dn ≤ 4096 →
      moves (.gatherR t hs vi hd ad dn p pid) (64 * a.rdDN dn + 2) (fun r => on pid ad (64 * a.rdDN dn) r)) ∧
    (∀ hs sa hd vi dn p pis, a.rdDN dn ≤ 4096 →
      moves (.scatterR t hs sa hd vi dn p pis) (64 * a.rdDN dn + 2) (fun r => on pis sa (64 * a.rdDN dn) r))

/-- FILL of one unit by an idle tile: each of the unit's 32 words becomes the S register, and no other word changes (03 R88;
04 R111; 05 R131, R143, R149). -/
def Claims.FillOneUnit : Prop :=
  ∀ (s : State) (t : TileId) (h : BitVec 6) (ad dn : BitVec 4) (ss : BitVec 5) (pid : Bool),
    let x := s.tile t.val
    let a := x.arch
    let b := x.seq.beat + 1
    let hd := s.handle t.val h.toNat
    let p := hd.phys (a.rdA ad).v.toNat
    Idle s t.val 1 → x.dmvFree ≤ x.seq.beat → a.rdDN dn = 1 → s.upsets = [] → (a.rdA ad).p = false →
    hd.check p rDMW none = .pass → s.fabWinner t.val b (bankGroup p) [] = none → 1 ≤ s.portsOf t.val b cDMV → hd.col = false →
    s.inspMode t.val h.toNat = .off → s.getB (pgTIL t.val) Reg.BLK_ERR_INJ_ARM = false →
    Completes (.fill t h ad dn ss pid) s (fun u =>
      (∀ k, k < 32 → (u.tile t.val).spd.get (32 * p + k) 0 = storeWord (a.rdS ss).v (a.rdS ss).p false) ∧
      (∀ j, j / 32 ≠ p → (u.tile t.val).spd.get j 0 = x.spd.get j 0))

/-- Data mover: busy time, footprints, and FILL of a unit. -/
def Obligations.DataMover : Prop :=
  Claims.DataMover ∧ Claims.FillOneUnit

/-- Each matrix operation keeps its path busy for the beats of 03 R75 and 04 R114 and moves the A registers of its operands
by their footprints. TCLR clears its rows: entries and checksum 0, CKV set (03 R78). -/
def Claims.MatrixOperations : Prop :=
  ∀ (s : State) (t : TileId),
    let x := s.tile t.val
    let a := x.arch
    let b := x.seq.beat
    let fmt := fun mc => mcField (a.rdMC mc).v .pair
    let dfm := fun mc => mcField (a.rdMC mc).v .dfmt
    let sc := fun (mc : BitVec 3) (n : Nat) (r : BitVec 4) =>
      if mcField (a.rdMC mc).v .scpi = 1 ∧ r.toNat = mcField (a.rdMC mc).v .sca then n else 0
    let on := fun (c : Bool) (an : BitVec 4) (n : Nat) (r : BitVec 4) => if c = true ∧ r = an then n else 0
    let adds := fun (u : State) (inc : BitVec 4 → Nat) =>
      ∀ r, (u.tile t.val).arch.rdA r = ⟨(a.rdA r).v + BitVec.ofNat 32 (inc r), (a.rdA r).p⟩
    (∀ plane h an pi mc, x.weightFree ≤ b →
      let n := (pairWgt (fmt mc)).planeUnits + (pairWgt (fmt mc)).planeScales
      Ready s t.val n → Completes (.mxload t plane h an pi mc) s (fun u =>
        (u.tile t.val).weightFree = b + n + 1 ∧
        adds u (fun r => on pi an (pairWgt (fmt mc)).planeUnits r + sc mc (pairWgt (fmt mc)).planeScales r))) ∧
    (∀ plane chk pi m t0 h an mc, x.entryFree ≤ b + 2 → rowsBeyond t0 m = false →
      let g := pairAct (fmt mc)
      Ready s t.val (streamReads g (m.toNat + 1)) → Completes (.mxstream t plane chk pi m t0 h an mc) s (fun u =>
        (u.tile t.val).entryFree = b + 2 + (m.toNat + 1) * g.rowBeats ∧
        adds u (fun r => on pi an (g.streamUnits (m.toNat + 1)) r + sc mc (g.streamScales (m.toNat + 1)) r))) ∧
    (∀ t0 n, rowsBeyond t0 n = false → Idle s t.val 1 → Completes (.tclr t t0 n) s (fun u =>
      ∀ j, j ≤ n.toNat →
        (∀ c, c < 64 → (u.tile t.val).arch.rdT (t0.toNat + j) c = .zero) ∧
        (u.tile t.val).arch.cksum.get (t0.toNat + j) 0 = 0 ∧ (u.tile t.val).arch.ckvClear.get (t0.toNat + j) false = false)) ∧
    (∀ t0 n h an pi, rowsBeyond t0 n = false → x.rowFree ≤ b → Ready s t.val (9 + 8 * n.toNat) →
      Completes (.tload t t0 n h an pi) s (fun u =>
        (u.tile t.val).rowFree = b + 10 + 8 * n.toNat ∧ adds u (fun r => on pi an (8 * (n.toNat + 1)) r))) ∧
    (∀ t0 n h an pi clr mc, rowsBeyond t0 n = false → x.rowFree ≤ b →
      (isLedger (dfm mc) = true → n.toNat % 2 = 1) →
      Ready s t.val (if dfm mc = 8 then 8 * (n.toNat + 1) + 5 else n.toNat + 6) →
      Completes (.tdrain t t0 n h an pi clr mc) s (fun u =>
        (u.tile t.val).rowFree = b + 2 + n.toNat * drainBeats (dfm mc) ∧
        adds u (fun r => on pi an (drainFoot (dfm mc) (n.toNat + 1)) r + sc mc (if isLedger (dfm mc) then 1 else 0) r)))

/-- At the end of its last beat a plane holds the words its load has read, under the PAIR code it was loaded under; in the
beat of its due contribution a streamed row's products are added into its Tally row, column by column (03 R72, R74; 02
R44). -/
def Claims.MatrixEffects : Prop :=
  (∀ (s : State) (t : TileId) (iss pair : Nat) (plane mp : Bool) (o sc : Opnd) (e z : Map (PV 32)),
    s.tileRuns t.val = true → (s.tile t.val).flight = [.mxload iss plane pair mp o sc e z] →
    (s.tile t.val).seq.beat = flightLast (.mxload iss plane pair mp o sc e z) → (s.tile t.val).seq.beat ≠ s.lastBeat t.val →
    Completes (.weightPlaneComplete t) s (fun u => (u.tile t.val).arch.plane plane = ⟨some pair, mp, e, z⟩)) ∧
  (∀ (s : State) (t : TileId) (iss t0 : Nat) (plane chk : Bool) (o sc : Opnd) (mc : PV 64) (e z : Map (PV 32)) (r : StreamRow),
    let b := iss + 69
    s.tileRuns t.val = true → (s.tile t.val).flight = [.mxstream iss plane chk 1 t0 o sc mc e z [r]] →
    r.entry = iss + 2 → r.opened = false → (s.tile t.val).seq.beat = b → b ≠ s.lastBeat t.val →
    Completes (.tallyRowContribution t) s (fun u =>
      ∀ c k, c < 64 → r.cols[c]? = some k →
        (u.tile t.val).arch.rdT r.row c = (TEnt.contribute ((s.tile t.val).arch.rdT r.row c) k).1))

/-- Matrix engine: path times, footprints, planes and contributions. -/
def Obligations.MatrixEngine : Prop :=
  Claims.MatrixOperations ∧ Claims.MatrixEffects

/-- A vector operation takes its lanes at issue: its result waits in the pipe and is due after the latency of 03 Table 5.
Lanes that the predicate leaves out are not written, and a result is poisoned with its sources (03 R83 to R86; 04 R116 to
R121, R123). What VTR gives where 02 R61 states a bound alone is a free value, log entry 14. -/
def Claims.VectorResults : Prop :=
  ∀ (s : State) (t : TileId), Ready s t.val 0 →
    let x := s.tile t.val
    let a := x.arch
    let b := x.seq.beat
    let starts := fun (c : Instr) (f : Flight) => Completes c s (fun u => ∃ l, (u.tile t.val).flight = l ++ [f])
    let lanes := fun (c : Instr) (lat : Nat) (vd : BitVec 4) (r : List (Nat × Word × PV 32) × AFlags) =>
      starts c (.vres b (b + lat) vd.toNat r.1 r.2)
    let two := fun (f : Word → Word → LaneRes) (va vb : BitVec 4) (p : BitVec 3) => laneOp (a.rdP p) (fun i =>
      (f (a.rdV va i).v (a.rdV vb i).v, (a.rdV va i).p || (a.rdV vb i).p))
    let three := fun (f : Word → Word → Word → LaneRes) (va vb vc : BitVec 4) (p : BitVec 3) => laneOp (a.rdP p) (fun i =>
      (f (a.rdV va i).v (a.rdV vb i).v (a.rdV vc i).v, (a.rdV va i).p || (a.rdV vb i).p || (a.rdV vc i).p))
    let int := fun (f : ViFn) (va vb : BitVec 4) (p : BitVec 3) => two (fun v w => (viLane f v w, 0)) va vb p
    let red := fun (c : Instr) (f : VRed) (vd va : BitVec 4) (p : BitVec 3) =>
      let r := reduceTree f ((List.range 64).map (fun i => if (a.rdP p).v.getLsbD i then (a.rdV va i).v else redIdentity f))
      let bad := (List.range 64).any (fun i => (a.rdP p).v.getLsbD i && (a.rdV va i).p)
      lanes c 7 vd ((laneOp (a.rdP p) (fun _ => ((r.1, 0), bad))).1, r.2)
    (∀ vd va vb p rm, lanes (.vadd t vd va vb p rm) 3 vd (two (vfLane .vadd (vrmRnd rm)) va vb p)) ∧
    (∀ vd va vb p rm, lanes (.vsub t vd va vb p rm) 3 vd (two (vfLane .vsub (vrmRnd rm)) va vb p)) ∧
    (∀ vd va vb p rm, lanes (.vmul t vd va vb p rm) 3 vd (two (vfLane .vmul (vrmRnd rm)) va vb p)) ∧
    (∀ vd va vb vc p rm, lanes (.vfma t vd va vb vc p rm) 3 vd (three (vfmaLane (vrmRnd rm)) va vb vc p)) ∧
    (∀ vd va vb vc p rm, lanes (.vbfma t vd va vb vc p rm) 3 vd (three (vbfmaLane (vrmRnd rm)) va vb vc p)) ∧
    (∀ vd va vb p, lanes (.viadd t vd va vb p) 1 vd (int .viadd va vb p)) ∧
    (∀ vd va vb p, lanes (.visub t vd va vb p) 1 vd (int .visub va vb p)) ∧
    (∀ vd va vb p, lanes (.vand t vd va vb p) 1 vd (int .vand va vb p)) ∧
    (∀ vd va vb p, lanes (.vor t vd va vb p) 1 vd (int .vor va vb p)) ∧
    (∀ vd va vb p, lanes (.vxor t vd va vb p) 1 vd (int .vxor va vb p)) ∧
    (∀ vd va vb p, lanes (.vshl t vd va vb p) 1 vd (int .vshl va vb p)) ∧
    (∀ vd va vb p, lanes (.vshr t vd va vb p) 1 vd (int .vshr va vb p)) ∧
    (∀ vd va vb p, lanes (.vsar t vd va vb p) 1 vd (int .vsar va vb p)) ∧
    (∀ vd va vb p, lanes (.vimin t vd va vb p) 1 vd (int .vimin va vb p)) ∧
    (∀ vd va vb p, lanes (.vimax t vd va vb p) 1 vd (int .vimax va vb p)) ∧
    (∀ vd va vb p, lanes (.vsel t vd va vb p) 1 vd ((List.range 64).map (fun i =>
      let w := if (a.rdP p).v.getLsbD i then a.rdV va i else a.rdV vb i
      (i, BitVec.allOnes 32, ⟨w.v, w.p || (a.rdP p).p⟩)), 0)) ∧
    (∀ pd va vb p cond, Completes (.vcmp t pd va vb p cond) s (fun u => ∃ l m bad g,
      (u.tile t.val).flight = l ++ [.pres b (b + 1) pd.toNat (a.rdP p).v m bad g] ∧
      (∀ i, i < 64 → m.getLsbD i = ((a.rdP p).v.getLsbD i && (vcmpLane cond (a.rdV va i).v (a.rdV vb i).v).1)) ∧
      bad = ((a.rdP p).p || (List.range 64).any (fun i => (a.rdP p).v.getLsbD i && ((a.rdV va i).p || (a.rdV vb i).p))))) ∧
    (∀ vd p sx, lanes (.vbcast t vd p sx) 1 vd (laneOp (a.rdP p) (fun _ => (((a.rdS sx).v, 0), (a.rdS sx).p)))) ∧
    (∀ va lane sx, starts (.vtos t va lane sx) (.sres b (b + 1) sx.toNat (a.rdV va lane.toNat))) ∧
    (∀ vd va p cvt part mc, part.toNat ≤ cvt.maxPart → x.flight = [] →
      lanes (.vcvt t vd va p cvt part mc) 2 vd (vcvtLanes a va (a.rdP p) cvt part.toNat (a.rdMC mc)
        (s.rounding t.val (mcField (a.rdMC mc).v .rm) (mcField (a.rdMC mc).v .stream)))) ∧
    (∀ vd va p fn, lanes (.vtr t vd va p fn) 13 vd (laneOp (a.rdP p) (fun i => (vtrLane fn (a.rdV va i).v, (a.rdV va i).p)))) ∧
    (∀ vd va p, red (.vrsum t vd va p) .vrsum vd va p) ∧ (∀ vd va p, red (.vrmax t vd va p) .vrmax vd va p) ∧
    (∀ vd va p, red (.vrmin t vd va p) .vrmin vd va p) ∧ (∀ vd va p, red (.vrsumi t vd va p) .vrsumi vd va p) ∧
    (∀ vd va p tb, lanes (.vperm t vd va p tb) 2 vd (laneOp (a.rdP p) (fun i =>
      let w := a.rdV va (a.ptab.get (64 * tb.toNat + i) 0).toNat
      ((w.v, 0), w.p || a.ptabPoison.get tb.toNat false)))) ∧
    (∀ vd va vb p, lanes (.vpermv t vd va vb p) 2 vd (laneOp (a.rdP p) (fun i =>
      let w := a.rdV va ((a.rdV vb i).v.toNat % 64)
      ((w.v, 0), w.p || (a.rdV vb i).p))))

/-- In the beat in which its result is due a vector operation writes it: lanes, a predicate, or an S register; nothing else
of the registers changes (03 R84; 04 R123). That a VCMP which writes a part of a predicate keeps its old poison bit is the model's choice,
log entry 92, as is a lane written in part, log entry 42. -/
def Claims.VectorResultWrites : Prop :=
  ∀ (s : State) (t : TileId) (f : Flight) (b : Nat), s.tileRuns t.val = true → (s.tile t.val).flight = [f] →
    (s.tile t.val).seq.beat = b → b ≠ s.lastBeat t.val →
    let a := (s.tile t.val).arch
    let ends := fun (z : Arch) => Completes (.vectorResultWrite t) s (fun u => (u.tile t.val).arch = z ∧ (u.tile t.val).flight = [])
    (∀ iss vd l g, f = .vres iss b vd l g → ends (a.wrLanes vd l)) ∧
    (∀ iss pd m v p g, f = .pres iss b pd.toNat m v p g →
      ends (a.wrP pd ⟨((a.rdP pd).v &&& ~~~m) ||| (v &&& m), p || (m != BitVec.allOnes 64 && (a.rdP pd).p)⟩)) ∧
    (∀ iss sd v, f = .sres iss b sd.toNat v → ends (a.wrS sd v)) ∧
    (∀ iss vd o m mp buf, f = .vld iss vd o m mp buf → b = iss + 2 → ends (a.wrLanes vd ((List.range 64).filterMap (fun i =>
      if m.getLsbD i then some (i, BitVec.allOnes 32, ⟨(buf.get i (.zero 32)).v, (buf.get i (.zero 32)).p || mp⟩) else none)))) ∧
    (∀ iss vd lanes m mp cap res, f = .vdispatch iss vd lanes m mp cap res → b = iss + 5 → ends (a.wrLanes vd res))

/-- Vector operations: lanes, latencies and result writes. -/
def Obligations.VectorResults : Prop :=
  Claims.VectorResults ∧ Claims.VectorResultWrites

/-- Vector loads, stores and permute-table loads move their A register by their footprint, two units or one; VDISPATCH counts
its active lanes in lane order against the capacity and counts what it drops; VDCLR clears the counts (03 R86, R87; 04
R100, R123). -/
def Obligations.VectorMemoryAndDispatch : Prop :=
  ∀ (s : State) (t : TileId),
    let x := s.tile t.val
    let a := x.arch
    let b := x.seq.beat
    let bump := fun (u : State) (an : BitVec 4) (pi : Bool) (n : Word) =>
      (u.tile t.val).arch.rdA an = ⟨(a.rdA an).v + (if pi then n else 0), (a.rdA an).p⟩
    (∀ tb h an pi p, Ready s t.val 2 → Completes (.vptld t tb h an pi p) s (fun u => bump u an pi 1)) ∧
    (∀ vd h an pi p, Ready s t.val 1 → Completes (.vld t vd h an pi p) s (fun u => bump u an pi 2)) ∧
    (∀ vs h an pi p, Ready s t.val 2 → Completes (.vst t vs h an pi p) s (fun u => bump u an pi 2)) ∧
    (∀ vd va p sx, Idle s t.val 1 → (a.rdS sx).p = false →
      let n := if (a.rdS sx).v.toNat % 65536 = 0 then 65536 else (a.rdS sx).v.toNat % 65536
      let r := ((a.lanes va).zipIdx).foldl (fun acc z => dispatchLane n acc z.2 z.1 ((a.rdP p).v.getLsbD z.2) (a.rdP p).p)
        (a.dcnt, 0, [])
      Completes (.vdispatch t vd va p sx) s (fun u =>
        (u.tile t.val).arch = { a with dcnt := r.1 } ∧
        u.getF (pgTIL t.val) Reg.TIL_DISPATCH_DROPS_COUNT =
          (s.getF (pgTIL t.val) Reg.TIL_DISPATCH_DROPS_COUNT + r.2.1) % 2 ^ 32 ∧
        (u.tile t.val).flight = [.vdispatch b vd.toNat (a.lanes va) (a.rdP p).v (a.rdP p).p (a.rdS sx) r.2.2])) ∧
    (Idle s t.val 1 → Completes (.vdclr t) s (fun u => (u.tile t.val).arch = { a with dcnt := [] }))

/-- SCR and CLR port uses: a corrected word is written back, the last step of a repair writes the lost word as the sum of its
rowsum and the other words and counts it, seals staying in Inspector mode; the patrol moves its cursor over a clean unit and counts a
pass, and the clear engine writes a unit as zeros and unseals its sheet (05 R150 to R154, R156; 10 R311). That a clear leaves RV 0,
that a patrol pass waits for the other groups, and the poison of a repaired word are the model's choices (log entry 45). -/
def Claims.ScrubberWork : Prop :=
  ∀ (s : State) (t : TileId),
    let x := s.tile t.val
    let b := s.tileBeat t.val
    let keep := s.inspecting t.val
    let y := fun (u : State) => u.tile t.val
    (∀ n k l d, s.hasUse t.val cSCR = true → x.repairs = .writeBack n k :: l → s.bgBusy t.val b (bankGroup n) = false →
      eccRead (x.spd.get (32 * n + k) 0) = .correctable d →
      Completes (.scrubberPortUse t) s (fun u => (y u).repairs = l ∧
        (y u).spd.get (32 * n + k) 0 = storeWord d false (keep && (x.spd.get (32 * n + k) 0).getLsbD 39) ∧
        ∀ j, j ≠ 32 * n + k → (y u).spd.get j 0 = x.spd.get j 0)) ∧
    (∀ n w h st row sum l, s.hasUse t.val cSCR = true → x.repairs = .rebuild n w h st row sum false :: l → 2 ≤ st → w < 32 →
      s.bgBusy t.val b (bankGroup n) = false →
      let word := fun k => if k = w then
          PV.ok ((List.range 32).foldl (fun (a : Word) j => if j = w then a else a ^^^ (row.get j (.zero 32)).v) sum)
        else row.get k (.zero 32)
      Completes (.scrubberPortUse t) s (fun u => (y u).repairs = l ∧
        Counts s u (pgTIL t.val) Reg.TIL_SPD_REPCNT_COUNT 1 ∧
        (∀ k, k < 32 → (y u).spd.get (32 * n + k) 0 =
          storeWord (word k).v (word k).p (keep && (x.spd.get (32 * n + k) 0).getLsbD 39)) ∧
        ∀ j, j / 32 ≠ n → (y u).spd.get j 0 = x.spd.get j 0)) ∧
    (s.hasUse t.val cSCR = true → x.repairs = [] → x.clear = [] → x.reseal = none → s.unsealedSheets t.val = [] →
      x.patrolNext < 24 →
      let g := x.patrolNext
      let n := bgUnit g (x.patrol.get g 0)
      x.patrol.get g 0 < bgUnits g → s.bgBusy t.val b g = false →
      (∀ k, k < 32 → eccRead (x.spd.get (32 * n + k) 0) = .good) →
      Completes (.scrubberPortUse t) s (fun u => (y u).spd = x.spd ∧ (y u).patrolNext = (g + 1) % 24 ∧
        (x.patrol.get g 0 + 1 < bgUnits g → (y u).patrol.get g 0 = x.patrol.get g 0 + 1) ∧
        (x.patrol.get g 0 + 1 = bgUnits g → (∀ k, k < 24 → k ≠ g → x.patrol.get k 0 = bgUnits k) →
          (y u).patrol = [] ∧ Counts s u (pgTIL t.val) Reg.TIL_SPD_PATROL_PASSES 1))) ∧
    (∀ o lo hi r hs l, s.hasUse t.val cCLR = true → x.clear = ⟨o, (lo, hi) :: r, hs⟩ :: l → lo < hi →
      s.bgBusy t.val b (bankGroup lo) = false →
      Completes (.clearPortUse t) s (fun u =>
        (∀ k, k < 32 → (y u).spd.get (32 * lo + k) 0 = 0) ∧ (∀ j, j / 32 ≠ lo → (y u).spd.get j 0 = x.spd.get j 0) ∧
        (y u).rv.get (sheetOf lo) false = false ∧
        ((∀ z ∈ r ++ l.flatMap (·.ranges), lo < z.1 ∨ z.2 ≤ lo) → (y u).clearLeft + 1 = x.clearLeft)))

/-- A port use of the scrubber or of the clear engine touches only its tile's scratchpad and its page: registers of the tile,
its sequencer, its operations in flight, other tiles and the rest of the part stay (05 R145, R154). -/
def Claims.ScrubberFrame : Prop :=
  ∀ (s u : State) (t : TileId) (c : Instr), (c = .scrubberPortUse t ∨ c = .clearPortUse t) → exec c s = .next u →
    u = { s with regs := u.regs, tiles := u.tiles, incidents := u.incidents } ∧
    (∀ t', t' ≠ t.val → u.tile t' = s.tile t') ∧
    (∀ pg f, pg ≠ pgTIL t.val → f.off < 0x10000 → f.lo < 32 → u.getF pg f = s.getF pg f) ∧
    (u.tile t.val).arch = (s.tile t.val).arch ∧ (u.tile t.val).seq = (s.tile t.val).seq ∧
    (u.tile t.val).flight = (s.tile t.val).flight ∧ (u.tile t.val).wheel = (s.tile t.val).wheel

/-- Scrubber and clear engine: work and frame. -/
def Obligations.Scrubber : Prop :=
  Claims.ScrubberWork ∧ Claims.ScrubberFrame

/-- A valid change-list entry that starts later than every earlier one in effect makes its wheel the one in force from its
start, and any other is ignored; CLOSED clears on the handles a tenant's clear closed when its units are all cleared, and an upset
inverts the bits it names, stays until the control word is used, or in a shared structure is reported at once (05 R141, R150, R156;
10 R289, R290). The model's choices: that an upset of a control word stays until the word is used (log entry 19), and when one of a
shared structure is found (log entry 99). -/
def Obligations.TileEvents : Prop :=
  ∀ (s : State) (t : TileId),
    let pg := pgTIL t.val
    let x := s.tile t.val
    (∀ i : Fin 16,
      let st := s.getF pg (Reg.TIL_WSEQ_START8.at i.val)
      let w := s.getF pg (Reg.TIL_WSEQ_WHEEL.at i.val)
      (s.wheelTakes t.val i.val = true ↔ s.getB pg (Reg.TIL_WSEQ_VALID.at i.val) = true ∧ ∀ j : Fin 16, j < i →
        s.wheelTakes t.val j.val = true → s.getF pg (Reg.TIL_WSEQ_START8.at j.val) < st) ∧
      (s.wheelTakes t.val i.val = true → s.wheelAt t.val (8 * st) = w ∧
        ((∀ z, x.wheelStart = some z → z < st) → 8 * st ≤ x.seq.beat → Completes (.slotWheelChange t i) s (fun u =>
          (u.tile t.val).wheel = w ∧ (u.tile t.val).wheelStart = some st ∧ (u.tile t.val).arch = x.arch))) ∧
      (s.wheelTakes t.val i.val = false → Completes (.slotWheelChange t i) s (fun u => u = s))) ∧
    (∀ (n : TenantId) hs, x.clear.find? (fun j => j.tenant == some n.val) = some ⟨some n.val, [], hs⟩ →
      Completes (.tenantClearComplete t n) s (fun u =>
        (∀ h ∈ hs, u.getF pg (Reg.TIL_HND_CLOSED.at h) = 0) ∧
        ((∀ h ∈ hs, h < 64) → ∀ h, h < 64 → h ∉ hs →
          u.getF pg (Reg.TIL_HND_CLOSED.at h) = s.getF pg (Reg.TIL_HND_CLOSED.at h)) ∧
        (∀ j ∈ (u.tile t.val).clear, j.tenant ≠ some n.val) ∧ (u.tile t.val).spd = x.spd)) ∧
    (∀ unit word mask, unit.toNat < spdUnits →
      let key := 32 * unit.toNat + word.toNat
      Completes (.storedBitUpset (.word t unit word mask)) s (fun u =>
        (u.tile t.val).spd.get key 0 = x.spd.get key 0 ^^^ mask ∧
        ∀ j, j ≠ key → (u.tile t.val).spd.get j 0 = x.spd.get j 0)) ∧
    (∀ h word mask, Completes (.storedBitUpset (.handle t h word mask)) s (fun u =>
      u = { s with upsets := s.upsets ++ [.handle t h word mask] })) ∧
    (∀ k, Completes (.storedBitUpset (.shared k)) s (fun u => Reports s u 0x2006 (sharedPage k)))

/-- A parcel of a PUT, GETQ or TALLY run departs in its slot with the header of 06 R171 and the words its units read, cut
to LEN; a poisoned one is counted (06 R170, R171; 07 R212). -/
def Claims.SourceDeparture : Prop :=
  ∀ (s : State) (p : PartId) (l : PortId) (e : BitVec 15) (i : BitVec 12) (en : TtEntry) (x : Nat),
    let slot := slotOf (s.sds x) en.start i.toNat
    let h := ttHeader s p.val en i.toNat slot en.kind 1 false
    let r := (s.readParcel p.val en x slot (en.off + 4 * i.toNat) h.len).1
    Departs s p.val l.val e.toNat i.toNat en x → LinkTakes s p.val x slot → en.kind ∈ [ttPUT, ttGETQ, ttTALLY] →
    en.manifest = false → s.tileInReset en.tile = false →
    Completes (.timetableDeparture p l e i) s (fun u => ∃ f, SentParcel s u x f ∧
      f.hdr = { h with poison := r.any (·.p), seq := (s.link x).sNext } ∧ f.data = cutWords h.len (r.map (·.v)) ∧
      (r.any (·.p) = true → Counts s u pgICH Reg.ICH_POISONOUT_COUNT 1))

/-- A departure whose slot its partition does not lease, that lies past the round's end, or that an earlier entry has, is
suppressed: it is counted, flagged and reported, and nothing leaves (06 R169). -/
def Claims.SuppressedDeparture : Prop :=
  ∀ (s : State) (p : PartId) (l : PortId) (e : BitVec 15) (i : BitVec 12) (en : TtEntry) (x : Nat),
    s.upsets = [] → (s.liveTt p.val l.val).find? (fun z => z.1 == e.toNat) = some (e.toNat, en) →
    s.physOf p.val (s.gen p.val) l.val = some x → i.toNat < en.run → s.ttActive p.val en = true →
    en.kind ∈ [ttPUT, ttGETQ, ttTALLY] →
    let w := s.slotFate p.val l.val x e.toNat (slotOf (s.sds x) en.start i.toNat)
    w ≠ .departs →
    Completes (.timetableDeparture p l e i) s (fun u =>
      Counts s u pgICH Reg.ICH_SUPPRESS_COUNT 1 ∧ u.sent = s.sent ∧ u.links = s.links ∧
      (w = .unleased → u.getF pgICH Reg.ICH_STAT_UNLEASED = 1 ∧ Reports s u 0x2003 pgICH) ∧
      (w = .pastEnd → u.getF pgICH Reg.ICH_STAT_PASTEND = 1 ∧ Reports s u 0x2004 pgICH) ∧
      (w = .conflict → u.getF pgICH Reg.ICH_STAT_SLOTCONF = 1 ∧ Reports s u 0x2005 pgICH))

/-- Timetable departures and suppressed ones. -/
def Obligations.Departures : Prop :=
  Claims.SourceDeparture ∧ Claims.SuppressedDeparture

/-- A GETR parcel sends the units that the word of its request cell names; a word of ones sends zeros, and a cell that is not
FULL a poisoned parcel of zeros. The cell empties with its last reader (06 R183). -/
def Claims.GetrDeparture : Prop :=
  ∀ (s : State) (p : PartId) (l : PortId) (e : BitVec 15) (i : BitVec 12) (en : TtEntry) (x : Nat),
    let slot := slotOf (s.sds x) en.start i.toNat
    let h := ttHeader s p.val en i.toNat slot ttGETR 1 false
    let b := slotBeats x * slot
    let c := en.cellR + i.toNat / 128
    let s1 := s.atLeast (s.beatNt p.val (b - 9))
    let later := (s1.cellReaders p.val c).any (fun z => decide (b < z.1) || (z.1 == b && decide (x < z.2)))
    let s2 := if later then s1 else s1.setCell c .reset
    let sends := fun (u : State) (poison : Bool) (d : List Word) => ∃ f, SentParcel s u x f ∧
      f.hdr = { h with poison := poison, seq := (s.link x).sNext } ∧ f.data = d
    Departs s p.val l.val e.toNat i.toNat en x → LinkTakes s p.val x slot → en.kind = ttGETR → s.tileInReset en.tile = false →
    (∀ g, s.cell c = ⟨.full, some g⟩ →
      let w := if 4 * (i.toNat % 128) < g.hdr.len then g.data.getD (i.toNat % 128) 0 else 0xFFFFFFFF
      let r := (s2.readParcel p.val en x slot w.toNat h.len).1
      Completes (.getrDeparture p l e i) s (fun u => u.cell c = (if later then s.cell c else .reset) ∧
        if w = 0xFFFFFFFF then sends u false (List.replicate 128 0)
        else sends u (r.any (·.p)) (cutWords h.len (r.map (·.v))))) ∧
    ((s.cell c).st ≠ .full → Completes (.getrDeparture p l e i) s (fun u =>
      u.cell c = (if later then s.cell c else .reset) ∧ sends u true (List.replicate 128 0)))

/-- An FWD parcel is the stored one with its header rewritten, when the cell is FULL and the header fits; else the poisoned
substitute. What lies beyond the LEN leaves as 0 (07 R208), and the cell becomes EMPTY (06 R181). -/
def Claims.FwdDeparture : Prop :=
  ∀ (s : State) (p : PartId) (l : PortId) (e : BitVec 15) (i : BitVec 12) (en : TtEntry) (x : Nat),
    let slot := slotOf (s.sds x) en.start i.toNat
    let c := en.cellF + i.toNat
    let fits := fun (g : Frame) => g.hdr.dst = en.dst ∧ g.hdr.postcode = en.postcode ∧ g.hdr.kind = en.fkind ∧
      g.hdr.hops / 16 = en.hops ∧ g.hdr.hops % 16 + 1 = en.fhop
    Departs s p.val l.val e.toNat i.toNat en x → LinkTakes s p.val x slot → en.kind = ttFWD →
    (∀ g, s.cell c = ⟨.full, some g⟩ → fits g → Completes (.fwdDeparture p l e i) s (fun u => ∃ f, SentParcel s u x f ∧
      u.cell c = .reset ∧ f.data = cutWords g.hdr.len g.data ∧
      f.hdr = { g.hdr with slot := slot, round := s.round p.val, gen := s.gen p.val == 1, offset := i.toNat, fwded := true,
                           retry := false, hops := 16 * en.hops + en.fhop, seq := (s.link x).sNext })) ∧
    ((∀ g, s.cell c = ⟨.full, some g⟩ → ¬ fits g) → Completes (.fwdDeparture p l e i) s (fun u => ∃ f, SentParcel s u x f ∧
      u.cell c = .reset ∧ f.data = List.replicate 128 0 ∧
      f.hdr = { ttHeader s p.val en i.toNat slot en.fkind en.fhop true with poison := true, seq := (s.link x).sNext }))

/-- GETR and FWD departures from cells. -/
def Obligations.CellDepartures : Prop :=
  Claims.GetrDeparture ∧ Claims.FwdDeparture

/-- A good parcel in time that its landing expects is accepted, what lies beyond its LEN left out: it waits for its due beat, and a
PARK or REQ parcel fills its empty cell (06 R174, R175, R180; 07 R208, R212). -/
def Claims.ParcelAccepted : Prop :=
  ∀ (s : State) (port : PortId) (bytes : List Byte) (p lp e : Nat) (en : LdEntry) (i : Nat),
    let x := port.val
    let f := Frame.parse bytes
    let g := { f with data := cutWords f.hdr.len f.data }
    Arrives s x bytes p lp → landingsOf s p x lp f.hdr = [(e, en, i)] → Lands s p x en i f.hdr →
    (en.action ≤ 1 → s.tileInReset en.tile = false) →
    Completes (.scheduledParcelReceive port bytes false) s (fun u =>
      u.ich.staged = s.ich.staged ++ [⟨p, s.gen p, lp, e, i, s.nt, g⟩] ∧ (u.link x).sHigh = some f.hdr.seq ∧
      ((en.action = ldPARK ∨ en.action = ldREQ) → s.cell (en.cell + i) = .reset →
        u.cell (en.cell + i) = if f.hdr.poison then ⟨.bad, none⟩ else ⟨.full, some g⟩))

/-- Arrival faults (06 Table 5): no entry, a field that disagrees, another postcode, a parcel that is late, and a repeated
SEQ. The parcel is discarded, counted and flagged, and a destination it had is marked. -/
def Claims.ArrivalFaults : Prop :=
  ∀ (s : State) (port : PortId) (bytes : List Byte) (p lp : Nat),
    let x := port.val
    let f := Frame.parse bytes
    let ends := fun (P : State → Prop) =>
      Completes (.scheduledParcelReceive port bytes false) s (fun u => u.ich.staged = s.ich.staged ∧ P u)
    (Arrives s x bytes p lp → landingsOf s p x lp f.hdr = [] → ends (fun u =>
      Counts s u pgICH Reg.ICH_LANDMISS_COUNT 1 ∧ u.getF pgICH Reg.ICH_STAT_LANDMISS = 1 ∧ Reports s u 0x1010 pgICH)) ∧
    (∀ e en i, Arrives s x bytes p lp → landingsOf s p x lp f.hdr = [(e, en, i)] →
      (en.action ≤ 1 → s.tileInReset en.tile = false) →
      ((f.hdr.round ≠ s.round p ∨ s.beatNt p (en.deadline i) ≤ s.nt) → ends (fun u =>
        Counts s u pgICH Reg.ICH_LATE_COUNT 1 ∧ u.incidents = s.incidents)) ∧
      (f.hdr.round = s.round p → s.nt < s.beatNt p (en.deadline i) → f.hdr.postcode ≠ en.postcode → ends (fun u =>
        Counts s u pgICH Reg.ICH_DEADLETTER_COUNT 1 ∧ u.getF pgICH Reg.ICH_STAT_DEADLETTER = 1 ∧
        Reports s u 0x1011 pgICH ∧ u.ich.faulted = (p, lp, e, i) :: s.ich.faulted)) ∧
      (f.hdr.round = s.round p → s.nt < s.beatNt p (en.deadline i) → f.hdr.postcode = en.postcode →
        (f.hdr.kind ≠ en.pkind ∨ f.hdr.hops % 16 ≠ en.hopsSeen ∨ f.hdr.offset ≠ i) → ends (fun u =>
        Counts s u pgICH Reg.ICH_LANDMISS_COUNT 1 ∧ Reports s u 0x1010 pgICH ∧
        u.ich.faulted = (p, lp, e, i) :: s.ich.faulted))) ∧
    (GoodFrame s x bytes → f.hdr.cls = 0 → f.hdr.schedValid bytes.length false = true →
      s.getL x Reg.ICL_EXR_CTL_MODE = 0 → f.hdr.seq ∈ (s.link x).sGot → ends (fun u =>
        CountsL s u x Reg.ICL_DUP_COUNT 1 ∧ u.incidents = s.incidents))

/-- Scheduled arrivals: accepted, and the arrival faults. -/
def Obligations.Arrivals : Prop :=
  Claims.ParcelAccepted ∧ Claims.ArrivalFaults

/-- At its due beat a WRITE landing of one unit writes the parcel's words, poisoned as the parcel is, and no other word of
the tile; the parcel leaves staging (06 R175). -/
def Claims.LandingWrite : Prop :=
  ∀ (s : State) (p : PartId) (l : PortId) (e : BitVec 15) (i : BitVec 12) (en : LdEntry) (z : Staged),
    let g := s.gen p.val
    let b := en.dueOf i.toNat
    let mine := fun (k : Staged) => k.part == p.val && k.bank == g && k.port == l.val && k.entry == e.toNat && k.i == i.toNat
    let n := en.off + 4 * i.toNat
    let hd := s.handle en.tile en.handle
    let x := s.tile en.tile
    s.upsets = [] → (s.liveLd p.val l.val g).find? (fun q => q.1 == e.toNat) = some (e.toNat, en) →
    s.prtState p.val = prtRUNNING → i.toNat < en.run → ((s.part p.val).decision = true ∨ en.mark = true) →
    en.action = ldWRITE → (p.val, l.val, e.toNat, i.toNat) ∉ s.ich.faulted → s.ich.staged.find? mine = some z →
    z.frame.hdr.len = 128 → 32 ≤ z.frame.data.length →
    FabricPasses s ⟨(s.physOf p.val g l.val).getD l.val, b, en.tile, en.handle, n, cFAR, true, none⟩ b →
    s.inspMode en.tile en.handle = .off → Calm s (pgTIL en.tile) →
    Completes (.landingDueBeat p l e i) s (fun u =>
      s.beatNt p.val b ≤ u.nt ∧ u.ich.staged = s.ich.staged.filter (fun k => !mine k) ∧
      (∀ k, k < 32 → (u.tile en.tile).spd.get (wordKey hd.col (hd.phys n) k) 0 =
        storeWord (z.frame.data.getD k 0) z.frame.hdr.poison false) ∧
      (∀ j, (∀ k, k < 32 → j ≠ wordKey hd.col (hd.phys n) k) → (u.tile en.tile).spd.get j 0 = x.spd.get j 0) ∧
      (∀ t, t ≠ en.tile → u.tile t = s.tile t))

/-- An ADD landing of one unit adds the parcel's eight entries to the eight it reads, two beats later; a PARK, MERGE or REQ
cell that no good parcel reached is BAD at its due beat, counted, flagged and reported (06 R175, R176, R180, R184). -/
def Claims.LandingAddAndMiss : Prop :=
  ∀ (s : State) (p : PartId) (l : PortId) (e : BitVec 15) (i : BitVec 12) (en : LdEntry),
    let g := s.gen p.val
    let b := en.dueOf i.toNat
    let mine := fun (k : Staged) => k.part == p.val && k.bank == g && k.port == l.val && k.entry == e.toNat && k.i == i.toNat
    let n := en.off + 4 * i.toNat
    let hd := s.handle en.tile en.handle
    let key := wordKey hd.col (hd.phys n)
    let acc := fun write =>
      (⟨(s.physOf p.val g l.val).getD l.val, b, en.tile, en.handle, n, cFAR, write, none⟩ : FabAcc)
    let sum := fun (z : Staged) (w : List Word) (k : Nat) => (addEntries w z.frame.data (fun _ => false) 8).1.getD k (.zero 32)
    let due := fun (P : State → Prop) =>
      s.upsets = [] → (s.liveLd p.val l.val g).find? (fun q => q.1 == e.toNat) = some (e.toNat, en) →
      s.prtState p.val = prtRUNNING → i.toNat < en.run → ((s.part p.val).decision = true ∨ en.mark = true) →
      (p.val, l.val, e.toNat, i.toNat) ∉ s.ich.faulted → Completes (.landingDueBeat p l e i) s P
    (∀ (z : Staged) (w : List Word), en.action = ldADD → s.ich.staged.find? mine = some z →
      z.frame.hdr.len = 128 → 32 ≤ z.frame.data.length → z.frame.hdr.poison = false → w.length = 32 →
      FabricPasses s (acc false) b → FabricPasses s (acc true) (b + 2) →
      s.inspMode en.tile en.handle = .off → Calm s (pgTIL en.tile) →
      (∀ k, k < 32 → (s.tile en.tile).spd.get (key k) 0 = storeWord (w.getD k 0) false false) →
      due (fun u => s.beatNt p.val (b + 2) ≤ u.nt ∧
        (∀ k, k < 32 → (u.tile en.tile).spd.get (key k) 0 =
          storeWord (sum z w k).v (sum z w k).p false) ∧
        (∀ j, (∀ k, k < 32 → j ≠ key k) → (u.tile en.tile).spd.get j 0 = (s.tile en.tile).spd.get j 0))) ∧
    (1 < en.action → s.ich.staged.find? mine = none → due (fun u =>
      u.cell (en.cell + i.toNat) = ⟨.bad, none⟩ ∧ Counts s u pgICH Reg.ICH_LATE_COUNT 1 ∧
      u.getF pgICH Reg.ICH_STAT_LATE = 1 ∧ Reports s u 0x1013 pgICH))

/-- Landings at their due beat: WRITE, ADD and missed cells. -/
def Obligations.Landings : Prop :=
  Claims.LandingWrite ∧ Claims.LandingAddAndMiss

/-- DRAINING clears at the swap NT + ICH_DRAIN_NS, and a pending replay departs with RETRY set, in its slot, counted
(06 R190; 07 R215 to R217). -/
def Obligations.DrainAndReplay : Prop :=
  ∀ (s : State),
    (∀ (p : PartId) t, s.getB pgICH (Reg.ICH_SWAP_DRAINING.at p.val) = true → (s.part p.val).swapNt = some t →
      Completes (.generationDrainEnd p) s (fun u => u.getF pgICH (Reg.ICH_SWAP_DRAINING.at p.val) = 0 ∧
        t + s.getF pgICH Reg.ICH_DRAIN_NS_NS * nsUnit ≤ u.nt ∧ u.gen p.val = s.gen p.val)) ∧
    (∀ (port : PortId) (slot : BitVec 24) q f,
      let x := port.val
      let start := s.replayStart x slot.toNat (f.hdr.postcode / 2 ^ 14)
      (s.link x).pend.find? (s.replayFits x slot.toNat) = some q → s.replayOf x q = some f → Calm s (linkPage x) →
      Completes (.replayDeparture port slot) s (fun u =>
        CountsL s u x Reg.ICL_RPLTX_COUNT 1 ∧ (u.link x).pend = (s.link x).pend.filter (fun k => k != q) ∧
        (u.link x).taken = start :: (s.link x).taken ∧ (u.link x).sBuf = (s.link x).sBuf ∧ start ≤ u.nt ∧
        u.sent = s.sent ++ [.wire x ({ f with hdr := { f.hdr with retry := true } } : Frame).wire false]))

/-- ACK frees the replay buffer of its class up to NEXT; a NAK makes a held parcel a pending replay, or is counted stale, and
an unscheduled NAK replays every packet from its SEQ; in CAL and HOLD a NAK of the trial parcel sends it again; CREDIT adopts a LIMIT
that lies ahead; EXR changes nothing (07 R210 to R214, R218, R221, R227, R229). That a link in HOLD sends its trial again is the
model's choice (log entry 55). -/
def Claims.ControlSymbols : Prop :=
  ∀ (s : State) (port : PortId) (sym : BitVec 128),
    let x := port.val
    let l := s.link x
    let seq := symField sym 2 3
    let held := fun (q : Nat) => decide (seqDiff q seq < 32768)
    (GoodSym s x sym 1 → s.carriesFrames x = true → Completes (.ack port sym false) s (fun u =>
      (symLow sym = 8 → (u.link x).uBuf = l.uBuf.filter (fun f => held f.hdr.seq) ∧ (u.link x).sBuf = l.sBuf ∧
        (u.link x).uBack = l.uBack.filter (fun f => held f.hdr.seq)) ∧
      (symLow sym ≠ 8 → (u.link x).sBuf = l.sBuf.filter (fun f => held f.hdr.seq) ∧ (u.link x).uBuf = l.uBuf ∧
        (u.link x).pend = l.pend.filter (fun q => held q.seq)))) ∧
    (∀ f, GoodSym s x sym 2 → (s.linkState x = lnkCAL ∨ s.linkState x = lnkHOLD) → symLow sym ≠ 8 → Calm s (linkPage x) →
      l.calSent = some f → f.hdr.seq = seq → Completes (.nak port sym false) s (fun u =>
        CountsL s u x Reg.ICL_RPLTX_COUNT 1 ∧ s.ltb + beatsNt s.gear 8 ≤ u.ltb ∧
        u.sent = s.sent ++ [.wire x ({ f with hdr := { f.hdr with retry := true } } : Frame).wire false])) ∧
    (GoodSym s x sym 2 → s.linkState x = lnkUP → symLow sym ≠ 8 → symField sym 4 5 = 0 →
      (∀ f, 32768 ≤ seqDiff seq l.sNext → l.sBuf.find? (fun f => f.hdr.seq == seq) = some f → (∀ q ∈ l.pend, q.seq ≠ seq) →
        Completes (.nak port sym false) s (fun u => CountsL s u x Reg.ICL_NAKRX_COUNT 1 ∧
          (u.link x).pend = l.pend ++
            [⟨seq, if s.exercises x then s.exrBeat else s.partBeat (f.hdr.postcode / 2 ^ 14)⟩])) ∧
      (32768 ≤ seqDiff seq l.sNext → (∀ f ∈ l.sBuf, f.hdr.seq ≠ seq) →
        Completes (.nak port sym false) s (fun u => CountsL s u x Reg.ICL_NAKSTALE_COUNT 1 ∧
          u.getL x Reg.ICL_ERR_NAKSTALE = 1 ∧ (u.link x).pend = l.pend)) ∧
      (seqDiff seq l.sNext < 32768 → Completes (.nak port sym false) s (fun u =>
        CountsL s u x Reg.ICL_NAKRX_COUNT 1 ∧ (u.link x).pend = l.pend ∧
        u.getL x Reg.ICL_NAKSTALE_COUNT = s.getL x Reg.ICL_NAKSTALE_COUNT))) ∧
    (GoodSym s x sym 2 → s.carriesFrames x = true → symLow sym = 8 → 32768 ≤ seqDiff seq l.uNext →
      (∃ f ∈ l.uBuf, f.hdr.seq = seq) → Completes (.nak port sym false) s (fun u =>
        (u.link x).uBack = l.uBuf.dropWhile (fun f => f.hdr.seq != seq))) ∧
    (GoodSym s x sym 3 → s.carriesFrames x = true →
      let v := symLow sym
      let limit := symField sym 2 5
      Completes (.credit port sym false) s (fun u =>
        (u.link x).peer.get v 0 = (if (limit + 2 ^ 32 - l.peer.get v 0) % 2 ^ 32 < 2 ^ 31 then limit else l.peer.get v 0) ∧
        ∀ w, w ≠ v → (u.link x).peer.get w 0 = l.peer.get w 0)) ∧
    (GoodSym s x sym 8 → Completes (.exr port sym false) s (fun u => u = s.modLink x (fun l => { l with lastGood := s.nt })))

/-- TRAIN symbols tell the peer's identity, which enters the ledger; calibration reports keep the largest measurement of
each kind, and each trial that ends starts the next until 1,024 are complete (07 R222, R227; the steps of a report are the model's
choice, log entry 22, and so is what a link in HOLD takes, log entry 55). -/
def Claims.TrainingSymbols : Prop :=
  ∀ (s : State) (port : PortId) (sym : BitVec 128),
    let x := port.val
    let l := s.link x
    (GoodSym s x sym 5 → (s.linkState x = lnkTRAIN ∨ s.linkState x = lnkHOLD) → Completes (.train port sym false) s (fun u =>
      u.getL x Reg.ICL_LEDGER0_PEER_CHIP = symField sym 2 3 ∧ u.getL x Reg.ICL_LEDGER0_PEER_PORT = symByte sym 4 ∧
      (u.link x).train = some ⟨symField sym 2 3, symByte sym 4, symLow sym, symByte sym 5 == 1, symField sym 6 7⟩)) ∧
    (GoodSym s x sym 6 → (s.linkState x = lnkCAL ∨ s.linkState x = lnkHOLD) → Completes (.cal port sym false) s (fun u =>
      (∀ t, symLow sym = 1 → l.calT3 = some t → (u.link x).latMax = max l.latMax (((t - l.calT0) / 2 ^ 32 - symField sym 2 9) / 2) ∧
        (u.link x).latTrials = l.latTrials + 1 ∧ (u.link x).rplMax = l.rplMax ∧ (u.link x).calT3 = none) ∧
      (symLow sym = 2 → (u.link x).rplMax = max l.rplMax (symField sym 2 9) ∧
        (u.link x).rplTrials = l.rplTrials + 1 ∧ (u.link x).latMax = l.latMax ∧
        (1024 ≤ l.rplTrials + 1 → (u.link x).calSent = none) ∧
        (l.rplTrials + 1 < 1024 → (u.link x).calT3 = none ∧ ∃ f, (u.link x).calSent = some f ∧ f.hdr.kind = 0))))

/-- Control symbols of a link. -/
def Obligations.LinkSymbols : Prop :=
  Claims.ControlSymbols ∧ Claims.TrainingSymbols

/-- A link in UP declares loss, with the cause of 07 Table 12, when it receives HOLD, loses signal, FEC lock or a
wavelength, is silent for ICL_LOSS_NS, or is asked to hold; code 0x3001 is raised (07 R203, R223, R225, R226). -/
def Claims.LinkLoss : Prop :=
  ∀ (s : State) (port : PortId),
    let x := port.val
    let lost := fun (cause : Nat) (u : State) => LinkLost s u x cause ∧ Reports s u 0x3001 (linkPage x)
    s.linkState x = lnkUP →
    (∀ sym, GoodSym s x sym 7 → Completes (.hold port sym false) s (lost 4)) ∧
    Completes (.signalLoss port) s (lost 1) ∧
    Completes (.fecLockLoss port) s (lost 2) ∧
    Completes (.linkSilenceTimeout port) s (fun u => lost 3 u ∧
      (s.link x).lastGood + max 1000 (min 50000 (s.getL x Reg.ICL_LOSS_NS_NS)) * nsUnit ≤ u.nt) ∧
    Completes (.holdreq port) s (lost 7) ∧
    (∀ (tp lane : Fin 8) k, k < 4 → x = 15 + 4 * tp.val + k →
      Completes (.laserInputLoss tp lane) s (fun u => LinkLost s u x 5))

/-- The timers of a link, and the pool: an ACK 500 ns after the last one of its class, every LIMIT again, and a served
packet's units freed (07 R213, R221). -/
def Claims.LinkTimers : Prop :=
  ∀ (s : State) (port : PortId),
    let x := port.val
    let l := s.link x
    (s.carriesFrames x = true → Calm s (linkPage x) → 0 < l.ackS → Completes (.ackTimerExpiry port false) s (fun u =>
      (u.link x).ackS = 0 ∧ (u.link x).ackSNt = u.nt ∧ l.ackSNt + 500 * nsUnit ≤ u.nt ∧
      u.sent = s.sent ++ [.wire x (symWire 1 0 (beBytes l.sExp 2)) false])) ∧
    (s.carriesFrames x = true → Calm s (linkPage x) → 0 < l.ackU → Completes (.ackTimerExpiry port true) s (fun u =>
      (u.link x).ackU = 0 ∧ (u.link x).ackUNt = u.nt ∧ l.ackUNt + 500 * nsUnit ≤ u.nt ∧
      u.sent = s.sent ++ [.wire x (symWire 1 8 (beBytes l.uExp 2)) false])) ∧
    (s.carriesFrames x = true → Calm s (linkPage x) → Completes (.creditRefreshExpiry port) s (fun u =>
      u.links = s.links ∧
      u.sent = s.sent ++ [0, 1, 2, 3].map (fun v => .wire x (symWire 3 v (beBytes (l.lim.get v 0) 4)) false))) ∧
    (∀ k, l.pool.find? (·.done) = some k → Completes (.receivePoolFree port) s (fun u =>
      (u.link x).pool = l.pool.filter (fun z => z.id != k.id) ∧ (u.link x).buf.get k.vc 0 = l.buf.get k.vc 0 - k.units ∧
      (u.link x).rcv = l.rcv))

/-- A frame that is not whole, carries a bad flit or fails its CRC is counted, and nothing of it is taken. The link asks for the lowest
scheduled SEQ not yet received up to H + 1, with the missing ones after it in the mask, for H + 1 too where that mask does not reach it,
and for the next unscheduled SEQ unless it did so less than 2 µs ago; each NAK is counted (07 R206, R211, R218, R433). -/
def Claims.FailedFrames : Prop :=
  ∀ (s : State) (port : PortId) (bytes : List Byte) (bad : Bool),
    let x := port.val
    let l := s.link x
    let next := (match l.sHigh with | none => 0 | some h => (h + 1) % 65536)
    let revealed := l.missing ++ [next]
    let q := revealed.headD next
    let nak := fun (low seq mask : Nat) => Out.wire x (symWire 2 low (beBytes seq 2 ++ beBytes mask 2)) false
    let naks := [nak 0 q (nakMask q revealed)] ++ (if 16 < seqDiff next q then [nak 0 next 0] else []) ++
      (if (∃ t, l.nakNt = some t ∧ s.nt < t + 2000 * nsUnit) then [] else [nak 8 l.uExp 0])
    let keeps := fun (u : State) => CountsL s u x Reg.ICL_CRCERR_COUNT 1 ∧ u.getL x Reg.ICL_ERR_CRCERR = 1 ∧
      u.ich = s.ich ∧ (u.link x).pool = l.pool ∧ (u.link x).sHigh = l.sHigh ∧ (u.link x).uExp = l.uExp ∧
      (Calm s (linkPage x) → ¬ (s.getL x Reg.ICL_EXR_CTL_MODE = 3 ∧ s.getL x Reg.ICL_EXR_CTL_INJ = 4) →
        u.sent = s.sent ++ naks ∧ CountsL s u x Reg.ICL_NAKTX_COUNT naks.length)
    s.linkState x = lnkUP → l.framing = false →
    (bad = true ∨ bytes.length < frameLen bytes ∨ bytes.length < 32 ∨ crcHolds (bytes.take (frameLen bytes)) = false) →
    Completes (.scheduledParcelReceive port bytes bad) s keeps ∧
    Completes (.unscheduledPacketReceive port bytes bad) s keeps

/-- Link loss, link timers and failed frames. -/
def Obligations.LinkLossAndTimers : Prop :=
  Claims.LinkLoss ∧ Claims.LinkTimers ∧ Claims.FailedFrames

/-- In a gap, free of departures, a port sends an unscheduled replay first, else the first packet of the VC whose turn it is; the packet takes the
next unscheduled SEQ and its credit (07 R218, R220, R221). -/
def Claims.UnscheduledSend : Prop :=
  ∀ (s : State) (port : PortId) (gap : BitVec 12),
    let x := port.val
    let l := s.link x
    s.carriesFrames x = true → Calm s (linkPage x) →
    (∀ f r, l.uBack = f :: r → f.flits ≤ gap.toNat → s.flitsFree x f.flits = true → Completes (.unscheduledPacketSend port gap) s (fun u =>
      CountsL s u x Reg.ICL_RPLTX_COUNT 1 ∧ (u.link x).uBack = r ∧ (u.link x).uBuf = l.uBuf ∧ (u.link x).queue = l.queue ∧
      u.sent = s.sent ++ [.wire x ({ f with hdr := { f.hdr with retry := true } } : Frame).wire false])) ∧
    (∀ q, l.uBack = [] → s.nextPacket x gap.toNat = some q → Completes (.unscheduledPacketSend port gap) s (fun u =>
      let f : Frame := { q.frame with hdr := { q.frame.hdr with seq := l.uNext } }
      (u.link x).uNext = (l.uNext + 1) % 65536 ∧ (u.link x).uBuf = l.uBuf ++ [f] ∧ (u.link x).queue = l.queue.erase q ∧
      (u.link x).sent.get f.hdr.vc 0 = (l.sent.get f.hdr.vc 0 + f.units) % 2 ^ 32 ∧
      u.sent = s.sent ++ [.wire x f.wire false]))

/-- A good unscheduled packet takes its units of the pool; one for this chip waits there for its command, one for another is
queued on its egress port with one hop less. A request keeps the window it matched as it was staged, and a packet that is out of
order is asked for again (06 R195; 07 R218, R221; 15 R422). -/
def Claims.UnscheduledReceive : Prop :=
  ∀ (s : State) (port : PortId) (bytes : List Byte),
    let x := port.val
    let l := s.link x
    let f := Frame.parse bytes
    let v := f.hdr.vc
    let win := (s.windowOf f.hdr).1
    (PacketTaken s x bytes → f.hdr.dst = s.chipId → Completes (.unscheduledPacketReceive port bytes false) s (fun u =>
      (u.link x).pool = l.pool ++ [⟨l.poolId, v, f.units, f, false, false, win⟩] ∧ (u.link x).uExp = (l.uExp + 1) % 65536 ∧
      (u.link x).rcv.get v 0 = (l.rcv.get v 0 + f.units) % 2 ^ 32 ∧ (u.link x).buf.get v 0 = l.buf.get v 0 + f.units)) ∧
    (∀ y, PacketTaken s x bytes → f.hdr.hopsLeft ≠ 0 → s.route f.hdr.dst = .port y →
      Completes (.unscheduledPacketReceive port bytes false) s (fun u =>
        (u.link x).pool = l.pool ++ [⟨l.poolId, v, f.units, f, true, false, none⟩] ∧
        (u.link y).queue = (s.link y).queue ++
          [⟨{ f with hdr := { f.hdr with hops := f.hdr.hops - 1, fwded := true, retry := false } }, some (x, l.poolId)⟩])) ∧
    (GoodFrame s x bytes → f.hdr.cls = 1 → f.hdr.unschValid bytes.length f.data = true →
      (f.hdr.dst = s.chipId ∨ f.hdr.hopsLeft ≠ 0) → f.hdr.seq ≠ l.uExp → l.nakNt = none → Calm s (linkPage x) →
      Completes (.unscheduledPacketReceive port bytes false) s (fun u =>
        (u.link x).pool = l.pool ∧ (u.link x).uExp = l.uExp ∧ CountsL s u x Reg.ICL_NAKTX_COUNT 1 ∧
        u.sent = s.sent ++ [.wire x (symWire 2 8 (beBytes l.uExp 2 ++ beBytes 0 2)) false]))

/-- Unscheduled packets: sending and taking. -/
def Obligations.UnscheduledTraffic : Prop :=
  Claims.UnscheduledSend ∧ Claims.UnscheduledReceive

/-- Windows: a WRITE, WRITEC or READ that the window it matched and the handle allow becomes a job of the interchange; one that no window
allows is refused and counted, and WRITEC and READ are answered with status 3, as they are, uncounted, for a partition in reset, whose
posted WRITE is discarded and counted (06 R195 to R197; 12 R366). A packet the chip made for itself is served first (log entry 103). -/
def Claims.WindowRequests : Prop :=
  ∀ (s : State) (port : PortId) (k : PoolPkt) (w : WinEntry),
    let h := k.frame.hdr
    let len := if h.kind = 3 then (k.frame.data.headD 0).toNat else h.len
    let lo := 128 * w.off + 16 * h.offset
    let open0 := s.partInReset (h.postcode / 2 ^ 14) = false
    let allowed := open0 ∧ k.win = some w ∧ s.tileInReset w.tile = false ∧ 16 * h.offset + len ≤ 16 * w.size ∧
      (h.kind = 3 → 0 < len ∧ len ≤ 2048 ∧ len % 16 = 0 ∧ h.poison = false) ∧
      s.windowBarred w.tile w.handle lo (lo + len) (if h.kind = 3 then rFAR else rFAW) = false
    let does := fun (c : Instr) (kind : Nat) =>
      let x := if (s.waiting selfPort kind).isSome then selfPort else port.val
      let told := fun (u : State) => ∀ y, s.route h.src = .port y → (u.link y).queue = (s.link y).queue ++
        [⟨mkPacket s 5 2 (h.postcode / 2 ^ 14) h.src h.round h.slot 0 false [3, 0, 0, 0], none⟩]
      s.upsets = [] → s.waiting x kind = some k →
      (allowed → Completes c s (fun u =>
        u.ich.windows = s.ich.windows ++ [⟨x, k.id, k.frame, w.tile, w.handle, lo, len, 0, []⟩])) ∧
      (open0 → k.win = none → Completes c s (fun u =>
        u.ich.windows = s.ich.windows ∧ Counts s u 0x023 Reg.RWT_MISS_COUNT 1 ∧ u.getF 0x023 Reg.RWT_STAT_MISS = 1 ∧
        (kind ≠ 1 → told u))) ∧
      (¬ open0 → Completes c s (fun u => u.ich = s.ich ∧ u.getF 0x023 Reg.RWT_MISS_COUNT = s.getF 0x023 Reg.RWT_MISS_COUNT ∧
        if kind = 1 then Counts s u pgMGT Reg.MGT_RSTDISC_COUNT 1 else told u))
    does (.write port) 1 ∧ does (.writec port) 2 ∧ does (.read port) 3

/-- The oldest window job is carried out where the beat leaves a port use and the bank group free: a READ is answered with the words
of its unit, a WRITE stores its words in it and no other, and the job is counted served; without a port use it waits (05 R142; 06
R161, R197, R198). The model's choices: the oldest goes first, MISS counts requests of every kind, and one is served when its last unit is
moved (log entry 53). Here: one whole unit. -/
def Claims.WindowCompletion : Prop :=
  ∀ (s : State) (j : WinJob) (r : List WinJob),
    let h := j.frame.hdr
    let hd := s.handle j.tile j.handle
    let p := hd.phys (j.byte / 128)
    let key := wordKey hd.col p
    s.ich.windows = j :: r → j.byte % 128 = 0 → j.len = 128 → s.inspMode j.tile j.handle = .off → s.upsets = [] →
    Calm s (pgTIL j.tile) → j.moved = 0 → j.buf = [] →
    let free := fun write => s.windowPort j.tile write = true ∧ s.bgBusy j.tile (s.tileBeat j.tile) (bankGroup p) = false
    (h.kind = 3 → s.windowPort j.tile false = false → Completes .windowAccessComplete s (fun u =>
      u.ich = s.ich ∧ u.tiles = s.tiles ∧ u.links = s.links)) ∧
    (∀ (w : List Word) y, h.kind = 3 → free false → w.length = 32 → s.route h.src = .port y →
      (∀ k, k < 32 → (s.tile j.tile).spd.get (key k) 0 = storeWord (w.getD k 0) false false) →
      Completes .windowAccessComplete s (fun u => u.ich.windows = r ∧ Counts s u 0x023 Reg.RWT_SERVED_COUNT 1 ∧
        (u.link y).queue = (s.link y).queue ++
          [⟨mkPacket s 4 2 (h.postcode / 2 ^ 14) h.src h.round h.slot h.offset false w, none⟩])) ∧
    (h.kind = 1 → free true → 32 ≤ j.frame.data.length → h.poison = false → Completes .windowAccessComplete s (fun u =>
      u.ich.windows = r ∧ Counts s u 0x023 Reg.RWT_SERVED_COUNT 1 ∧
      (∀ k, k < 32 → (u.tile j.tile).spd.get (key k) 0 = storeWord (j.frame.data.getD k 0) false false) ∧
      (∀ i, (∀ k, k < 32 → i ≠ key k) → (u.tile j.tile).spd.get i 0 = (s.tile j.tile).spd.get i 0) ∧
      (∀ t, t ≠ j.tile → u.tile t = s.tile t)))

/-- A response reaches the requester of its tag with its status and data, once every part of its operation has an answer; a part that
fails leaves its words poisoned; a message goes to the Clerk (07 R219; 10 R291). The model's choices: the parts of one operation (log
entry 99), the Clerk's inbox (log entry 34), and that a packet the chip made for itself is served first (log entry 103). -/
def Claims.Responses : Prop :=
  ∀ (s : State) (port : PortId) (k : PoolPkt),
    let waits := fun (kind : Nat) =>
      s.waiting (if (s.waiting selfPort kind).isSome then selfPort else port.val) kind = some k
    let h := k.frame.hdr
    let ends := fun (c : Instr) (status : Nat) (data : List Word) => ∀ y r,
      s.partInReset (h.postcode / 2 ^ 14) = false → s.requestOf h = some (y, r) →
      let ws := if status = 0 then data.map PV.ok else if data.isEmpty then badWords r.len else data.map (fun v => ⟨v, true⟩)
      (s.operation h.slot = [r] → Completes c s (fun u => u.sent = s.sent ++ [.response h.slot status ws] ∧
        ∀ z, z < 47 → (u.link z).requests = (s.link z).requests.filter (fun q => q.tag != h.slot))) ∧
      ((∃ q ∈ s.operation h.slot, q ≠ r ∧ q.answer = none) → Completes c s (fun u => u.sent = s.sent ∧
        (u.link y).requests = (s.link y).requests.replace r { r with answer := some (status, ws) }))
    (waits 4 → ends (.rdata port) (if h.poison then 4 else 0) k.frame.data) ∧
    (waits 5 → ends (.cpl port) ((k.frame.data.headD 0).toNat % 256) []) ∧
    (waits 6 → h.round ≠ 0xA00 → h.round ≠ 0xB00 → (h.round = clerkTarget → s.mgmt.clerkUp = false) →
      Completes (.msg port) s (fun u => u.mgmt = { s.mgmt with clerkInbox := s.mgmt.clerkInbox ++ [k.frame] }))

/-- Remote memory windows and responses. -/
def Obligations.Windows : Prop :=
  Claims.WindowRequests ∧ Claims.WindowCompletion ∧ Claims.Responses

/-- Training (07 Table 8): a signal or RETRAIN starts the first attempt; agreement leads to CAL, unless the Clerk finds the
port miswired, and starts the first calibration trial; 200 ms without agreement start another attempt, and after three the link is
FAILED; the end of HOLD's grace time acts as DROP. The model's choices: that ATTEMPTS counts up to its greatest value (log entry 25), that
a link in HOLD trains and calibrates without leaving it (log entry 55), and that the first trial starts as training ends (log entry 22). -/
def Claims.LinkTraining : Prop :=
  ∀ (s : State) (port : PortId),
    let x := port.val
    let l := s.link x
    let attempt := fun (n : Nat) (u : State) =>
      u.linkState x = lnkTRAIN ∧ u.getL x Reg.ICL_STATE_ATTEMPTS = min 15 (s.getL x Reg.ICL_STATE_ATTEMPTS + 1) ∧
      (u.link x).tries = n
    (s.linkState x = lnkDOWN → s.mayTrain x = true → Completes (.signalDetect port) s (attempt 1)) ∧
    ((s.linkState x = lnkDOWN ∨ s.linkState x = lnkFAILED) → s.mayTrain x = true → Completes (.retrain port) s (attempt 1)) ∧
    (∀ t, (s.linkState x = lnkTRAIN ∨ s.linkState x = lnkHOLD) → l.train = some t →
      (s.linkState x = lnkTRAIN → s.mgmt.clerkUp = true → s.wiredRight x t.chip t.port = true) →
      Completes (.trainComplete port) s (fun u =>
        u.linkState x = (if s.linkState x = lnkTRAIN then lnkCAL else lnkHOLD) ∧ (u.link x).latTrials = 0 ∧
        (u.link x).rplTrials = 0 ∧ (u.link x).latMax = 0 ∧ (u.link x).rplMax = 0 ∧
        ∃ f, (u.link x).calSent = some f ∧ f.hdr.kind = 0)) ∧
    (∀ t, s.linkState x = lnkTRAIN → l.train = some t → s.mgmt.clerkUp = true → s.wiredRight x t.chip t.port = false →
      Completes (.trainComplete port) s (fun u => u.linkState x = lnkDOWN ∧ u.getL x Reg.ICL_CTL_EN = 0)) ∧
    (s.linkState x = lnkTRAIN → l.tries < 3 → Completes (.trainAttemptTimeout port) s (fun u => attempt (l.tries + 1) u ∧
      l.stateNt + 200000000 * nsUnit ≤ u.nt)) ∧
    (s.linkState x = lnkTRAIN → 3 ≤ l.tries → Completes (.trainAttemptTimeout port) s (fun u =>
      u.linkState x = lnkFAILED ∧ u.getL x Reg.ICL_STATE_CAUSE = 6 ∧ l.stateNt + 200000000 * nsUnit ≤ u.nt)) ∧
    (∀ t, s.linkState x = lnkHOLD → l.lossNt = some t → Completes (.holdGraceExpiry port) s (fun u => attempt 1 u ∧
      (u.link x).uBuf = [] ∧ (∀ r ∈ (u.link x).requests, r.answer.isSome = true) ∧
      t + s.getL x Reg.ICL_GRACE_NS_NS * nsUnit ≤ u.nt))

/-- A link whose calibration is complete enters UP with its ledger written: each measurement rounded up to whole ns, and 1
added. The scheduled sequence starts at 0; after HOLD, which it leaves only now (log entry 55, the model's choice), the packets the peer
has not received are sent again (07 R223, R227). -/
def Claims.CalibrationComplete : Prop :=
  ∀ (s : State) (port : PortId),
    let x := port.val
    let l := s.link x
    (s.linkState x = lnkCAL ∨ s.linkState x = lnkHOLD) → 1024 ≤ l.latTrials → 1024 ≤ l.rplTrials →
    Completes (.calibrationComplete port) s (fun u => u.linkState x = lnkUP ∧
      u.getL x Reg.ICL_LEDGER1_LAT_NS = ((l.latMax + 255) / 256 + 1) % 65536 ∧
      u.getL x Reg.ICL_LEDGER1_RPL_NS = ((l.rplMax + 255) / 256 + 1) % 65536 ∧
      (u.link x).sNext = 0 ∧ (u.link x).sExp = 0 ∧ (u.link x).sBuf = [] ∧ (u.link x).lossNt = none ∧
      (s.linkState x = lnkHOLD → ∀ t, l.train = some t →
        (u.link x).uBack = l.uBuf.filter (fun f => decide (seqDiff f.hdr.seq t.next < 32768))) ∧
      (s.linkState x = lnkCAL → (u.link x).uBuf = l.uBuf))

/-- Training of a link and its way into UP. -/
def Obligations.LinkTraining : Prop :=
  Claims.LinkTraining ∧ Claims.CalibrationComplete

/-- Control of a link: EN, the registers that can be written while the link is out of use, the equaliser taps behind the
expert key, and the exerciser's mode (07 R221, R222, R228, R230, R231). That every write of the mode starts the exerciser's stream anew
is the model's choice (log entry 21). -/
def Claims.LinkControl : Prop :=
  ∀ (s : State) (port : PortId) (v : BitVec 32),
    let x := port.val
    let w := v.toNat
    let out := s.linkState x = lnkDOWN ∨ s.linkState x = lnkTRAIN ∨ s.linkState x = lnkFAILED
    Completes (.linkEnable port true) s (fun u => u = s.setL x Reg.ICL_CTL_EN 1) ∧
    Completes (.linkEnable port false) s (fun u => u.getL x Reg.ICL_CTL_EN = 0 ∧ u.linkState x = lnkDOWN) ∧
    (out → ∀ k : Fin 4,
      let mn := bits w 12 0
      let mx := bits w 28 16
      let sum := (if k = 0 then mn else s.getL x (Reg.ICL_VC_MIN.at 0)) + (if k = 1 then mn else s.getL x (Reg.ICL_VC_MIN.at 1)) +
        (if k = 2 then mn else s.getL x (Reg.ICL_VC_MIN.at 2)) + (if k = 3 then mn else s.getL x (Reg.ICL_VC_MIN.at 3))
      Completes (.linkControlWrite port (.vc k) v) s (fun u =>
        (33 ≤ mn ∧ mn ≤ mx ∧ sum ≤ 4096 → u.getL x (Reg.ICL_VC_MIN.at k.val) = mn ∧ u.getL x (Reg.ICL_VC_MAX.at k.val) = mx) ∧
        (¬ (33 ≤ mn ∧ mn ≤ mx ∧ sum ≤ 4096) → u = s))) ∧
    (out → Completes (.linkControlWrite port .lossNs v) s (fun u => u = s.setL x Reg.ICL_LOSS_NS_NS (w % 65536))) ∧
    (out → Completes (.linkControlWrite port .elasticMax v) s (fun u =>
      u.getL x Reg.ICL_ELASTIC_MAX_SLOTS = max 1 (min 64 (w % 128)))) ∧
    (¬ out → ∀ r, Completes (.linkControlWrite port r v) s (fun u => u = s)) ∧
    (∀ lane : Fin 8,
      let f := fun (r : Fld) => (r.at lane.val).shift (0x800 + 0x80 * linkSub x)
      (s.getB (linkPage x) Reg.BLK_EXPERT_KEY_OPEN = true → Completes (.txffeWrite port lane v) s (fun u =>
        u.getF (linkPage x) (f Reg.ICL_TXFFE_FIXED) = w / 2 ^ 31 ∧ u.getF (linkPage x) (f Reg.ICL_TXFFE_MAIN) = w / 2 ^ 12 % 64 ∧
        u.getF (linkPage x) (f Reg.ICL_TXFFE_PRE1) = w / 2 ^ 18 % 64 ∧
        u.getF (linkPage x) (f Reg.ICL_TXFFE_POST1) = w / 2 ^ 6 % 64)) ∧
      (s.getB (linkPage x) Reg.BLK_EXPERT_KEY_OPEN = false → Completes (.txffeWrite port lane v) s (fun u => u = s))) ∧
    ((w / 2 ^ 28 ≠ 0 → s.leasedByHolder x = false) → Completes (.exerciserModeWrite port v) s (fun u =>
      u.getL x Reg.ICL_EXR_CTL_MODE = w / 2 ^ 28 ∧ u.getL x Reg.ICL_EXR_CTL_INJ = w / 2 ^ 20 % 16 ∧
      (u.link x).exrTx = s.exrSeed x ∧ (u.link x).exrRx = s.exrSeed x)) ∧
    (w / 2 ^ 28 ≠ 0 → s.leasedByHolder x = true → Completes (.exerciserModeWrite port v) s (fun u => u = s))

/-- Sixteen uncorrectable codewords in a row lose FEC lock; a corrected one is counted, and a block whose frame mark is set finds
framing again; what the decoder answers is a codeword that differs in at most 15 symbols, and blocks come back from the symbols that
carry them (07 R204 to R206; bit orders of log entry 96). The exerciser sends its parcel in each of its slots that no replay has taken
(R229); mode 1 counts the bits that differ from the pattern, mode 4 takes what the port itself transmits, and mode 5 sends a codeword
back (R228). The stream's bit order, its slots, and where a pattern stands are the model's choices (log entry 21). -/
def Claims.CodewordsAndExerciser : Prop :=
  (∀ (l w : List Nat) (n : Nat), rsDecode l = some (w, n) →
    n ≤ 15 ∧ w.length = l.length ∧ (rsSyndromes w).all (· == 0) = true ∧
    ((List.range l.length).filter (fun i => l.getD i 0 != w.getD i 0)).length ≤ n) ∧
  (∀ (z : Nat) (bs : List Block), z < 2 ^ 58 → bs.length = 20 → (∀ b ∈ bs, b.flits.1 < 2 ^ 128 ∧ b.flits.2 < 2 ^ 128) →
    decodeBlocks z (encodeBlocks z bs).1 = (bs, (encodeBlocks z bs).2)) ∧
  ∀ (s : State) (port : PortId),
    let x := port.val
    let l := s.link x
    (∀ rx : Vector (BitVec 10) 544, s.linkState x ≠ lnkDOWN → s.linkState x ≠ lnkFAILED →
      let r := (receiveCodeword l.rxScr rx.toList).1
      (∀ n bs, r = some (n, bs) → Completes (.codewordReceive port rx) s (fun u =>
        (u.link x).badRun = 0 ∧ (u.link x).framing = (Framing.blocks ⟨l.rxLeft, l.rxWait, l.framing, false⟩ bs).lost ∧
        u.linkState x = s.linkState x ∧ (0 < n → CountsL s u x Reg.ICL_FECCORR_COUNT 1))) ∧
      (r = none → l.badRun < 15 → Completes (.codewordReceive port rx) s (fun u =>
        (u.link x).badRun = l.badRun + 1 ∧ (u.link x).framing = true ∧ CountsL s u x Reg.ICL_FECUNC_COUNT 1 ∧
        u.linkState x = s.linkState x)) ∧
      (r = none → 15 ≤ l.badRun → s.linkState x = lnkUP → Completes (.codewordReceive port rx) s (fun u =>
        LinkLost s u x 2))) ∧
    (∀ rx : Vector (BitVec 10) 544, (s.linkState x = lnkDOWN ∨ s.linkState x = lnkFAILED) →
      (s.getL x Reg.ICL_EXR_CTL_MODE = 1 → Completes (.codewordReceive port rx) s (fun u =>
        CountsL s u x Reg.ICL_EXR_ERR_COUNT (laneErrors (s.getL x Reg.ICL_EXR_CTL_PAT) l.exrPat rx.toList).1 ∧ u.sent = s.sent)) ∧
      (s.getL x Reg.ICL_EXR_CTL_MODE = 4 → Completes (.codewordReceive port rx) s (fun u =>
        (receiveCodeword l.rxScr (idleCodeword l.rxScr)).2 = (u.link x).rxScr ∧ u.sent = s.sent)) ∧
      (s.getL x Reg.ICL_EXR_CTL_MODE = 5 → Completes (.codewordReceive port rx) s (fun u => u = s.emit (.codeword x rx.toList)))) ∧
    (∀ slot : BitVec 24,
      let first := s.getL x Reg.ICL_EXR_SLOTS_FIRST
      s.exercises x = true → s.timedLink x = true → s.getL x Reg.ICL_EXR_CTL_INJ = 0 → first < slot.toNat →
      (slot.toNat - first) % max 1 (s.getL x Reg.ICL_EXR_SLOTS_PERIOD) = 0 → l.sBuf.length < 1024 → Calm s (linkPage x) →
      Calm s 0x020 → Calm s 0x021 → Calm s 0x022 → Calm s 0x023 → (s.sds x = true ∨ s.exrSlotNt x slot.toNat ∉ l.taken) →
      Completes (.exerciserParcelSend port slot) s (fun u => ∃ f, SentParcel s u x f ∧
        f.data = (prbsWords l.exrTx 128).1 ∧ f.hdr.slot = slot.toNat ∧ f.hdr.len = 512 ∧
        (u.link x).exrTx = (prbsWords l.exrTx 128).2 ∧ CountsL s u x Reg.ICL_EXR_TX_COUNT 1))

/-- Control of a link, codewords and the exerciser. -/
def Obligations.LinkControl : Prop :=
  Claims.LinkControl ∧ Claims.CodewordsAndExerciser

/-- A round start of a running partition: the next round begins at its position with the decision of its manifests, S_n is
kept, stamp counters back at 0 where STEP advanced here, marked rounds are counted skipped, and each tile with a stream starts at its
entry or skips. A partition at its launch NT begins round 0 (01 R24, R25, R31; 02 R58; 03 R64; 10 R292). The model's choices: the stamps
and STEP of a chip without a stream (log entry 50), and the planes in S_n (log entry 92). -/
def Claims.RoundStarts : Prop :=
  ∀ (s : State) (p : PartId),
    let x := s.part p.val
    let arch := fun t => if s.prtState p.val = prtRUNNING ∧ x.decision = true ∧ s.ownTiles p.val = [] then
      { (s.tile t).arch with stamps := [] } else (s.tile t).arch
    let begins := fun (at0 n : Nat) (u : State) =>
      let y := u.part p.val
      u.prtState p.val = prtRUNNING ∧ u.round p.val = n % 2 ^ 32 ∧ at0 ≤ u.nt ∧ y.startNt = at0 ∧
      y.nextNt = at0 + s.roundNt p.val ∧ y.nextRound = (n + 1) % 2 ^ 32 ∧ y.gear = s.gear ∧ y.decision = s.willRun p.val n ∧
      (s.willRun p.val n = false → Counts s u (pgPRT p.val) Reg.PRT_SKIPCNT_COUNT 1) ∧
      (∃ z ∈ y.starts, z.round = n ∧ z.runs = s.willRun p.val n ∧ z.gen = u.gen p.val ∧
        ∀ t ∈ s.tilesOf p.val, z.tiles.get t .reset = arch t) ∧
      (∀ t ∈ s.ownTiles p.val, s.seqState t ≠ seqSTOPPED →
        u.seqState t = (if s.willRun p.val n then seqRUNNING else seqSKIPPED) ∧ (u.tile t).flight = [] ∧
        (u.tile t).seq = { Seq.reset with pc := s.getF (pgTIL t) Reg.TIL_SEQ_CODE_ENTRY })
    (∀ t ∈ s.tilesOf p.val, s.seqState t ≠ seqRUNNING) →
    (s.prtState p.val = prtRUNNING → x.launchNt = none → s.gearDue x.nextNt = false → s.holdoverLong x.nextNt = false →
      x.fenceAsked = false → (∀ z, x.stopNt = some z → x.nextNt < z) →
      Completes (.roundStart p) s (begins x.nextNt x.nextRound)) ∧
    (∀ l, s.prtState p.val = prtLOADED → x.launchNt = some l → s.gearDue l = false → s.holdoverLong l = false →
      Completes (.roundStart p) s (begins l 0))

/-- At a round-start position a partition whose fence was asked for stops and holds its state, with code 0x3005; one whose
stop NT has come halts and is loaded again; one that holds lets the position pass and places the next, where a deputy begins to
govern (08 R251; 10 R294, R310; 12 R363). The model's readings: a launch that comes so late in a holdover ends in the fence too (log entry
31), the BLOCK of code 0x3005 (log entry 65), and the stamps of a chip without a stream (log entry 50). -/
def Claims.RoundPositions : Prop :=
  ∀ (s : State) (p : PartId),
    let x := s.part p.val
    let arch := fun t => if x.decision = true ∧ s.ownTiles p.val = [] then { (s.tile t).arch with stamps := [] } else (s.tile t).arch
    (∀ l, s.prtState p.val = prtLOADED → x.launchNt = some l → (∀ t ∈ s.tilesOf p.val, s.seqState t ≠ seqRUNNING) →
      s.gearDue l = false → s.holdoverLong l = true →
      Completes (.roundStart p) s (fun u => u.prtState p.val = prtFENCED ∧ Reports s u 0x3005 pgETU)) ∧
    (s.gearDue x.nextNt = false →
    (s.prtState p.val = prtRUNNING → x.launchNt = none → (∀ t ∈ s.tilesOf p.val, s.seqState t ≠ seqRUNNING) →
      s.holdoverLong x.nextNt = false →
      (x.fenceAsked = true → Completes (.roundStart p) s (fun u => u.prtState p.val = prtFENCED ∧
        Reports s u 0x3005 pgETU ∧ (u.part p.val).starts = x.starts ∧
        ∀ t ∈ s.tilesOf p.val, u.seqState t = seqFENCED ∧ (u.tile t).arch = arch t)) ∧
      (∀ z, x.fenceAsked = false → x.stopNt = some z → z ≤ x.nextNt → Completes (.roundStart p) s (fun u =>
        u.prtState p.val = prtLOADED ∧ (u.part p.val).stopNt = none ∧
        ∀ t ∈ s.tilesOf p.val, u.seqState t = seqHALTED))) ∧
    (s.prtState p.val = prtHOLDING → s.replayDue p.val = false → x.fenceAsked = false →
      Completes (.heldRoundPosition p) s (fun u => u.prtState p.val = prtHOLDING ∧ u.round p.val = s.round p.val ∧
        x.nextNt ≤ u.nt ∧ u.part p.val = { x with
          gear := s.gear, startNt := x.nextNt, nextNt := x.nextNt + s.roundNt p.val, nextRound := (x.nextRound + 1) % 2 ^ 32,
          deputy := x.deputy || x.deputyNext, deputyNext := false })))

/-- Round starts and round-start positions. -/
def Obligations.RoundStarts : Prop :=
  Claims.RoundStarts ∧ Claims.RoundPositions

/-- An armed gear change takes effect at its boundary where no partition runs, and at the first round start at or after it
where one does: NEXT becomes the gear, the beats are anchored there and ARM clears. In the gear period before, the spare
PLLs lock to NEXT, and for a faster gear each rail is raised first, in steps of 5 mV (08 R247, R249, R252; 14 R400). The steps' rounding,
and the rail that an emergency holds, are the model's choices (log entry 27). -/
def Obligations.GearChanges : Prop :=
  ∀ (s : State),
    let g := s.getF pgTMB Reg.TMB_GEAR_NEXT
    let tb := s.getF pgTMB Reg.TMB_GEAR_AT_LO * nsUnit + s.getF pgTMB Reg.TMB_GEAR_AT_HI * 2 ^ 32 * nsUnit
    let changed := fun (u : State) (x : Nat) => u.gear = g % 8 ∧ u.getF pgTMB Reg.TMB_GEAR_ARM = 0 ∧ u.time.anchor = x ∧ x ≤ u.nt
    let need := fun r => s.getF (pgRGN r) (Reg.RGN_VF_MV.at g) + (s.rmon r).offset
    let top := fun r => s.rgnValue r Reg.RGN_VMAX_MV
    s.getB pgTMB Reg.TMB_GEAR_ARM = true →
    ((∀ p ∈ allParts, s.partRuns p = false) → Completes .gearChangeEffect s (fun u => changed u tb)) ∧
    (∀ p, allParts.find? s.partRuns = some p → tb ≤ (s.part p).nextNt →
      Completes .gearChangeEffect s (fun u => changed u (s.part p).nextNt)) ∧
    Completes .beatPllPrelock s (fun u => u.time.spareGear = some g ∧ u.gear = s.gear ∧ tb - 2 ^ 20 * nsUnit ≤ u.nt ∧
      (g < s.gear → ∀ r, r < 16 → r ∈ s.regions → u.getF (pgRGN r) Reg.RGN_VOLT_MV =
        railStep (if (s.rmon r).held then max (need r) (top r) else need r) (top r) % 4096))

/-- TIME symbols: a link in CAL or UP sends its EXCHANGE at or after a multiple of 16,000 ns, domain B 8,000 ns later, with its own
number, and keeps when; one received is kept to be
echoed; the parent's, echoing one of the chip's own, steers the selected domain by the servo of 08 R237. -/
def Obligations.TimeExchange : Prop :=
  ∀ (s : State) (port : PortId) (b : Bool),
    let x := port.val
    let t := (s.link x).peerTime b
    let d := s.dom b
    (s.carriesTime x = true → t.count < 63 → Completes (.timeExchangeSend port b) s (fun u =>
      let t' := (u.link x).peerTime b
      let due := if t.mark = none ∨ t.mark = some (exchangeMark b s.nt) then exchangeMark b s.nt + 1 else exchangeMark b s.nt
      t'.xseq = (t.xseq + 1) % 16 ∧ t'.count = t.count + 1 ∧ t'.sent.head? = some (t.xseq, u.nt / 2 ^ 32) ∧
      (∃ l, u.sent = s.sent ++ [l]) ∧ t'.mark = some due ∧
      due * 16000 * nsUnit - (if b then 8000 else 16000) * nsUnit ≤ u.nt)) ∧
    (∀ sym, GoodSym s x sym 4 → symLow sym % 4 = 0 → s.carriesTime x = true → (symLow sym / 8 == 1) = b →
      Completes (.exchange port sym false) s (fun u =>
        ((u.link x).peerTime b).last = some (symByte sym 10 / 16, s.nt / 2 ^ 32) ∧
        (d.parent = some x → (u.dom b).lastEx = s.nt))) ∧
    (∀ sym e, GoodSym s x sym 4 → symLow sym % 4 = 0 → s.carriesTime x = true → (symLow sym / 8 == 1) = b →
      d.parent = some x → s.domState b = domTRACKING → s.selected b = true →
      t.sent.find? (fun e => e.1 == symByte sym 10 % 16) = some e → symField sym 7 9 ≠ 0xFFFFFF →
      let now : Nat := s.nt / 2 ^ 32
      let delay := (diff40 ((now : Int) - (e.2 : Nat)) - symField sym 7 9).tdiv 2
      let off := diff40 ((symField sym 2 6 : Int) + delay - (now : Int)) - s.time.frozen
      let integ := d.integ + off * 2 ^ 8
      let rate := max (-2 ^ 31) (min (2 ^ 31 - 1) (integ + off * 2 ^ 14))
      off.natAbs ≤ 256 * max 1 (s.getF pgTMB Reg.TMB_TOL_NS_NS) → off.natAbs ≤ 256000 →
      Completes (.exchange port sym false) s (fun u => (u.dom b).integ = integ ∧ (u.dom b).rate = rate ∧
        u.getF pgTMB Reg.TMB_RATE_RATE = unsgn 32 rate ∧ u.nt = s.nt ∧ u.domState b = domTRACKING))

/-- An ANNOUNCE is kept, and the first one with LOCK that a domain without time hears makes its link the parent and starts
acquisition. A domain is LOST when its parent is silent for 64 µs and no other link offers one, or when its master is silent
for four ANNOUNCE periods, and acquires again where a parent is there; a chip that finds no master reports a time loss once (08 R234,
R237, R238). That the report is made once is the model's choice (log entry 31). -/
def Claims.DomainStates : Prop :=
  ∀ (s : State) (b : Bool),
    let d := s.dom b
    (∀ (port : PortId) sym, GoodSym s port.val sym 4 → symLow sym % 4 = 1 → s.carriesTime port.val = true →
      (symLow sym / 8 == 1) = b →
      let a : Ann := ⟨symLow sym / 4 % 2 == 1, symField sym 2 3, symByte sym 4, symByte sym 5, symField sym 7 10⟩
      Completes (.announce port sym false) s (fun u => ((u.link port.val).peerTime b).ann = some a ∧
        (a.lock = true → s.domState b = domNONE → (∀ y, y ≠ port.val → ((s.link y).peerTime b).ann = none) →
          u.domState b = domACQUIRING ∧ (u.dom b).parent = some port.val))) ∧
    (s.domState b = domTRACKING → ∀ y, s.bestParent b (fun x => d.parent != some x) = some y →
      Completes (.parentTimeout b) s (fun u => (u.dom b).parent = some y ∧ u.domState b = domTRACKING ∧
        d.lastEx + 64000 * nsUnit ≤ u.nt)) ∧
    (s.domState b = domTRACKING → s.bestParent b (fun x => d.parent != some x) = none →
      Completes (.parentTimeout b) s (fun u => u.domState b = domLOST ∧ (u.dom b).parent = none ∧
        d.lastEx + 64000 * nsUnit ≤ u.nt)) ∧
    (s.domState b = domTRACKING → Completes (.masterSilentTimeout b) s (fun u => d.annNt + 4096000 * nsUnit ≤ u.nt ∧
      (s.bestParent b (fun _ => true) = none → u.domState b = domLOST ∧ (u.dom b).parent = none) ∧
      (∀ y, s.bestParent b (fun _ => true) = some y → u.domState b = domACQUIRING ∧ (u.dom b).parent = some y))) ∧
    (s.selected b = true → s.domGood b = false → s.bestParent b (fun _ => true) = none →
      s.getB pgTMB Reg.TMB_STAT_HOLDOVER = false →
      (s.time.noMaster = false → Completes (.parentTimeout b) s (fun u =>
        u.time.noMaster = true ∧ Reports s u 0x3003 pgTMB ∧ d.lastEx + 64000 * nsUnit ≤ u.nt)) ∧
      (s.time.noMaster = true → Completes (.parentTimeout b) s (fun u => u = s)))

/-- When the selected domain A is lost with B good the chip switches to B and says so; with neither domain good it enters
holdover, with code 0x3003 (08 R240, R241). That a MASTER counts as good is the model's reading (log entry 30). -/
def Claims.SwitchAndHoldover : Prop :=
  ∀ (s : State), s.domState false = domTRACKING →
    (s.domState true = domTRACKING → s.selected false = true → Completes (.masterSilentTimeout false) s (fun u =>
      u.getF pgTMB Reg.TMB_STAT_SEL = 1 ∧ u.getF pgTMB Reg.TMB_STAT_SWITCHED = 1 ∧ u.incidents = s.incidents ∧
      u.getF pgTMB Reg.TMB_STAT_HOLDOVER = s.getF pgTMB Reg.TMB_STAT_HOLDOVER)) ∧
    (s.domState true ≠ domTRACKING → s.domState true ≠ domMASTER → Completes (.masterSilentTimeout false) s (fun u =>
      u.getF pgTMB Reg.TMB_STAT_HOLDOVER = 1 ∧ u.time.holdNt = some u.nt ∧ Reports s u 0x3003 pgTMB))

/-- The Clerk's writes: a chip named master keeps that domain; USE_A selects a tracking A again; TMB_NT_SET steps the NT of
the A master while nothing runs, and is ignored otherwise (08 R234, R240). -/
def Claims.ClerkTimeWrites : Prop :=
  ∀ (s : State),
    (∀ v : BitVec 32, v.getLsbD 31 = true → v.getLsbD 30 = false → s.domState false ≠ domMASTER → s.domState true ≠ domMASTER →
      Completes (.tmbMasterWrite v) s (fun u => u.domState false = domMASTER ∧ u.domState true = s.domState true ∧
        u.getF pgTMB Reg.TMB_CTL_MASTER_A = 1 ∧ u.getF pgTMB Reg.TMB_CTL_MASTER_B = 0)) ∧
    (s.domState false = domTRACKING → Completes .useA s (fun u => u.getF pgTMB Reg.TMB_STAT_SEL = 0 ∧ u.time.frozen = 0 ∧
      u.nt = s.nt)) ∧
    (∀ hi : BitVec 32,
      (s.domState false = domMASTER → (∀ p ∈ allParts, s.partRuns p = false) → Completes (.ntSet hi) s (fun u =>
        u.nt = (s.getF pgTMB Reg.TMB_NT_SET_LO + 2 ^ 32 * hi.toNat) * nsUnit)) ∧
      ((s.domState false ≠ domMASTER ∨ ∃ p ∈ allParts, s.partRuns p = true) → Completes (.ntSet hi) s (fun u => u = s)))

/-- Reads that latch, of a word, of bytes of it, or of the pair with the word after it: TMB_POSTMARK with its high word and fraction,
TMB_LTB, and the host time pair, which a PTM dialog records every PERIOD_MS (08 R233, R243; 13 R372). -/
def Claims.TimeReads : Prop :=
  ∀ (s : State) (size : ReadSize),
    let ns := s.nt / nsUnit
    let l := s.ltb / nsUnit
    Completes (.postmarkRead size) s (fun u => u.sent = s.sent ++ [.value (readOf size ns)] ∧
      u.getF pgTMB Reg.TMB_EPOCH_NT = ns / 2 ^ 32 % 2 ^ 32 ∧ u.getF pgTMB Reg.TMB_NT_FRAC_FRAC = s.nt / 2 ^ 32 % 256) ∧
    Completes (.localTimeBaseRead size) s (fun u => u.sent = s.sent ++ [.value (readOf size l)] ∧
      u.getF pgTMB Reg.TMB_LTB_HI = l / 2 ^ 32 % 2 ^ 32) ∧
    Completes (.hostTimeRead size) s (fun u => u.sent = s.sent ++ [.value (readOf size s.time.hostPair.1)] ∧
      u.getF pgTMB Reg.TMB_HOST_T_HI = s.time.hostPair.1 / 2 ^ 32 % 2 ^ 32 ∧
      u.getF pgTMB Reg.TMB_HOST_NT_LO = s.time.hostPair.2 % 2 ^ 32 ∧
      u.getF pgTMB Reg.TMB_HOST_NT_HI = s.time.hostPair.2 / 2 ^ 32 % 2 ^ 32) ∧
    (∀ host : BitVec 64, s.getB pgTMB Reg.TMB_PTM_CTL_EN = true → s.dmaOk = true →
      Completes (.ptmDialog host) s (fun u => u.time.hostPair = (host.toNat, u.nt / nsUnit) ∧ u.time.ptmNt = some u.nt ∧
        u.regs = s.regs ∧ (s.time.ptmNt = none → u.nt = s.nt) ∧
        ∀ t, s.time.ptmNt = some t → t + max 1 (s.getF pgTMB Reg.TMB_PTM_CTL_PERIOD_MS) * 1000000 * nsUnit ≤ u.nt))

/-- Time domains, holdover, writes and latching reads. -/
def Obligations.TimeDomains : Prop :=
  Claims.DomainStates ∧ Claims.SwitchAndHoldover ∧ Claims.ClerkTimeWrites ∧ Claims.TimeReads

/-- Arming a gear, and what the governor does: a request for a slower gear within the range is announced to every chip of its
jobs, with a boundary at least two gear periods away, and one for a faster gear is polled first, which one NOGO ends. Another chip asks
its governor. An announcement is armed and acknowledged; a chip that does not acknowledge is asked once more, and then declared failed
(08 R249 to R251, R253 to R257; 13 R382; the messages' layout is the model's, log entry 34). A change that is due takes effect before
another is armed, and a write that meets one keeps the device's ARM. -/
def Claims.Governor : Prop :=
  ∀ (s : State),
    let tb := s.get64 pgTMB Reg.TMB_GEAR_AT_LO Reg.TMB_GEAR_AT_HI
    let armed := fun (u : State) (g b : Nat) => u.getF pgTMB Reg.TMB_GEAR_NEXT = g ∧ u.getF pgTMB Reg.TMB_GEAR_ARM = 1 ∧
      u.get64 pgTMB Reg.TMB_GEAR_AT_LO Reg.TMB_GEAR_AT_HI = b % 2 ^ 64 ∧ u.gear = s.gear
    let announced := fun (u : State) (g : Nat) => ∃ b, armed u g b ∧ s.ns + 2 ^ 21 ≤ b ∧ b % 2 ^ 20 = 0 ∧
      u.gov.announced = some (g, b) ∧ u.gov.waiting = s.governedChips.filter (fun c => c != s.chipId) ∧ u.gov.poll = none
    let note := fun (p c : Nat) (l : List Nat) => (⟨mkPacket s 6 0 p c clerkTarget 0 0 false (clerkWords l), none⟩ : Queued)
    let top := s.getF pgTMB Reg.TMB_GEAR_TOP
    let due := ∃ x, s.gearNext = some x ∧ x ≤ s.nt
    let still := ¬ due ∧ s.devMet pgTMB Reg.TMB_GEAR_ARM = false
    (∀ n : BitVec 3, top ≤ n.toNat → n.toNat ≤ 5 → still → Completes (.gearArm n) s (fun u => armed u n.toNat tb)) ∧
    (∀ (n : BitVec 3) x, top ≤ n.toNat → n.toNat ≤ 5 → s.gearNext = some x → x ≤ s.nt → Completes (.gearArm n) s (fun u =>
      u.gear = s.getF pgTMB Reg.TMB_GEAR_NEXT % 8 ∧ u.time.anchor = x ∧ u.getF pgTMB Reg.TMB_GEAR_NEXT = n.toNat ∧
      u.getF pgTMB Reg.TMB_GEAR_ARM = (if x / nsUnit = s.ns then 0 else 1))) ∧
    (∀ n : BitVec 3, (n.toNat < top ∨ 5 < n.toNat) → Completes (.gearArm n) s (fun u => u = s)) ∧
    (∀ n : BitVec 3, still → Completes (.gearCancel n) s (fun u =>
      u = (if n.toNat ≤ 5 then (s.setF pgTMB Reg.TMB_GEAR_ARM 0).setF pgTMB Reg.TMB_GEAR_NEXT n.toNat
           else s.setF pgTMB Reg.TMB_GEAR_ARM 0))) ∧
    (∀ (n : BitVec 3) x, s.gearNext = some x → x ≤ s.nt → Completes (.gearCancel n) s (fun u =>
      u.gear = s.getF pgTMB Reg.TMB_GEAR_NEXT % 8 ∧ u.getF pgTMB Reg.TMB_GEAR_ARM = 0 ∧ u.time.anchor = x)) ∧
    (s.mgmt.clerkUp = true →
      (∀ (p : PartId) c g, c = .headroom ∨ c = .power → s.governs p.val = true → s.getB pgTMB Reg.TMB_GEAR_ARM = false → still →
        (List.range 6).find? (fun g => decide (s.gear < g) && s.gearValid g) = some g → g ≤ min 4 s.gearRange.2 → top ≤ g →
        Completes (.gearRequest p c) s (fun u => announced u g)) ∧
      (∀ (p : PartId) c im y, c = .headroom ∨ c = .power → s.governs p.val = false → s.partRuns p.val = true →
        s.image p.val = some im → s.route (s.governorOf p.val im) = .port y → Completes (.gearRequest p c) s (fun u =>
          u.regs = s.regs ∧ u.gov = s.gov ∧
          (u.link y).queue = (s.link y).queue ++ [note p.val (s.governorOf p.val im) [6, 0]])) ∧
      (∀ (p : PartId) (g : BitVec 3), s.governs p.val = true → s.getB pgTMB Reg.TMB_GEAR_ARM = false →
        s.gearRange.1 ≤ g.toNat → g.toNat < s.gear → g.toNat ≤ min 4 s.gearRange.2 → s.gearValid g.toNat = true →
        Completes (.gearRequest p (.host g)) s (fun u => u.gov.poll = some g.toNat ∧ u.gov.answers = [] ∧ u.regs = s.regs ∧
          ∀ c ∈ s.otherChips, ∀ y, s.route c = .port y → note 0 c [2, g.toNat] ∈ (u.link y).queue)) ∧
      (∀ (g : BitVec 3) slacks, s.gov.poll = some g.toNat →
        (s.pollGo g.toNat slacks = false → Completes (.gearPoll g slacks) s (fun u => u.gov.poll = none ∧ u.regs = s.regs)) ∧
        (s.pollGo g.toNat slacks = true → s.otherChips = [] → top ≤ g.toNat → g.toNat ≤ 5 → still →
          Completes (.gearPoll g slacks) s (fun u => announced u g.toNat)) ∧
        (s.pollGo g.toNat slacks = true → (∃ c ∈ s.otherChips, ∀ e ∈ s.gov.answers, e.1 ≠ c) →
          Completes (.gearPoll g slacks) s (fun u => u.gov.poll = some g.toNat ∧ u.regs = s.regs ∧
            (s.chipId, true) ∈ u.gov.answers))) ∧
      (∀ (g : BitVec 3) slacks c y, s.gov.poll ≠ some g.toNat → s.gov.asked = some (c, g.toNat) → s.route c = .port y →
        Completes (.gearPoll g slacks) s (fun u => u.gov.asked = none ∧ u.regs = s.regs ∧
          (u.link y).queue = (s.link y).queue ++ [note 0 c [3, g.toNat, bit (s.pollGo g.toNat slacks) 0]])) ∧
      (∀ (c : BitVec 16) (g : BitVec 3) (b : BitVec 64), top ≤ g.toNat → g.toNat ≤ 5 → still →
        Completes (.gearAnnounce c g b) s (fun u => armed u g.toNat b.toNat ∧
          ∀ y, s.route c.toNat = .port y → (u.link y).queue = (s.link y).queue ++ [note 0 c.toNat [4, g.toNat]])) ∧
      (∀ c : BitVec 16, Completes (.gearAck c) s (fun u =>
        u = { s with gov := { s.gov with waiting := s.gov.waiting.filter (fun k => k != c.toNat) } })) ∧
      (∀ g b, s.gov.announced = some (g, b) → s.gov.waiting ≠ [] → s.gov.resent = false →
        Completes .gearAckResendExpiry s (fun u => u.gov.resent = true ∧ (b - 2 ^ 20) * nsUnit ≤ u.nt ∧ u.regs = s.regs ∧
          ∀ c ∈ s.gov.waiting, ∀ y, s.route c = .port y → note 0 c [1, g, b] ∈ (u.link y).queue)) ∧
      (∀ g b, s.gov.announced = some (g, b) → s.gov.waiting ≠ [] → Completes .gearAckFailExpiry s (fun u =>
        u.gov.waiting = [] ∧ (∀ c ∈ s.gov.waiting, c ∈ u.gov.failed) ∧ (b - 2 ^ 19) * nsUnit ≤ u.nt))) ∧
    (s.mgmt.clerkUp = false → ∀ (p : PartId) c g slacks, Completes (.gearRequest p c) s (fun u => u = s) ∧
      Completes (.gearPoll g slacks) s (fun u => u = s)) ∧
    (∀ (p : PartId) im, s.image p.val = some im → s.districtGone p.val im.governor = true → s.governorOf p.val im = s.chipId →
      Completes (.deputyTakeover p) s (fun u => u = s.modPart p.val (fun x => { x with deputyNext := true })))

/-- Region monitors: below the guard the offset rises by 5 mV, 1 ms above twice the guard it falls by 5, and the rail follows, held at
RGN_VMAX, where an emergency keeps it; a rail at the warning threshold does the first, and one at the emergency threshold moves it to
RGN_VMAX with code 0x1041; a skew beyond 50 ps raises code 0x1040; a region that is not there does nothing (00 R4; 08 R245, R253,
R254, R259; 14 R400; how long an emergency holds the rail and how a set point is rounded are the model's choices, log entry 27). A
measurement comes 1 µs or more after the last; a gear change that is due is another statement's (Governor). -/
def Claims.RegionMonitors : Prop :=
  ∀ (s : State) (r : RegionId),
    let pg := pgRGN r.val
    let x := s.rmon r.val
    let rail := fun (a top : Nat) =>
      let need := s.getF pg (Reg.RGN_VF_MV.at s.railGear) + a
      railStep (if x.held then max need top else need) top % 4096
    let still := ∀ z, s.gearNext = some z → s.nt < z ∧ ∀ t, x.lastNt = some t → t + 1000 * nsUnit < z
    let vmax := s.getF pg Reg.RGN_VMAX_MV
    let vold := s.rgnValue r.val Reg.RGN_VMAX_MV
    let guard := s.getF pg Reg.RGN_GUARD_MIN_PS
    let volt := s.getF pg Reg.RGN_VOLT_MV
    (s.hasRegion r.val = true →
      (∀ v : BitVec 16, v.toNat < guard → still → Completes (.rmonMeasure r v) s (fun u =>
        (∀ t, x.lastNt = some t → t + 1000 * nsUnit ≤ u.nt) ∧ (u.rmon r.val).lastNt = some u.nt ∧
        u.getF pg Reg.RGN_STAT_SLACK = v.toNat ∧ (u.rmon r.val).offset = x.offset + 5 ∧ (u.rmon r.val).old = [] ∧
        u.getF pg Reg.RGN_VOLT_MV = rail (x.offset + 5) vmax)) ∧
      (∀ (v : BitVec 16) t, guard ≤ v.toNat → 2 * guard < v.toNat → x.above = some t → t + 1000000 * nsUnit ≤ s.nt → still →
        Completes (.rmonMeasure r v) s (fun u => (u.rmon r.val).offset = x.offset - 5 ∧
          u.getF pg Reg.RGN_VOLT_MV = rail (x.offset - 5) vmax)) ∧
      (∀ v : BitVec 16, guard ≤ v.toNat → v.toNat ≤ 2 * guard → still → Completes (.rmonMeasure r v) s (fun u =>
        (u.rmon r.val).offset = x.offset ∧ (u.rmon r.val).above = none ∧
        u.getF pg Reg.RGN_VOLT_MV = rail x.offset vmax)) ∧
      (∀ mv : BitVec 12, mv.toNat + s.rgnValue r.val Reg.RGN_DROOP_WARN_MV ≤ volt → still → Completes (.droopWarn r mv) s (fun u =>
        u.getF pg Reg.RGN_STAT_WARN = 1 ∧ (u.rmon r.val).offset = x.offset + 5 ∧
        u.getF pg Reg.RGN_VOLT_MV = rail (x.offset + 5) vold)) ∧
      (∀ mv : BitVec 12, volt < mv.toNat + s.rgnValue r.val Reg.RGN_DROOP_WARN_MV →
        Completes (.droopWarn r mv) s (fun u => u = s)) ∧
      (∀ mv : BitVec 12, mv.toNat + s.rgnValue r.val Reg.RGN_DROOP_EMERG_MV ≤ volt →
        Completes (.droopEmergency r mv) s (fun u => u.getF pg Reg.RGN_STAT_EMERG = 1 ∧ (u.rmon r.val).held = true ∧
          u.getF pg Reg.RGN_VOLT_MV = vold / 5 * 5 % 4096 ∧ Reports s u 0x1041 pg)) ∧
      (∀ mv : BitVec 12, volt < mv.toNat + s.rgnValue r.val Reg.RGN_DROOP_EMERG_MV →
        Completes (.droopEmergency r mv) s (fun u => u = s)) ∧
      (∀ v : BitVec 16, Completes (.clockSkewExceeded r v) s (fun u => u.getF pg Reg.RGN_SKEW_PS = v.toNat ∧
        (50 < v.toInt.natAbs → u.getF pg Reg.RGN_STAT_SKEW = 1 ∧ Reports s u 0x1040 pg) ∧
        (v.toInt.natAbs ≤ 50 → u.incidents = s.incidents)))) ∧
    (s.hasRegion r.val = false → ∀ (v : BitVec 16) (mv : BitVec 12),
      Completes (.rmonMeasure r v) s (fun u => u = s) ∧ Completes (.droopWarn r mv) s (fun u => u = s) ∧
      Completes (.droopEmergency r mv) s (fun u => u = s) ∧ Completes (.clockSkewExceeded r v) s (fun u => u = s))

/-- The governor and the region monitors. -/
def Obligations.GovernorAndMonitors : Prop :=
  Claims.Governor ∧ Claims.RegionMonitors

/-- Triggers of a frank: NT and round matches at their own NT, and a register write or the pin at the first multiple of 8 ns
at least 16 ns on; those detected in one timebase cycle make one frank with all their causes, at the earliest frank NT among them;
while HELD is set and may not be overwritten a trigger is missed and counted. RELEASE clears HELD; a write that meets a match frank keeps
its ARM (09 R278, R279, R281; 13 R382; the cycle of detection and the earliest NT are the model's reading, log entry 35). -/
def Claims.FrankTriggers : Prop :=
  (∀ (c k nt : Nat) (l r : List Frank), (∀ f ∈ l, f.seen ≠ c) → joinFrank c k nt l = l ++ [⟨nt, c, 2 ^ k⟩] ∧
    ∀ f, f.seen = c →
      joinFrank c k nt (l ++ f :: r) = l ++ { f with nt := min f.nt nt, causes := Nat.lor f.causes (2 ^ k) } :: r) ∧
  ∀ (s : State),
    let soon := (s.ns + 23) / 8 * 8 * nsUnit
    let at0 := s.get64 pgSNP Reg.SNP_AT_LO Reg.SNP_AT_HI * nsUnit
    let held := s.getB pgSNP Reg.SNP_STAT_HELD
    let ovw := s.getB pgSNP Reg.SNP_CTL_OVERWRITE
    let joins := fun (at1 nt cause : Nat) (u : State) =>
      u.franks.pending = joinFrank (at1 / nsUnit) cause nt s.franks.pending ∧ at1 ≤ u.nt
    ((held = false ∨ ovw = true) →
      Completes .now s (joins s.nt soon 0) ∧
      (s.getB pgSNP Reg.SNP_CTL_PIN_IN = true → s.franks.driveUntil = none → Completes .frankPinFall s (joins s.nt soon 1)) ∧
      (s.getB pgSNP Reg.SNP_CTL_ARM = true → s.getB pgSNP Reg.SNP_CTL_AT_ROUND = false →
        Completes .frankNtMatch s (joins at0 at0 4)) ∧
      (∀ p, s.getF pgSNP Reg.SNP_CTL_AT_PART = p → s.getB pgSNP Reg.SNP_CTL_ARM = true →
        s.getB pgSNP Reg.SNP_CTL_AT_ROUND = true → s.prtState p = prtRUNNING → s.round p = s.getF pgSNP Reg.SNP_AT_HI →
        let b := s.getF pgSNP Reg.SNP_AT_LO % 2 ^ 24
        b < s.roundLen p → s.nt ≤ s.beatNt p b → Completes .frankRoundMatch s (joins (s.beatNt p b) (s.beatNt p b) 3))) ∧
    (held = true → ovw = false → Completes .now s (fun u =>
      u.franks = s.franks ∧ Counts s u pgSNP Reg.SNP_MISSED_COUNT 1)) ∧
    Completes .release s (fun u => u = s.setF pgSNP Reg.SNP_STAT_HELD 0) ∧
    (∀ v : BitVec 32, v.getLsbD 31 = false → (v.getLsbD 29 = false ∨ v.getLsbD 28 = true) →
      (∀ f ∈ s.franks.pending, f.isMatch = false) → (∀ c x, s.armedMatch = some (c, x) → x / nsUnit ≠ s.ns) →
      s.devMet pgSNP Reg.SNP_CTL_ARM = false → Completes (.frankMatchArm v) s (fun u =>
        u.getF pgSNP Reg.SNP_CTL_ARM = bit (v.getLsbD 29) 0 ∧ u.getF pgSNP Reg.SNP_CTL_AT_ROUND = bit (v.getLsbD 28) 0 ∧
        u.franks = s.franks)) ∧
    (∀ (v : BitVec 32) (f : Frank), v.getLsbD 31 = false → f ∈ s.franks.pending → f.isMatch = true → f.nt / nsUnit = s.ns →
      (∀ g ∈ s.franks.pending, g.isMatch = true → s.ns ≤ g.nt / nsUnit) → Completes (.frankMatchArm v) s (fun u =>
        u.getF pgSNP Reg.SNP_CTL_ARM = s.getF pgSNP Reg.SNP_CTL_ARM ∧ u.franks = s.franks))

/-- At the frank NT of the earliest pending frank each accepting page latches its words with the NT and the frank's number, HELD sets
with the causes, a match disarms, and FENCE asks every running partition to fence; one that finds a held snapshot is missed. 1 µs
later the chip releases FRANK_N (09 R279 to R283; 13 R377). -/
def Claims.FrankLatches : Prop :=
  ∀ (s : State) (f : Frank),
    (firstFrank s.franks.pending = some f → s.frankHeld = false → Completes .frankLatch s (fun u =>
      u.franks.pending = s.franks.pending.erase f ∧ f.nt ≤ u.nt ∧ Counts s u pgSNP Reg.SNP_SEQ_COUNT 1 ∧
      u.getF pgSNP Reg.SNP_STAT_HELD = 1 ∧ u.getF pgSNP Reg.SNP_STAT_CAUSE = f.causes % 32 ∧
      u.get64 pgSNP Reg.SNP_NT_LO Reg.SNP_NT_HI = f.nt / nsUnit % 2 ^ 64 ∧
      ((f.causes.testBit 4 = true ∨ f.causes.testBit 3 = true) → u.getF pgSNP Reg.SNP_CTL_ARM = 0) ∧
      (∀ pg ∈ allPages, s.getB pg Reg.BLK_CTRL_SNAP_EN = true → s.pageOpen pg = true →
        u.franks.snaps.get (64 * pg) 0 = f.nt / nsUnit % 2 ^ 32 ∧
        u.franks.snaps.get (64 * pg + 1) 0 = u.getF pgSNP Reg.SNP_SEQ_COUNT) ∧
      (∀ pg ∈ allPages, s.getB pg Reg.BLK_CTRL_SNAP_EN = false → ∀ n, n < 64 →
        u.franks.snaps.get (64 * pg + n) 0 = s.franks.snaps.get (64 * pg + n) 0) ∧
      (s.getB pgSNP Reg.SNP_CTL_FENCE = true → ∀ p ∈ allParts, s.prtState p = prtRUNNING → (u.part p).fenceAsked = true))) ∧
    (firstFrank s.franks.pending = some f → s.frankHeld = true → Completes .frankLatch s (fun u =>
      u.franks = { s.franks with pending := s.franks.pending.erase f } ∧
      Counts s u pgSNP Reg.SNP_MISSED_COUNT (onesIn 5 f.causes))) ∧
    (∀ t, s.franks.driveUntil = some t → Completes .frankPinRelease s (fun u => u.franks.driveUntil = none ∧ t ≤ u.nt))

/-- Franks: triggers and latches. -/
def Obligations.Franks : Prop :=
  Claims.FrankTriggers ∧ Claims.FrankLatches

/-- The ETU records the first incident: its page's BLK_ERR bit sets, SEQ moves on, and the record is written in the host ring
where there is room. An aborting incident of a running round makes its partition hold for that round, which it replays
(10 R285 to R288, R294; 13 R376). That a hold ends the operations in flight is the model's reading (log entry 59). -/
def Obligations.IncidentRecords : Prop :=
  ∀ (s : State) (i : Incident) (rest : List Incident),
    let seq := s.getF pgETU Reg.ETU_SEQ_NEXT
    let n := 2 ^ max 6 (min 20 (s.getF pgETU Reg.ETU_RING_SIZE_LOG2))
    let h := s.getF pgETU Reg.ETU_RING_HEAD_RECORDS
    let base := s.get64 pgETU Reg.ETU_RING_BASE_LO Reg.ETU_RING_BASE_HI
    firstIncident s.incidents = some (i, rest) → codeClass i.code ≠ 2 → s.recordFull i = false → i.part.getD 0 < 4 →
    Completes .incidentRecord s (fun u =>
      u.getF i.block (if codeClass i.code = 0 then Reg.BLK_ERR_INFO else Reg.BLK_ERR_DATA) = 1 ∧
      Counts s u pgETU Reg.ETU_SEQ_NEXT 1 ∧
      (s.getB pgETU Reg.ETU_CTL_EN = true → s.dmaOk = true →
        (h + 2 ^ 32 - s.getF pgETU Reg.ETU_RING_TAIL_RECORDS) % 2 ^ 32 < n →
        Counts s u pgETU Reg.ETU_RING_HEAD_RECORDS 1 ∧
        u.hostRead (base - base % 4096 + h % n * 64) 64 = s.recordBytes (s.fillRecord i).1 seq) ∧
      (∀ p j, i.code ∈ abortCodes → i.code ≠ 0x1040 → i.code ≠ 0x1041 → i.part = some p → i.round = some j →
        s.prtState p = prtRUNNING → s.holdsRound p j = true →
        u.prtState p = prtHOLDING ∧ u.round p = j % 2 ^ 32 ∧ u.getF pgETU (Reg.ETU_RCV_ABORT_ROUND.at p) = j % 2 ^ 32 ∧
        ∀ t ∈ s.tilesOf p, u.seqState t = seqHOLDING ∧ (u.tile t).flight = []))

/-- Notices: the Clerk gets a copy of each. An ABORT of the current epoch for a round the chip keeps makes it hold for that round;
one of an epoch past has no other effect; RESUME names the replay start; ROLLCALL counts a district (10 R295, R296, R299, R308). What
stands in a copy's header is the model's choice (log entry 34). -/
def Claims.Notices : Prop :=
  ∀ (s : State) (port : PortId) (p : PartId) (epoch origin : BitVec 16),
    let x := s.part p.val
    let copied := fun (u : State) (l : List Word) =>
      ∃ f, u.mgmt.clerkInbox = s.mgmt.clerkInbox ++ [f] ∧ f.data = l ∧ f.hdr.src = origin.toNat ∧ f.hdr.hops = 0
    (∀ (cause : BitVec 8) (round seq : BitVec 32), epoch.toNat = s.epoch p.val → s.prtState p.val = prtRUNNING →
      (1, epoch.toNat, origin.toNat, round.toNat) ∉ x.notices → round.toNat ≠ x.nextRound →
      s.holdsRound p.val round.toNat = true → Completes (.abortNotice port p cause epoch origin round seq) s (fun u =>
        u.prtState p.val = prtHOLDING ∧ u.round p.val = round.toNat ∧
        u.getF pgETU (Reg.ETU_RCV_ABORT_ROUND.at p.val) = round.toNat ∧
        (1, epoch.toNat, origin.toNat, round.toNat) ∈ (u.part p.val).notices ∧
        copied u (noticeWords 1 p.val cause.toNat epoch.toNat origin.toNat (leBytes round.toNat 4 ++ leBytes seq.toNat 4)))) ∧
    (∀ cause round seq, (epoch.toNat < s.epoch p.val ∨ s.partRuns p.val = false) →
      Completes (.abortNotice port p cause epoch origin round seq) s (fun u =>
        u = { s with mgmt := { s.mgmt with clerkInbox := u.mgmt.clerkInbox } } ∧
        copied u (noticeWords 1 p.val cause.toNat epoch.toNat origin.toNat (leBytes round.toNat 4 ++ leBytes seq.toNat 4)))) ∧
    (∀ start : BitVec 64, epoch.toNat = s.epoch p.val → s.partRuns p.val = true → s.nt ≤ start.toNat * nsUnit →
      (2, epoch.toNat, origin.toNat, start.toNat) ∉ x.notices → Completes (.resumeNotice port p epoch origin start) s (fun u =>
        (u.part p.val).replayAt = some (start.toNat * nsUnit) ∧
        copied u (noticeWords 2 p.val 0 epoch.toNat origin.toNat (leBytes start.toNat 8)))) ∧
    (∀ district : BitVec 16, epoch.toNat = s.epoch p.val → s.partRuns p.val = true →
      (3, epoch.toNat, origin.toNat, district.toNat) ∉ x.notices →
      Completes (.rollcallNotice port p epoch origin district) s (fun u => district.toNat ∈ (u.part p.val).districts ∧
        copied u (noticeWords 3 p.val 0 epoch.toNat origin.toNat (leBytes district.toNat 2))))

/-- 1 ms after a roll call began a part with more than half of the districts, or half and the anchor, goes on, and the chip that
fails over its lost chips (the governor, its deputy or the lowest chip left) declares the silent ones failed; another part fences (10
R305, R308, R309). Which chips are silent, and that a chip not counted is lost to the part, are the model's readings (log entry 97). -/
def Claims.RollcallDecision : Prop :=
  ∀ (s : State) (p : PartId) (t : Nat) (im : Image),
    let x := s.part p.val
    let n := x.districts.length
    let d := im.districts.length
    let keeps := d < 2 * n ∨ (2 * n = d ∧ (im.districts.map (·.number)).foldl min 0xFFFF ∈ x.districts)
    let keeper := firstLeft im (fun c => !s.counted p.val c || x.lost.contains c)
    x.rollcall = some t → s.image p.val = some im → s.prtState p.val = prtHOLDING →
    Completes (.rollcallWindowExpiry p) s (fun u => t + 1000000 * nsUnit ≤ u.nt ∧
      (keeps → (s.mgmt.clerkUp = false ∨ x.link = false ∨ keeper ≠ s.chipId ∨ im.chips.filter (s.silent p.val im) = []) →
        u.prtState p.val = prtHOLDING ∧ u.part p.val = x) ∧
      (keeps → s.mgmt.clerkUp = true → x.link = true → keeper = s.chipId → u.prtState p.val = prtFENCED ∨
        (u.prtState p.val = prtHOLDING ∧ ∀ c ∈ im.chips, s.silent p.val im c = true → c ∈ (u.part p.val).lost)) ∧
      (¬ keeps → u.prtState p.val = prtFENCED))

/-- Abort, resume and roll-call notices. -/
def Obligations.Notices : Prop :=
  Claims.Notices ∧ Claims.RollcallDecision

/-- The replay start restores S_j: registers of every tile, STEP, the swap registers and the decision; the round is j again, in the
next epoch, and each tile with a stream starts at its entry; one that comes too late in a holdover fences (08 R241; 10 R292, R298, R300).
The model's choices: the swap kept for a failover (log entry 60), and that the planes are restored (log entry 92). -/
def Claims.ReplayStarts : Prop :=
  ∀ (s : State) (p : PartId) (z : RoundStart),
    let x := s.part p.val
    s.prtState p.val = prtHOLDING → s.replayDue p.val = true → s.gearDue x.nextNt = false → x.fenceAsked = false →
    (s.holdoverLong x.nextNt = true → Completes (.replayStart p) s (fun u => u.prtState p.val = prtFENCED)) ∧
    (s.holdoverLong x.nextNt = false → x.starts.find? (fun y => y.round == s.getF pgETU (Reg.ETU_RCV_ABORT_ROUND.at p.val)) = some z →
    Completes (.replayStart p) s (fun u =>
      u.prtState p.val = prtRUNNING ∧ u.round p.val = z.round % 2 ^ 32 ∧ x.nextNt ≤ u.nt ∧
      Counts s u pgETU (Reg.ETU_RCV_EPOCH.at p.val) 1 ∧ (u.part p.val).startNt = x.nextNt ∧
      (u.part p.val).decision = z.runs ∧ (u.part p.val).nextRound = (z.round + 1) % 2 ^ 32 ∧
      u.get64 (pgPRT p.val) Reg.PRT_STEP_LO Reg.PRT_STEP_HI = z.step % 2 ^ 64 ∧
      (∀ t ∈ s.tilesOf p.val, (u.tile t).arch = z.tiles.get t .reset) ∧
      ((∀ f ∈ x.failovers, f.detours = false) →
        u.gen p.val = z.gen % 2 ∧ u.getF pgICH (Reg.ICH_SWAP_ARM.at p.val) = z.arm % 2 ∧
        u.getF pgICH (Reg.ICH_SWAP_DRAINING.at p.val) = z.draining % 2 ∧ (u.part p.val).swapNt = z.swapNt ∧
        u.get64 pgICH (Reg.ICH_TT_SWAP_LO.at p.val) (Reg.ICH_TT_SWAP_HI.at p.val) = z.swapT % 2 ^ 64) ∧
      (∀ t ∈ s.ownTiles p.val, u.seqState t = (if z.runs then seqRUNNING else seqSKIPPED) ∧
        (u.tile t).seq = { Seq.reset with pc := s.getF (pgTIL t) Reg.TIL_SEQ_CODE_ENTRY })))

/-- A replay that completes without its incident shows a transient fault, counted; each unit whose hardware incident repeats is
retired, counted and logged; a repeat that is the image's, or a third attempt without one, fences (10 R301, R302; 12 R347). The index of
a unit in the log is the model's choice (log entries 33 and 71). -/
def Claims.ReplayComparison : Prop :=
  ∀ (s : State) (p : PartId),
    let x := s.part p.val
    let n := s.getF pgETU (Reg.ETU_RCV_ATTEMPTS.at p.val)
    let same := fun (a b : Fault4) => a.chip == b.chip && a.block == b.block && a.inst == b.inst && a.code == b.code
    let again := x.attempt.filter (fun a => x.lastAttempt.any (same a))
    s.mgmt.clerkUp = true →
    (n ≠ 0 → s.prtState p.val = prtRUNNING → s.round p.val ≠ s.getF pgETU (Reg.ETU_RCV_ABORT_ROUND.at p.val) →
      Completes (.replayCompare p) s (fun u => Counts s u pgETU Reg.ETU_TRANSIENT_COUNT 1 ∧
        u.getF pgETU (Reg.ETU_RCV_ATTEMPTS.at p.val) = 0 ∧ (u.part p.val).lastAttempt = [])) ∧
    (2 ≤ n → s.prtState p.val = prtHOLDING → Completes (.replayCompare p) s (fun u =>
      (∃ l : List Fault4, (∀ f ∈ l, f ∈ again ∧ repeatOf f.code = .hardware) ∧ (l.map s.faultUnit).Nodup ∧
        (∀ f ∈ again, repeatOf f.code = .hardware → s.faultUnit f ∈ l.map s.faultUnit) ∧
        u.mgmt.retireLog = s.mgmt.retireLog ++
          l.map (fun f => ⟨(s.faultUnit f).1, (s.faultUnit f).2, f.seq, f.syndrome, s.ns, 1, false⟩) ∧
        (l ≠ [] → Counts s u pgETU Reg.ETU_PERMANENT_COUNT l.length)) ∧
      ((∃ a ∈ again, repeatOf a.code = .image) → u.prtState p.val = prtFENCED) ∧
      ((∀ a ∈ again, repeatOf a.code ≠ .hardware) → 3 ≤ n → u.prtState p.val = prtFENCED)))

/-- Replay of a round and its comparison. -/
def Obligations.Replays : Prop :=
  Claims.ReplayStarts ∧ Claims.ReplayComparison

/-- Failover: the spare loads the lost chip's section, a changed chip arms the swap to its detour set with the T that the governor sent,
the twin streams and it and the spare, once resealed, report digests; where these agree the chip that fails it over, once every lost chip
of the part is restored, names a replay start at least one gear period ahead and not before any chip's T (10 R299, R306, R309). Which
handles are restorable, how they are streamed and their digest are the model's choices (log entry 98), and so are the messages between
Clerks (log entry 34). -/
def Obligations.Failovers : Prop :=
  ∀ (s : State) (p : PartId) (lost : BitVec 16) (im : Image),
    let c := lost.toNat
    let x := s.part p.val
    let staged := fun (u : State) (P : Failover → Prop) => ∃ f ∈ (u.part p.val).failovers, f.lost = c ∧ P f
    let spareOf := fun (z : Image) => (z.districts.find? (fun d => d.chips.contains c)).map (·.spare)
    let twin := fun (z : Image) => z.districts.any (fun d => d.twins.contains (c, s.chipId))
    let armed := fun (u : State) => u.getF pgICH (Reg.ICH_SWAP_ARM.at p.val)
    s.image p.val = some im → s.prtState p.val = prtHOLDING → s.mgmt.clerkUp = true →
    (∀ z, im.sections.find? (fun z => z.chip == c) = some z → s.isSpareOf p.val c = true →
      Completes (.failoverSectionLoaded p lost) s (fun u => staged u (fun f => f.sectionLoaded = true) ∧
        u.image p.val = some (replaceChip im c s.chipId) ∧ u.gen p.val = s.gen p.val ∧
        ∀ t ∈ s.tilesOf p.val, u.seqState t = seqHOLDING)) ∧
    (∀ d, im.detours.find? (fun d => d.lost == c && d.chip == s.chipId) = some d →
      Completes (.detourSetInstall p lost) s (fun u => staged u (fun f => f.detours = true) ∧ u.gen p.val = s.gen p.val ∧
        (∀ f t, s.failoverOf p.val c = some f → f.swapAt = some t → armed u = 1 ∧
          u.get64 pgICH (Reg.ICH_TT_SWAP_LO.at p.val) (Reg.ICH_TT_SWAP_HI.at p.val) = t % 2 ^ 64) ∧
        ((∀ f, s.failoverOf p.val c = some f → f.swapAt = none) → armed u = armed s))) ∧
    (∀ jm, s.failoverImage p.val c = some jm →
      ((twin jm = true ∨ spareOf jm ≠ some s.chipId ∨ s.resealed p.val = true) →
        Completes (.restorableStreamComplete p lost) s (fun u => staged u (fun f => f.streamed = true) ∧
          ((twin jm = true ∨ spareOf jm = some s.chipId) → s.keeperOf p.val jm [] = s.chipId →
            ∀ i, i < (restorableOf jm c).length → ∃ e ∈ u.gov.digests,
              e.part = p.val ∧ e.lost = c ∧ e.chip = s.chipId ∧ e.index = i))) ∧
      (twin jm = false → spareOf jm = some s.chipId → s.resealed p.val = false →
        Completes (.restorableStreamComplete p lost) s (fun u => u = s)) ∧
      (s.keeps p.val = true → s.digestsAgree p.val c jm = true → Completes (.failoverDigestCompare p lost) s (fun u =>
        staged u (fun f => f.digests = true) ∧
        ((∀ k ∈ x.lost, k = c ∨ ∃ f ∈ x.failovers, f.lost = k ∧ f.digests = true) →
          ∃ z, (u.part p.val).replayAt = some z ∧
            (∀ f ∈ (u.part p.val).failovers, ∃ t, f.swapAt = some t ∧ t * nsUnit ≤ z) ∧
            (0 < s.roundLen p.val → s.gear ≤ 5 → s.getB pgTMB Reg.TMB_GEAR_ARM = false →
              s.nt + 2 ^ 20 * nsUnit < z + nsUnit)) ∧
        ((∃ k ∈ x.lost, k ≠ c ∧ ∀ f ∈ x.failovers, f.lost = k → f.digests = false) →
          (u.part p.val).replayAt = x.replayAt))))

/-- A write to a tenant's ingest window, by the first step of 11 R321 that applies: a write that is no descriptor is counted,
one of a replayed partition ignored and counted, a bad descriptor completed with its status, one beyond the queue or the
quota overrun; any other is fetched. Pointers whose copies differ are reported then (11 R331). -/
def Claims.IngestWrites : Prop :=
  ∀ (s : State) (t : TenantId) (off : BitVec 16) (bytes : List Byte),
    let p := s.partOfTenant t.val
    let d := Desc.parse bytes (s.lbReserves p)
    let runs := fun (P : State → Prop) => Completes (.ingestWindowWrite t off bytes) s P
    let bad := s.badDesc t.val d (leNat (slice bytes 12 16))
    let fits := (s.tenant t.val).occ < 64 ∧ payloadCells d.len ≤ s.freeCells t.val ∧ (s.lbReserves p = true → s.lbRoom d.len = true)
    let good := fun (d : Desc) => { d with win := s.hif.winSeq }
    s.vfExists t.val = true → s.dmaOk = true →
    ((off.toNat ≠ 0x1000 ∨ bytes.length ≠ 64) → runs (fun u => Counts s u (pgVF t.val) Reg.VF_IGQ_BADWR_COUNT 1 ∧
      u.hif = s.hif)) ∧
    (off.toNat = 0x1000 → bytes.length = 64 →
      (s.getB pgHIF (Reg.HIF_RP_CTL_EN.at p) = true → runs (fun u => Counts s u pgHIF (Reg.HIF_RP_IGN_COUNT.at p) 1 ∧
        u.hif = s.hif)) ∧
      (s.getB pgHIF (Reg.HIF_RP_CTL_EN.at p) = false →
        ((s.tenantOn t.val = false ∨ s.inTeardown t.val = true) → runs (fun u =>
          Counts s u (pgVF t.val) Reg.VF_IGQ_BADWR_COUNT 1 ∧ u.hif = s.hif)) ∧
        (s.tenantOn t.val = true → s.inTeardown t.val = false →
          (∀ st, bad = some st → runs (fun u => (u.tenant t.val).results =
            (s.tenant t.val).results ++ [⟨st, true, d.tag, 0xFFFFFFFF, 0xFFFF, [], none⟩])) ∧
          (bad = none → s.upsets.any (upPointer t.val) = true → runs (fun u => Reports s u 0x3008 pgIGQ)) ∧
          (bad = none → s.upsets = [] → ¬ fits → runs (fun u => u.getV t.val Reg.VF_IGQ_STAT_OVR = 1 ∧
            Counts s u (pgVF t.val) Reg.VF_IGQ_OVRCNT_COUNT 1 ∧ (u.tenant t.val).fetching = (s.tenant t.val).fetching)) ∧
          (bad = none → s.upsets = [] → fits → runs (fun u => (u.tenant t.val).fetching = (s.tenant t.val).fetching ++ [good d] ∧
            ∃ l, u.sent = s.sent ++ l ++ [.fetch t.val d.addr d.len])))))

/-- The last byte of a payload accepts its descriptor into the filling bank, with the NT and the bytes fetched, before those that
come later in 11 R322's order; a fetch that fails completes it with DMAERR (11 R322). The ROUND of that completion is a free value (log entry 26). -/
def Claims.PayloadFetches : Prop :=
  ∀ (s : State) (t : TenantId) (i : BitVec 6) (d : Desc),
    let x := s.tenant t.val
    let a := { d with nt := s.nt, payload := s.hostRead d.addr d.len }
    x.fetching[i.toNat]? = some d →
    (s.dmaOk = true → s.upsets = [] → Completes (.descriptorAccept t i) s (fun u =>
      (u.tenant t.val).filling = x.filling.takeWhile (fun b => !b.later a) ++ a :: x.filling.dropWhile (fun b => !b.later a) ∧
      (u.tenant t.val).fetching = x.fetching.eraseIdx i.toNat)) ∧
    Completes (.payloadFetchFailure t i) s (fun u => (u.tenant t.val).fetching = x.fetching.eraseIdx i.toNat ∧
      (u.tenant t.val).filling = x.filling ∧
      ∃ n, (u.tenant t.val).results = x.results ++ [⟨csDMAERR, true, d.tag, n, 0xFFFF, [], none⟩])

/-- Ingest window writes and payload fetches. -/
def Obligations.IngestQueues : Prop :=
  Claims.IngestWrites ∧ Claims.PayloadFetches

/-- An ingest-distribution run writes the slot of its entry: header, payload and zeros (11 R326, Table 5). Here: a slot of one
unit. -/
def Claims.IngestDistribution : Prop :=
  ∀ (s : State) (e : BitVec 15) (h : HostRun),
    let hd := s.handle h.tile h.handle
    let c := s.collection h.part (s.round h.part)
    let g := c.bind (fun c => c.entries.find? (fun g => g.tenant == h.tenant && g.rslot == h.rslot))
    let l := toWords 32 (slotBytes g (match c with | some c => c.nt | none => 0) 1)
    s.hostRun e.toNat false = some h → s.prtState h.part = prtRUNNING → s.tileInReset h.tile = false → s.upsets = [] →
    h.units = 1 → (∀ z, g = some z → z.removed = false) → FabricPasses s ⟨hostPort, h.beat, h.tile, h.handle, h.off, cFAR, true, some h.tenant⟩ h.beat →
    s.inspMode h.tile h.handle = .off → Calm s (pgTIL h.tile) →
    Completes (.ingestDistributionRun e) s (fun u => s.beatNt h.part h.beat ≤ u.nt ∧
      (∀ k, k < 32 → (u.tile h.tile).spd.get (wordKey hd.col (hd.phys h.off) k) 0 = storeWord (l.getD k 0) false false) ∧
      (∀ j, (∀ k, k < 32 → j ≠ wordKey hd.col (hd.phys h.off) k) →
        (u.tile h.tile).spd.get j 0 = (s.tile h.tile).spd.get j 0))

/-- A result run delivers a valid frame: its TAG, the round and its bytes wait for the tenant's ring, in the order of BEAT and
entry index (11 R332). Here: a slot of two units, read clean. -/
def Claims.ResultRuns : Prop :=
  ∀ (s : State) (e : BitVec 15) (h : HostRun) (w d : List Word),
    let hd := s.handle h.tile h.handle
    let len := (w.getD 0 0).toNat
    let tag := (w.getD 2 0).toNat + 2 ^ 32 * (w.getD 3 0).toNat
    let n := s.round h.part
    let x := s.tenant h.tenant
    let it : ResultItem := ⟨csOK, false, tag, n, h.rslot, (wordBytes (d.take ((len + 3) / 4))).take len, some (h.beat, e.toNat)⟩
    s.hostRun e.toNat true = some h → s.roundRuns h.part = true → s.tileInReset h.tile = false → s.upsets = [] → h.units = 2 →
    FabricPasses s ⟨hostPort, h.beat, h.tile, h.handle, h.off, cFDP, false, some h.tenant⟩ h.beat →
    FabricPasses s ⟨hostPort, h.beat, h.tile, h.handle, h.off + 1, cFDP, false, some h.tenant⟩ (h.beat + 1) →
    s.inspMode h.tile h.handle = .off → w.length = 32 → d.length = 32 →
    (∀ k, k < 32 → (s.tile h.tile).spd.get (wordKey hd.col (hd.phys h.off) k) 0 = storeWord (w.getD k 0) false false ∧
      (s.tile h.tile).spd.get (wordKey hd.col (hd.phys (h.off + 1)) k) 0 = storeWord (d.getD k 0) false false) →
    w.getD 1 0 = 1 → 64 ≤ len → len ≤ 128 →
    ((h.tenant, n, h.rslot) ∉ (s.part h.part).delivered → s.ringOpen h.tenant = true →
      (∀ r ∈ x.results, r.noframe = false → r.rslot = h.rslot → r.round % 2 ≠ n % 2) →
      Completes (.resultRun e) s (fun u =>
        (u.tenant h.tenant).results =
          x.results.takeWhile (fun b => !it.after b) ++ it :: x.results.dropWhile (fun b => !it.after b) ∧
        (u.part h.part).delivered = (s.part h.part).delivered ++ [(h.tenant, n, h.rslot)])) ∧
    ((h.tenant, n, h.rslot) ∈ (s.part h.part).delivered → Completes (.resultRun e) s (fun u =>
      (u.tenant h.tenant).results = x.results ∧ Counts s u pgHIF Reg.HIF_RES_DUP_COUNT 1))

/-- Host runs: ingest distribution and results. -/
def Obligations.HostRuns : Prop :=
  Claims.IngestDistribution ∧ Claims.ResultRuns

/-- The oldest item of a tenant is written to its ring: a completion consumes the posted entry and raises RES; with no entry
posted the ring stops and the item is lost; a closed ring drops it, a stopped one loses it (11 R333, R334). That an item already queued
is dropped where its ring is closed when it is written is the model's reading (log entry 70). -/
def Claims.ResultRingWrites : Prop :=
  ∀ (s : State) (t : TenantId) (r : ResultItem) (l : List ResultItem),
    let pg := pgVF t.val
    let head := s.getV t.val Reg.VF_RR_HEAD_COUNT
    let ctl := bit (head / s.rrSize t.val % 2 == 0) 31 + 2 ^ 30 + 2 ^ 29 + r.rslot % 65536
    let entry := fun (u : State) (bytes ctl : Nat) =>
      Counts s u pg Reg.VF_RR_HEAD_COUNT 1 ∧ (u.getV t.val Reg.VF_INT_STAT_CAUSE).testBit icRES = true ∧
        u.hostRead (s.rrEntry t.val + 12) 20 = leBytes bytes 4 ++ leBytes r.tag 8 ++ leBytes r.round 4 ++ leBytes ctl 4
    (s.tenant t.val).results = r :: l →
    (s.ringOpen t.val = false → Completes (.resultFrameWrite t) s (fun u => (u.tenant t.val).results = l ∧
      Counts s u pgHIF Reg.HIF_RES_DROP_COUNT 1 ∧ u.hostMem = s.hostMem)) ∧
    (s.ringOpen t.val = true → s.getV t.val Reg.VF_RR_STAT_STOPPED = 1 → Completes (.resultFrameWrite t) s (fun u =>
      (u.tenant t.val).results = l ∧ Counts s u pg Reg.VF_RR_LOST_COUNT 1 ∧ u.hostMem = s.hostMem)) ∧
    (s.ringOpen t.val = true → s.getV t.val Reg.VF_RR_STAT_STOPPED = 0 →
      (s.rrEmpty t.val = true → Completes (.resultFrameWrite t) s (fun u => (u.tenant t.val).results = l ∧
        Counts s u pg Reg.VF_RR_LOST_COUNT 1 ∧ u.getV t.val Reg.VF_RR_STAT_STOPPED = 1)) ∧
      (s.rrEmpty t.val = false → (s.rrBuffer t.val).2.2 = true → r.noframe = true →
        Completes (.resultFrameWrite t) s (fun u => (u.tenant t.val).results = l ∧
          entry u 0 (ctl + 2 ^ 28 + r.status * 2 ^ 16))) ∧
      (s.rrEmpty t.val = false → (s.rrBuffer t.val).2.2 = true → r.noframe = false → r.data.length ≤ (s.rrBuffer t.val).2.1 →
        Completes (.resultFrameWrite t) s (fun u => (u.tenant t.val).results = l ∧ entry u r.data.length ctl)))

/-- A tenant's ring control and interrupts: TAIL moves unless it would overrun the ring, EN starts both counts at 0, a held-off
interrupt is sent after HOLDOFF, and unmasking sends what is pending (11 R333, R335). -/
def Claims.RingControlAndInterrupts : Prop :=
  ∀ (s : State) (t : TenantId),
    (∀ v : BitVec 32, s.vfExists t.val = true →
      let n := (v.toNat + 2 ^ 32 - s.getV t.val Reg.VF_RR_HEAD_COUNT) % 2 ^ 32
      Completes (.resultRingTailWrite t v) s (fun u =>
        (n ≤ s.rrSize t.val → u.getV t.val Reg.VF_RR_TAIL_COUNT = v.toNat ∧
          (1 ≤ n → (s.tenant t.val).ringBad = false → u.getV t.val Reg.VF_RR_STAT_STOPPED = 0)) ∧
        (s.rrSize t.val < n → u.getV t.val Reg.VF_RR_STAT_ERR = 1 ∧
          u.getV t.val Reg.VF_RR_TAIL_COUNT = s.getV t.val Reg.VF_RR_TAIL_COUNT))) ∧
    (s.vfExists t.val = true → s.inTeardown t.val = false → s.getV t.val Reg.VF_RR_CTL_EN = 0 →
      Completes (.resultRingEnable t) s (fun u => u.getV t.val Reg.VF_RR_CTL_EN = 1 ∧
        u.getV t.val Reg.VF_RR_HEAD_COUNT = 0 ∧ u.getV t.val Reg.VF_RR_TAIL_COUNT = 0 ∧
        u.getV t.val Reg.VF_RR_STAT_ERR = 0 ∧ u.getV t.val Reg.VF_RR_STAT_STOPPED = 0 ∧ (u.tenant t.val).ringBad = false)) ∧
    (∀ (v : BitVec 3) z, (s.vector (t.val + 1) v.toNat).since = some z → (s.vector (t.val + 1) v.toNat).masked = false →
      s.dmaOk = true → Completes (.interruptHoldoffExpiry t v) s (fun u =>
        (u.vector (t.val + 1) v.toNat).since = none ∧
        u.sent = s.sent ++ [.msix (t.val + 1) v.toNat (s.vector (t.val + 1) v.toNat).addr (s.vector (t.val + 1) v.toNat).data] ∧
        z + s.getF pgHIF (Reg.HIF_QOS_HOLDOFF.at (s.getT t.val Reg.IGQ_T_CFG_CLASS)) * 16 * nsUnit ≤ u.nt)) ∧
    (∀ (fn : Fin 513) (v : BitVec 6), (fn.val = 0 ∨ (v.toNat < 8 ∧ s.vfExists (fn.val - 1) = true)) →
      (s.vector fn.val v.toNat).pending = true → s.dmaOk = true → Completes (.msixUnmask fn v) s (fun u =>
        (u.vector fn.val v.toNat).masked = false ∧ (u.vector fn.val v.toNat).pending = false ∧
        u.sent = s.sent ++ [.msix fn.val v.toNat (s.vector fn.val v.toNat).addr (s.vector fn.val v.toNat).data]))

/-- Result rings and interrupts. -/
def Obligations.ResultRings : Prop :=
  Claims.ResultRingWrites ∧ Claims.RingControlAndInterrupts

/-- FLR empties the tenant's queue and ring and asks for its teardown, which revokes its lease and clears its handles; the
teardown ends when no tile has a clear of it left; one that comes after the NT of a collection still to be made waits for it. A
conventional reset does so for every tenant (11 R318, R337). -/
def Obligations.ResetsOfTenants : Prop :=
  ∀ (s : State) (t : TenantId),
    let st := s.prtState (s.partOfTenant t.val)
    let empty := fun (u : State) =>
      let y := u.tenant t.val
      y.fetching = [] ∧ y.filling = [] ∧ y.results = [] ∧ y.vectors = [] ∧ y.full = false ∧ y.teardown ≠ .none
    (s.vfExists t.val = true → Completes (.vfFlr t) s (fun u => empty u ∧
      Counts s u pgHIF Reg.HIF_RES_DROP_COUNT (s.tenant t.val).results.length ∧
      u.getV t.val Reg.VF_RR_CTL_EN = 0 ∧
      (st ≠ prtRUNNING → st ≠ prtHOLDING → (s.tenant t.val).teardown = .none →
        (∀ c, s.nextCollection (s.partOfTenant t.val) = some c → s.nt < c) → (u.tenant t.val).teardown = .clearing ∧
        u.get64 (pgIGT t.val) Reg.IGQ_T_LEASE_LO Reg.IGQ_T_LEASE_HI = 0) ∧
      (∀ c, (s.tenant t.val).teardown = .none → s.nextCollection (s.partOfTenant t.val) = some c → c ≤ s.nt →
        (u.tenant t.val).teardown = .asked ∧ (u.tenant t.val).held = (s.tenant t.val).filling))) ∧
    ((s.tenant t.val).teardown = .clearing → (∀ e ∈ s.tiles, ∀ j ∈ e.2.clear, j.tenant ≠ some t.val) →
      Completes (.teardownComplete t) s (fun u => (u.tenant t.val).teardown = .none ∧
        u.getF pgHIF Reg.HIF_TD_STAT_DONE = 1 ∧ u.getF pgHIF Reg.HIF_TD_STAT_LAST = t.val)) ∧
    (∀ down, s.vfExists t.val = true → Completes (.pcieConventionalReset down) s (fun u => empty u ∧
      u.getF pgHIF Reg.HIF_LB_CTL_EN = 0 ∧ u.getF pgETU Reg.ETU_CTL_EN = 0 ∧ u.hif.lbWriting = [] ∧
      (down = true → u.dmaOk = false)))

/-- The configuration of the tenant that IGQ_SEL names: a queue configuration with its watermarks out of order or in teardown, and one or a
quota of an enabled tenant that the host area does not hold, is ignored, and any other takes effect, but for PART, which changes only
while EN is 0; a lease is written unless its tenant is in teardown, and too late for a collection that has come; the host area only while
nothing uses it; VF Enable and the link's training (11 R317, R318, R323, R324, R329, R337, R339, R340). -/
def Obligations.TenantConfiguration : Prop :=
  ∀ (s : State) (t : TenantId) (v : BitVec 32),
    let pg := pgIGT t.val
    let w := fun (f : Fld) => bits v.toNat f.hi f.lo
    let hwm := w Reg.IGQ_T_CFG_HWM
    let lwm := w Reg.IGQ_T_CFG_LWM
    let en := w Reg.IGQ_T_CFG_EN
    let on := s.getT t.val Reg.IGQ_T_CFG_EN = 1
    let legal := s.inTeardown t.val = false ∧ 0 < hwm ∧ hwm ≤ 64 ∧ lwm < hwm
    let fits := (s.setF pg Reg.IGQ_T_CFG_EN 1).areaFits = true
    let quota := s.setF pg Reg.IGQ_T_QUOTA_CELLS v.toNat
    s.selTenant = t.val →
    (¬ legal → Completes (.igqConfigWrite v) s (fun u => u = s)) ∧
    (legal → en = 1 → ¬ fits → Completes (.igqConfigWrite v) s (fun u => u = s)) ∧
    (legal → (en = 0 ∨ fits) → Completes (.igqConfigWrite v) s (fun u =>
      (∀ f ∈ [Reg.IGQ_T_CFG_EN, Reg.IGQ_T_CFG_GROUP, Reg.IGQ_T_CFG_CLASS, Reg.IGQ_T_CFG_HWM, Reg.IGQ_T_CFG_LWM],
        u.getT t.val f = w f) ∧
      (on → u.getT t.val Reg.IGQ_T_CFG_PART = s.getT t.val Reg.IGQ_T_CFG_PART) ∧
      (¬ on → u.getT t.val Reg.IGQ_T_CFG_PART = w Reg.IGQ_T_CFG_PART))) ∧
    (on → quota.areaFits = false → Completes (.igqQuotaWrite v) s (fun u => u = s)) ∧
    ((¬ on ∨ quota.areaFits = true) → Completes (.igqQuotaWrite v) s (fun u => u = quota)) ∧
    (∀ hi, (s.inTeardown t.val = true → Completes (.leaseWrite hi v) s (fun u => u = s)) ∧
      (s.inTeardown t.val = false → Completes (.leaseWrite hi v) s (fun u =>
        u.getT t.val (if hi then Reg.IGQ_T_LEASE_HI else Reg.IGQ_T_LEASE_LO) = v.toNat ∧
        (∀ c, s.dueCollection t.val = some c → (s.tenant t.val).leaseWas = none →
          u.leaseAt t.val c = s.get64 pg Reg.IGQ_T_LEASE_LO Reg.IGQ_T_LEASE_HI)))) ∧
    (∀ lim, (s.tenantsOn = [] → s.anyRuns = false → Completes (.hostAreaWrite lim v) s (fun u =>
        u = (if lim then s.setF pgHIF Reg.HIF_HA_LIMIT_CELL (min (bits v.toNat 16 0) 0x1A000)
          else s.setF pgHIF Reg.HIF_HA_BASE_CELL v.toNat))) ∧
      ((s.tenantsOn ≠ [] ∨ s.anyRuns = true) → Completes (.hostAreaWrite lim v) s (fun u => u = s))) ∧
    (∀ width rate, Completes (.pcieLinkUp width rate) s (fun u => u.dmaOk = true ∧
      u.getF pgHIF Reg.HIF_STAT_WIDTH = width.toNat ∧ u.getF pgHIF Reg.HIF_STAT_RATE = rate.toNat)) ∧
    (∀ n, Completes (.vfEnable false n) s (fun u => u.hif.vfEnable = false ∧ u.tenantsOn = [])) ∧
    (∀ n, Completes (.vfEnable true n) s (fun u => u.hif.vfEnable = true ∧ u.hif.numVfs = min 512 n.toNat ∧
      (∀ k, k < 512 → k + 1 ≤ n.toNat → s.vfExists k = false → u.getV k Reg.VF_RR_CTL_EN = 0)))

/-- The Letterbook: EN rising starts both counts at 0 with nothing under way; a record fully written moves HEAD past it and its
bytes stand in the ring; and a partition that runs no image can be made to replay (09 R271, R273, R275). -/
def Obligations.Letterbook : Prop :=
  ∀ (s : State),
    (∀ v : BitVec 32, v.getLsbD 31 = true → s.getB pgHIF Reg.HIF_LB_CTL_EN = false → Completes (.letterbookEnable v) s (fun u =>
      u.getF pgHIF Reg.HIF_LB_CTL_EN = 1 ∧ u.getF pgHIF Reg.HIF_LB_CTL_MODE = bit (v.getLsbD 30) 0 ∧
      u.getF pgHIF Reg.HIF_LB_HEAD_BYTES = 0 ∧ u.getF pgHIF Reg.HIF_LB_TAIL_BYTES = 0 ∧ u.hif.lbWriting = [] ∧
      u.hif.lbSeq = s.hif.lbSeq)) ∧
    (∀ v : BitVec 32, (v.getLsbD 31 = false ∨ s.getB pgHIF Reg.HIF_LB_CTL_EN = true) → Completes (.letterbookEnable v) s (fun u =>
      RegsOnly s u ∧ u.getF pgHIF Reg.HIF_LB_CTL_EN = bit (v.getLsbD 31) 0)) ∧
    (∀ r l, s.hif.lbWriting = r :: l → s.dmaOk = true → r.bytes.length ≤ s.lbSize → Completes .letterbookHeadAdvance s (fun u =>
      let base := s.get64 pgHIF Reg.HIF_LB_BASE_LO Reg.HIF_LB_BASE_HI
      u.hif.lbWriting = l ∧ Counts s u pgHIF Reg.HIF_LB_HEAD_BYTES r.bytes.length ∧
      u.ringRead (base - base % 4096) s.lbSize (s.getF pgHIF Reg.HIF_LB_HEAD_BYTES) r.bytes.length = r.bytes)) ∧
    (∀ p : PartId, s.prtState p.val ≤ prtLOADED → Completes (.replayEnable p) s (fun u =>
      u = s.setF pgHIF (Reg.HIF_RP_CTL_EN.at p.val) 1)) ∧
    (∀ p : PartId, prtLOADED < s.prtState p.val → Completes (.replayEnable p) s (fun u => u = s))

/-- The mailbox: GET_STATUS answers with MGT_BOOT, the retired units and the SVN; an unknown OP ends with BADOP, a GO while
BUSY is ignored and flagged, and before the part is ready the Clerk's commands end with NOTREADY and change nothing else. Over
SMBus, at the module's own address, GET_STATUS answers, or says NOTREADY without main power, and another command but a level 4 reset
ends with STATE (12 R346 to R349; 14 R394). That an answer over SMBus is a message of the model is log entry 80. -/
def Claims.MailboxAnswers : Prop :=
  ∀ (s : State),
    let words := [s.regWord pgMGT 0x180, s.retiredUnits.length, s.mgmt.runningSvn]
    (s.asks 0x01 = true → Completes (.getStatus .host) s (fun u => Answers s u msOK ∧ Results u words ∧ Untouched s u)) ∧
    (∀ a : BitVec 7, (s.module.aux = true ∧ a.toNat = 0x40 + s.module.pos.toNat % 16) →
      (s.module.powered = true → Completes (.getStatus (.smbus a)) s (fun u => u = s.emit (.message (0x01 :: msOK :: words)))) ∧
      (s.module.powered = false → Completes (.getStatus (.smbus a)) s (fun u => u = s.emit (.message [0x01, msNOTREADY]))) ∧
      (∀ op : BitVec 8, op ≠ 0x01 → op ≠ 0x15 → s.module.powered = true → Completes (.mailboxUnknownOp (some (a, op))) s (fun u =>
        u = s.emit (.message [op.toNat, msSTATE])))) ∧
    (∀ a : BitVec 7, ¬ (s.module.aux = true ∧ a.toNat = 0x40 + s.module.pos.toNat % 16) →
      ∀ op, ∀ c ∈ [Instr.getStatus (.smbus a), .mailboxUnknownOp (some (a, op)), .chipReset (.smbus a)],
        Completes c s (fun u => u = s)) ∧
    (s.mailboxWaits = true → s.mailboxOp ∉ mailboxOps → Completes (.mailboxUnknownOp none) s (fun u =>
      Answers s u msBADOP ∧ Untouched s u)) ∧
    (s.getB pgMGT Reg.MGT_RSP_BUSY = true → Completes .mailboxGoIgnored s (fun u => u = s.setF pgMGT Reg.MGT_RSP_IGNORED 1)) ∧
    (∀ img results c op,
      (c, op) ∈ [(Instr.ledgerDump, 0x02), (.retireLog, 0x03), (.partitionSet, 0x10), (.imageLoad img, 0x11),
        (.imageUnload, 0x12), (.launch, 0x13), (.stop, 0x14), (.fieldScan results, 0x16)] →
      s.asks op = true → s.isReady = false → Completes c s (fun u => Answers s u msNOTREADY ∧ Untouched s u))

/-- LEDGER_DUMP and RETIRE_LOG write their entries to host memory; a misaligned address and a link down end the command
(12 R347, R348). -/
def Claims.HostDumps : Prop :=
  ∀ (s : State),
    let a := s.arg64 0
    let l := s.mgmt.retireLog.take (s.arg 2 / 32)
    (Served s 0x02 → a % 64 = 0 → s.dmaOk = true → Completes .ledgerDump s (fun u => Answers s u msOK ∧
      u.hostRead a 752 = allPorts.flatMap (fun x => leBytes x 1 ++ leBytes (s.linkState x) 1 ++ leBytes (s.peerChip x) 2 ++
        leBytes (s.getL x Reg.ICL_LEDGER0_PEER_PORT) 1 ++ [0, 0, 0] ++ leBytes (s.getL x Reg.ICL_LEDGER1_LAT_NS) 2 ++
        leBytes (s.getL x Reg.ICL_LEDGER1_RPL_NS) 2 ++ [0, 0, 0, 0]))) ∧
    (Served s 0x03 → a % 64 = 0 → s.dmaOk = true → s.arg 2 < 2 ^ 32 → Completes .retireLog s (fun u => Answers s u msOK ∧
      Results u [l.length] ∧ u.hostRead a (32 * l.length) = l.flatMap (fun e => leBytes e.kind 2 ++ leBytes e.index 2 ++
        leBytes e.seq 4 ++ leBytes e.syndrome 8 ++ leBytes e.nt 8 ++ leBytes e.state 1 ++ [0, 0, 0, 0, 0, 0, 0]))) ∧
    (∀ c op, (c, op) ∈ [(Instr.ledgerDump, 0x02), (.retireLog, 0x03)] → Served s op →
      (a % 64 ≠ 0 → Completes c s (fun u => Answers s u msBADARG ∧ Untouched s u)) ∧
      (a % 64 = 0 → s.dmaOk = false → Completes c s (fun u => Answers s u msDMAERR ∧ Untouched s u)))

/-- Mailbox answers and dumps to host memory. -/
def Obligations.Mailbox : Prop :=
  Claims.MailboxAnswers ∧ Claims.HostDumps

/-- PARTITION_SET gives the regions to the partitions asked for and resets those that move, unless a partition with an image
is touched (12 R364). -/
def Obligations.PartitionSet : Prop :=
  ∀ (s : State),
    let asked := fun (r : Nat) => s.arg 0 / 4 ^ r % 4
    let moves := fun (r : Nat) => r ∈ s.regions ∧ s.ownsRegion (asked r) r = false
    let image := fun (r : Nat) => (∃ p, s.partOfRegion r = some p ∧ s.holdsImage p = true) ∨ s.holdsImage (asked r) = true
    Served s 0x10 →
    ((∃ r, moves r ∧ image r) → Completes .partitionSet s (fun u => Answers s u msSTATE ∧ Untouched s u)) ∧
    ((∀ r, moves r → ¬ image r) → s.getF pgDEV Reg.DEV_CAPS_REGIONS ≤ 16 → s.mgmt.resets = [] →
      Completes .partitionSet s (fun u => Answers s u msOK ∧
        (∀ p r, p < 4 → r ∈ s.regions → u.ownsRegion p r = decide (asked r = p)) ∧
        (∀ r, moves r → Scope.region r ∈ u.mgmt.resets ∧ ∀ i, i < 16 → TileReset s u (16 * r + i)) ∧
        (∀ p, p < 4 → s.holdsImage p = false →
          u.prtState p = (if ∃ r ∈ s.regions, asked r = p then prtEMPTY else prtNOREGIONS))))

/-- FIELD_SCAN of a region: its result, the retirement log, a reset of the region, which is over when it calibrates and clears, and
its scratchpad cleared; a retired tile that passes is reinstated as a suspected image fault, and CAL_OK follows the calibration. A
region that the part lacks or that a loaded image uses is not scanned (12 R368 to R370). What the outcome bits stand for is the
model's (log entry 103). -/
def Claims.FieldScan : Prop :=
  ∀ (s : State) (r : RegionId) (results : List (BitVec 20)),
    let v := (results.getD r.val 0).toNat
    let unit := fun (k : Nat) => (1, 17 * s.physRegion r.val + k)
    Served s 0x16 → s.arg 0 % 65536 = 2 ^ r.val →
    (s.getF pgDEV Reg.DEV_CAPS_REGIONS ≤ r.val → Completes (.fieldScan results) s (fun u => Answers s u msBADARG ∧ Untouched s u)) ∧
    (r.val < s.getF pgDEV Reg.DEV_CAPS_REGIONS →
      (∀ p, s.partOfRegion r.val = some p → s.holdsImage p = true →
        Completes (.fieldScan results) s (fun u => Answers s u msSTATE ∧ Untouched s u)) ∧
      ((∀ p, s.partOfRegion r.val = some p → s.holdsImage p = false) → s.mgmt.resets = [] →
        Completes (.fieldScan results) s (fun u => Answers s u msOK ∧ Results u [if v = 2 ^ 20 - 1 then 2 ^ r.val else 0] ∧
          u.getF pgFSC (Reg.FSC_RESULT_TILES.at r.val) = v % 2 ^ 17 ∧ u.getF pgFSC (Reg.FSC_RESULT_VAULT.at r.val) = v / 2 ^ 17 % 2 ∧
          (∀ k, k < 17 → (v.testBit k = false → unit k ∈ u.retiredUnits) ∧ (v.testBit k = true → unit k ∉ u.retiredUnits)) ∧
          (∀ k e, k < 17 → v.testBit k = true → e ∈ s.mgmt.retireLog → e.kind = 1 → e.index = 17 * s.physRegion r.val + k →
            e.state = 1 → { e with state := 2, suspect := true } ∈ u.mgmt.retireLog) ∧
          (u.getF pgMGT Reg.MGT_BOOT_CAL_OK).testBit r.val = v.testBit 18 ∧ Scope.region r.val ∉ u.mgmt.resets ∧
          ∀ i, i < 16 → u.seqState (16 * r.val + i) = seqHALTED ∧ (u.tile (16 * r.val + i)).spd = [] ∧
            (u.tile (16 * r.val + i)).rv = [] ∧ (u.tile (16 * r.val + i)).retained = [])))

/-- The Clerk's watchdog restarts it: running partitions go on, a command in progress ends with RESTART, and a poll for a gear
change is over. The restart takes
the valid copy with the higher SVN, A when they are equal, and the Clerk has the records kept for it; with none the part is in
recovery (12 R343, R350). -/
def Claims.ClerkRestart : Prop :=
  ∀ (s : State),
    (s.mgmt.clerkUp = true → Completes .clerkWatchdogExpiry s (fun u => u.mgmt.clerkUp = false ∧
      Counts s u pgMGT Reg.MGT_CLERKRST_COUNT 1 ∧ u.tiles = s.tiles ∧ u.parts = s.parts ∧ u.links = s.links ∧ u.ich = s.ich ∧
      u.gov.poll = none ∧
      ((s.mgmt.mbxScope.isSome = true ∨ s.gov.launching.isSome = true) → u.getF pgMGT Reg.MGT_RSP_DONE = 1 ∧ u.getF pgMGT Reg.MGT_RSP_BUSY = 0 ∧
        u.getF pgMGT Reg.MGT_RSP_STATUS = msRESTART ∧ u.mgmt.mbxScope = none))) ∧
    (s.mgmt.clerkUp = false → s.mgmt.runningCopy ≠ none → s.module.flashBoard = false → 2 ≤ s.getF pgMGT Reg.MGT_BOOT_STAGE →
      let best := match s.mgmt.copyA.filter s.imageValid, s.mgmt.copyB.filter s.imageValid with
        | some a, some b => if b.svn ≤ a.svn then some (false, a) else some (true, b)
        | some a, none => some (false, a)
        | none, some b => some (true, b)
        | none, none => none
      (∀ b i, best = some (b, i) → Completes .clerkRestartComplete s (fun u => u.mgmt.clerkUp = true ∧
        u.mgmt.runningCopy = some b ∧ u.mgmt.runningSvn = i.svn ∧ u.mgmt.clerkRecords = [])) ∧
      (best = none → Completes .clerkRestartComplete s (fun u => u.mgmt.clerkUp = false ∧
        u.getF pgMGT Reg.MGT_BOOT_STAGE = 0xF)))

/-- Field scan, and a restart of the Clerk. -/
def Obligations.FieldScanAndRestart : Prop :=
  Claims.FieldScan ∧ Claims.ClerkRestart

/-- FUSE_READ returns a word, 0 for the device secret and reserved words. FUSE_PROGRAM blows the 1 bits of an authorisation
that passes every check, and nothing otherwise; the nonce is new, a free value, after every outcome (12 R353 to R355). -/
def Claims.Fuses : Prop :=
  ∀ (s : State),
    (∀ w, s.asks 0x20 = true → s.arg 0 = w →
      (w ≤ 0x82 → Completes .fuseRead s (fun u => Answers s u msOK ∧ Results u [s.fuse w] ∧ Untouched s u)) ∧
      (0x82 < w → w ≤ 0xFF → Completes .fuseRead s (fun u => Answers s u msOK ∧ Results u [0] ∧ Untouched s u)) ∧
      (0xFF < w → Completes .fuseRead s (fun u => Answers s u msBADARG ∧ Untouched s u))) ∧
    (∀ a : FuseAuth, s.asks 0x21 = true → s.isReady = true → s.arg64 0 % 64 = 0 → s.dmaOk = true →
      let runs := Completes (.fuseProgram (some a)) s
      let nonce := fun (u : State) => ∃ n, u.get64 pgMGT Reg.MGT_NONCE_LO Reg.MGT_NONCE_HI = Config.free n % 2 ^ 64
      let formed := a.pairs ≠ [] ∧ a.pairs.length ≤ 16 ∧ s.arg 2 = 116 + 8 * a.pairs.length
      let signed := s.keyGood a.key = true ∧ a.serial.toNat = s.fuse 0x081 + 2 ^ 32 * s.fuse 0x082 ∧
        a.nonce.toNat = s.get64 pgMGT Reg.MGT_NONCE_LO Reg.MGT_NONCE_HI
      ((∃ p, p < 4 ∧ prtRUNNING ≤ s.prtState p) → runs (fun u => Answers s u msSTATE ∧ u.mgmt.fuses = s.mgmt.fuses ∧ nonce u)) ∧
      ((∀ p, p < 4 → s.prtState p < prtRUNNING) →
        Completes (.fuseProgram none) s (fun u => Answers s u msAUTH ∧ u.mgmt.fuses = s.mgmt.fuses ∧ nonce u) ∧
        (formed → ¬ signed → runs (fun u => Answers s u msAUTH ∧ u.mgmt.fuses = s.mgmt.fuses ∧ nonce u)) ∧
        (formed → signed → (∃ e ∈ a.pairs, s.fieldWord e.1 = false) →
          runs (fun u => Answers s u msBADARG ∧ u.mgmt.fuses = s.mgmt.fuses ∧ nonce u)) ∧
        (formed → signed → (∀ e ∈ a.pairs, s.fieldWord e.1 = true) → runs (fun u => Answers s u msOK ∧ nonce u ∧
          (∀ w, u.fuse w = (a.pairs.filter (fun e => e.1 = w)).foldl (fun n e => n ||| e.2.toNat) (s.fuse w)) ∧
          u.mgmt.daport = !u.isSealed))))

/-- FLASH_UPDATE writes a valid image into the copy that does not run, while the module has the flash; while RESET_N joins it to the
board nothing is served (12 R350, R351; 14 R396). -/
def Claims.FlashUpdate : Prop :=
  ∀ (s : State) (img : Option ClerkImage),
    let b := (s.arg 3).testBit 0
    s.asks 0x22 = true → s.module.flashBoard = false → s.arg64 0 % 64 = 0 → s.dmaOk = true →
    ((∀ i, img = some i → s.imageValid i = false) → Completes (.flashUpdate img) s (fun u => Answers s u msAUTH ∧ Untouched s u)) ∧
    (∀ i, img = some i → s.imageValid i = true →
      (s.mgmt.runningCopy = some b → Completes (.flashUpdate img) s (fun u => Answers s u msSTATE ∧ Untouched s u)) ∧
      (s.mgmt.runningCopy ≠ some b → Completes (.flashUpdate img) s (fun u => Answers s u msOK ∧
        u.mgmt.copyA = (if b then s.mgmt.copyA else some i) ∧ u.mgmt.copyB = (if b then some i else s.mgmt.copyB))))

/-- Fuses are read and blown; flash copies are updated. -/
def Obligations.FusesAndFlash : Prop :=
  Claims.Fuses ∧ Claims.FlashUpdate

/-- IMAGE_LOAD: refused with STATE unless the partition has regions and no image, with DMAERR where a read fails, and with
REFUSED, the lowest code and its detail where a check fails: an image that breaks one of the rules listed is refused with a code no
higher than that rule's. A refused image changes nothing: every register but those of the mailbox's page, the governor and all that
`Untouched` names are as they were. An image that passes is installed and the partition is LOADED (12 R360, R361). -/
def Claims.ImageLoad : Prop :=
  ∀ (s : State),
    let p := s.arg 3 % 4
    let turned := fun (u : State) (l : List Nat) => Answers s u msREFUSED ∧ Results u l ∧ Untouched s u
    Served s 0x11 → s.arg64 0 % 64 = 0 → s.arg64 4 % 64 = 0 →
    (∀ img, s.prtState p ≠ prtEMPTY → Completes (.imageLoad img) s (fun u => Answers s u msSTATE ∧ Untouched s u)) ∧
    (s.prtState p = prtEMPTY → s.scopeInReset (.part p) = false → s.dmaOk = false → ∀ img,
      Completes (.imageLoad img) s (fun u => Answers s u msDMAERR ∧ Untouched s u)) ∧
    (s.prtState p = prtEMPTY → s.scopeInReset (.part p) = false → s.dmaOk = true →
      Completes (.imageLoad .dmaError) s (fun u => Answers s u msDMAERR ∧ Untouched s u) ∧
      (∀ off, Completes (.imageLoad (.notImage off)) s (fun u => turned u [0x01, off])) ∧
      (∀ im : Image, (∀ c ∈ im.sections, c.chip ≠ s.chipId) → Completes (.imageLoad (.image im)) s (fun u => turned u [0x01, im.badOffset])) ∧
      (∀ (im : Image) (c : Section), im.sections.find? (fun c => c.chip == s.chipId) = some c →
        (im.headerOk = false ∨ s.arg 2 ≠ 4 * im.raw.length) →
        Completes (.imageLoad (.image im)) s (fun u => turned u [0x01, im.badOffset])) ∧
      (∀ (im : Image) (c : Section), im.sections.find? (fun c => c.chip == s.chipId) = some c → im.headerOk = true →
        s.arg 2 = 4 * im.raw.length →
        (∀ code, (code = 0x02 ∧ s.getF pgFUSE Reg.FUSE_SEC_IMG_SIGN_REQ = 1 ∧ im.signer = none) ∨
            (code = 0x04 ∧ ∃ g ∈ im.requirements, g < s.getF pgDEV Reg.DEV_CAPS_GRADE) ∨
            (code = 0x05 ∧ (s.tilesOf p).length < c.tiles) ∨
            (code = 0x06 ∧ (im.roundLen % 180 ≠ 0 ∨ im.roundLen < 5760 ∨ 16777080 < im.roundLen)) ∨
            (code = 0x07 ∧ ∃ q, q < 4 ∧ s.partRuns q = true ∧
              (s.getF (pgPRT q) Reg.PRT_GOV_GOVERNOR ≠ im.governor ∨ s.roundLen q ≠ im.roundLen)) ∨
            (code = 0x08 ∧ (im.elastic = true ∧ 256 < im.chips.length ∨ 32768 < im.chips.length)) ∨
            (code = 0x09 ∧ s.hasTime = false) ∨
            (code = 0x0A ∧ ∃ b ∈ c.links, s.linkState b.port ≠ lnkUP ∨ s.peerChip b.port ≠ b.peer) ∨
            (code = 0x0C ∧ ∃ l ∈ c.leases, ∃ q, s.leaseOf l.1 l.2 = some q ∧ q ≠ p ∧ s.holdsImage q = true) ∨
            (code = 0x12 ∧ ∃ b ∈ c.links, b.peer ∉ im.chips) ∨
            (code = 0x15 ∧ im.roundLen * (gearRatio im.fast).2 / (gearRatio im.fast).1 < im.abortNs) ∨
            (code = 0x17 ∧ s.arg 6 < im.detourBytes) →
          Completes (.imageLoad (.image im)) s (fun u => ∃ k l, 0x02 ≤ k ∧ k ≤ code ∧ turned u (k :: l))) ∧
        (∀ l, s.refusal p im c = some l → Completes (.imageLoad (.image im)) s (fun u => turned u l)) ∧
        (s.refusal p im c = none → Completes (.imageLoad (.image im)) s (fun u => Answers s u msOK ∧
          u.prtState p = prtLOADED ∧ u.image p = some im ∧ u.gen p = 0 ∧
          u.getF (pgPRT p) Reg.PRT_STAT_MODE = bit im.elastic 0 ∧ u.getF (pgPRT p) Reg.PRT_STAT_POLICY = bit im.onDemand 0 ∧
          u.roundLen p = im.roundLen % 2 ^ 24 ∧ u.get64 (pgPRT p) Reg.PRT_TAG_LO Reg.PRT_TAG_HI = im.tag % 2 ^ 64 ∧
          u.getF (pgPRT p) Reg.PRT_GOV_GOVERNOR = im.governor % 2 ^ 16 ∧
          u.getF (pgPRT p) Reg.PRT_GOV_DEPUTY = im.deputy % 2 ^ 16 ∧
          u.getF pgPH (Reg.ICH_PH_BASE_CELL.at p) = c.cellBase % 2 ^ 17 ∧
          u.getF pgPH (Reg.ICH_PH_LIMIT_CELL.at p) = c.cellLimit % 2 ^ 17 ∧
          (∀ l ∈ c.leases, u.ich.lease.get (64 * l.1 + l.2) 0 = 4 + p) ∧
          ((∀ e ∈ c.timetable ++ c.landing, e.port < 47 ∧ e.index < 32768) →
            ∀ e ∈ c.timetable, ∃ w ∈ c.timetable, w.port = e.port ∧ w.index = e.index ∧
              u.ich.tables.get (tableKey 0 e.port 0 e.index) 0 = w.entry)))))

/-- IMAGE_UNLOAD of a stopped or never launched partition releases its cells, leases and tables; of a running or fenced one it
is refused (12 R363). -/
def Claims.ImageUnload : Prop :=
  ∀ (s : State),
    let p := s.arg 0 % 4
    Served s 0x12 →
    ((s.prtState p ≠ prtLOADED ∨ (s.part p).launchNt.isSome = true) → Completes .imageUnload s (fun u => Answers s u msSTATE ∧ Untouched s u)) ∧
    (∀ im, s.prtState p = prtLOADED → s.image p = some im → (s.part p).launchNt = none → Completes .imageUnload s (fun u =>
      Answers s u msOK ∧ u.prtState p = prtEMPTY ∧ u.image p = none ∧ u.roundLen p = 0 ∧
      u.getF pgPH (Reg.ICH_PH_BASE_CELL.at p) = 0 ∧ u.getF pgPH (Reg.ICH_PH_LIMIT_CELL.at p) = 0 ∧
      (∀ e ∈ u.ich.lease, e.2 ≠ 4 + p) ∧ (∀ k ∈ u.ich.staged, k.part ≠ p) ∧
      (∀ e ∈ u.hif.hostRun, (HostRun.ofBits e.2).part ≠ p)))

/-- Images are checked, installed and unloaded. -/
def Obligations.Images : Prop :=
  Claims.ImageLoad ∧ Claims.ImageUnload

/-- LAUNCH on the governor chip, once every chip has reported: an NT at least two gear periods after the last report, sent
with STEP0 and JOB_SEED to every chip of the job; the command ends when these have acknowledged. On another chip NOTGOV. Which
NT is free (12 R362). -/
def Claims.Launch : Prop :=
  ∀ (s : State),
    let p := s.arg 0 % 4
    let step0 := if (s.arg 0).testBit 8 then s.arg64 1 else 0
    Served s 0x13 →
    (s.image p = none → Completes .launch s (fun u => Answers s u msSTATE ∧ Untouched s u)) ∧
    (∀ im, s.image p = some im →
      let seed := if (s.arg 0).testBit 9 then s.arg64 3 else im.seed
      let others := im.chips.filter (fun c => c != s.chipId)
      (s.governs p = false → Completes .launch s (fun u => Answers s u msNOTGOV ∧ Untouched s u)) ∧
      (s.governs p = true → (s.lastReport p im = none ∨ s.prtState p ≠ prtLOADED ∨ (s.part p).launchNt.isSome = true) →
        Completes .launch s (fun u => Answers s u msSTATE ∧ Untouched s u)) ∧
      (∀ last, s.governs p = true → s.lastReport p im = some last → s.prtState p = prtLOADED → (s.part p).launchNt = none →
        (∀ q ∈ s.governed, (s.partRuns q = true ∨ (s.part q).launchNt.isSome = true) → 0 < s.roundLen q) →
        Completes .launch s (fun u => ∃ at0,
          (u.part p).launchNt = some at0 ∧ last * nsUnit + 2 * 2 ^ 20 * nsUnit ≤ at0 ∧ s.nt < at0 ∧ u.round p = 0 ∧
          u.get64 (pgPRT p) Reg.PRT_STEP_LO Reg.PRT_STEP_HI = step0 % 2 ^ 64 ∧
          u.get64 (pgPRT p) Reg.PRT_SEED_LO Reg.PRT_SEED_HI = seed % 2 ^ 64 ∧ u.epoch p = 0 ∧
          (∀ c ∈ others, Told s u p c [8, p, at0 / nsUnit, step0, seed]) ∧
          (others = [] → Answers s u msOK ∧ Results u (words64 (at0 / nsUnit))) ∧
          (others ≠ [] → u.gov.launching = some ⟨p, at0 / nsUnit, others⟩ ∧ u.getF pgMGT Reg.MGT_RSP_BUSY = 1))))

/-- STOP on the governor chip: the first round start at least two gear periods ahead, sent to every chip (12 R363). -/
def Claims.Stop : Prop :=
  ∀ (s : State) (im : Image),
    let p := s.arg 0 % 4
    Served s 0x14 → s.image p = some im →
    (s.governs p = false → Completes .stop s (fun u => Answers s u msNOTGOV ∧ Untouched s u)) ∧
    (s.governs p = true → s.partRuns p = false → Completes .stop s (fun u => Answers s u msSTATE ∧ Untouched s u)) ∧
    (s.governs p = true → s.partRuns p = true → 0 < s.roundLen p → s.getB pgTMB Reg.TMB_GEAR_ARM = false →
      Completes .stop s (fun u => ∃ at0, Answers s u msOK ∧ Results u (words64 (at0 / nsUnit)) ∧
        (u.part p).stopNt = some at0 ∧ s.nt + 2 * 2 ^ 20 * nsUnit ≤ at0 ∧
        (s.part p).nextNt ≤ at0 ∧ (∃ k, at0 = (s.part p).nextNt + k * beatsNt s.gear (s.roundLen p)) ∧
        (∀ k, s.nt + 2 * 2 ^ 20 * nsUnit ≤ (s.part p).nextNt + k * beatsNt s.gear (s.roundLen p) →
          at0 ≤ (s.part p).nextNt + k * beatsNt s.gear (s.roundLen p)) ∧
        ∀ c ∈ im.chips, c ≠ s.chipId → Told s u p c [9, p, at0 / nsUnit]))

/-- LAUNCH and STOP on the governor chip. -/
def Obligations.LaunchAndStop : Prop :=
  Claims.Launch ∧ Claims.Stop

/-- Tile, region and partition resets: the tiles of the scope at their reset values with scratchpad, handles and wheels
kept, an image of the partition unloaded. A tile or region whose partition runs an image is not reset; the SMBus endpoint
may ask for none of them (12 R349, R365, R367). -/
def Claims.ScopeResets : Prop :=
  ∀ (s : State) (t : TileId) (r : RegionId) (p : PartId),
    let free := fun (q : Option Nat) => ∀ k, q = some k → s.partRuns k = false
    let kept := fun (u : State) (k : Nat) => ∀ f ∈ [Reg.TIL_HND_VALID, Reg.TIL_HND_BASE, Reg.TIL_HND_BOUND, Reg.TIL_HND_OWNER,
      Reg.TIL_HND_RIGHTS], ∀ h, h < 64 → u.getF (pgTIL k) (f.at h) = s.getF (pgTIL k) (f.at h)
    (s.mgmt.resets = [] → t.val < s.getF pgDEV Reg.DEV_CAPS_TILES → free (s.partOfTile t.val) →
      Completes (.tileReset t .device) s (fun u => Scope.tile t.val ∈ u.mgmt.resets ∧ TileReset s u t.val ∧ kept u t.val ∧
        ∀ k, k ≠ t.val → u.tile k = s.tile k)) ∧
    (s.mgmt.resets = [] → r.val < s.getF pgDEV Reg.DEV_CAPS_REGIONS → free (s.partOfRegion r.val) →
      Completes (.regionReset r .device) s (fun u => Scope.region r.val ∈ u.mgmt.resets ∧
        (∀ i, i < 16 → TileReset s u (16 * r.val + i) ∧ kept u (16 * r.val + i)) ∧
        ∀ k, k / 16 ≠ r.val → u.tile k = s.tile k)) ∧
    (s.mgmt.resets = [] → (s.image p.val).isSome = true → Completes (.partitionReset p .device) s (fun u =>
      Scope.part p.val ∈ u.mgmt.resets ∧ u.image p.val = none ∧ u.prtState p.val = prtEMPTY ∧
      (∀ k ∈ s.tilesOf p.val, u.seqState k = seqHALTED ∧ (u.tile k).arch = .reset ∧ (u.tile k).flight = []) ∧
      (∀ k, k < 512 → s.partOfTenant k = p.val → 0 < (s.tenant k).occ →
        (u.tenant k).filling = [] ∧ (u.tenant k).fetching = []))) ∧
    (¬ free (s.partOfTile t.val) → Completes (.tileReset t .device) s (fun u => u = s)) ∧
    (∀ a : BitVec 7, s.module.aux = true → a.toNat = 0x40 + s.module.pos.toNat % 16 → s.module.powered = true →
      ∀ c ∈ [Instr.tileReset t (.smbus a), .regionReset r (.smbus a), .partitionReset p (.smbus a)],
        Completes c s (fun u => u = s.emit (.message [0x15, msSTATE]))) ∧
    (Served s 0x15 → s.arg 0 % 8 = 1 → s.arg 1 = t.val → t.val < s.getF pgDEV Reg.DEV_CAPS_TILES →
      (¬ free (s.partOfTile t.val) → Completes (.tileReset t .mailbox) s (fun u => Answers s u msSTATE ∧ Untouched s u)) ∧
      (free (s.partOfTile t.val) → s.mgmt.resets = [] → Completes (.tileReset t .mailbox) s (fun u => TileReset s u t.val ∧
        u.mgmt.mbxScope = some (.tile t.val) ∧ u.getF pgMGT Reg.MGT_RSP_BUSY = 1))) ∧
    (∀ sc ∈ s.mgmt.resets, Completes (.resetComplete sc) s (fun u => sc ∉ u.mgmt.resets ∧
      (∀ y ∈ s.mgmt.resets, y ≠ sc → y ∈ u.mgmt.resets) ∧
      (s.mgmt.mbxScope = some sc → u.mgmt.mbxScope = none ∧ u.getF pgMGT Reg.MGT_RSP_DONE = 1 ∧
        u.getF pgMGT Reg.MGT_RSP_BUSY = 0 ∧ u.getF pgMGT Reg.MGT_RSP_STATUS = msOK)))

/-- A chip reset keeps fuses, flash and the retirement log, the region rails' voltages while main power is there, and at level 4 the
PCIe configuration and link; everything else is at its reset values (12 R365; 14 R400). A part in recovery does not serve level 4
(12 R350). RESET_N: low, it resets the chip and joins the flash to the board, which may write it, and releases a thermal trip 1 s old
once sensor 37 reads 50 °C; high, with PWR_GOOD high for 100 ms, the straps are sampled, the module has the flash again and the boot
ROM takes a Clerk copy, or the part is in recovery; what a write of the flash then cut off leaves is free (12 R350, R357; 13 R384; 14
R396, R401, R410). That the board's writes are those named at the release is log entry 103. -/
def Claims.ChipResets : Prop :=
  ∀ (s : State),
    let fresh := fun (u : State) => u.tiles = [] ∧ u.parts = [] ∧ u.links = [] ∧ u.ich = .reset ∧ u.incidents = [] ∧
      u.mgmt.fuses = s.mgmt.fuses ∧ u.mgmt.retireLog = s.mgmt.retireLog ∧ u.mgmt.clerkUp = false ∧ u.hostMem = s.hostMem ∧
      u.nt = 0 ∧ u.getF pgMGT Reg.MGT_BOOT_READY = 0 ∧ u.prtState 0 = prtEMPTY ∧ u.gear = u.getF pgTMB Reg.TMB_GEAR_TOP ∧
      (s.module.powered = true → ∀ r, r < 16 →
        u.getF (pgRGN r) Reg.RGN_VOLT_MV = s.getF (pgRGN r) Reg.RGN_VOLT_MV % 2 ^ Reg.RGN_VOLT_MV.width)
    let flash := fun (u : State) => u.mgmt.copyA = s.mgmt.copyA ∧ u.mgmt.copyB = s.mgmt.copyB ∧ u.mgmt.boardRecord = s.mgmt.boardRecord
    let hostKept := fun (u : State) => u.hif.vfEnable = s.hif.vfEnable ∧ u.hif.numVfs = s.hif.numVfs ∧
      u.getF pgHIF Reg.HIF_STAT_LINKUP = s.getF pgHIF Reg.HIF_STAT_LINKUP % 2
    let write := fun (m : Mgmt) (w : FlashWrite) => match w with
      | .record l => { m with boardRecord := l }
      | .copy b i => if b then { m with copyB := i } else { m with copyA := i }
    let boots := fun (u : State) =>
      (u.chooseClerk = none → u.mgmt.runningCopy = none ∧ u.getF pgMGT Reg.MGT_BOOT_STAGE = 0xF ∧
        u.getF pgMGT Reg.MGT_BOOT_FAILED = 1 ∧ u.getF pgMGT Reg.MGT_BOOT_FAIL_CODE = 0x01) ∧
      (∀ b i, u.chooseClerk = some (b, i) → u.mgmt.runningCopy = some b ∧ u.mgmt.runningSvn = i.svn ∧
        u.getF pgMGT Reg.MGT_BOOT_STAGE = 0)
    Completes (.chipReset .device) s (fun u => fresh u ∧ flash u ∧ u.hif = .reset ∧ (s.module.resetN = true → boots u)) ∧
    (∀ a : BitVec 7, s.module.aux = true → a.toNat = 0x40 + s.module.pos.toNat % 16 → s.module.powered = true →
      (s.getF pgMGT Reg.MGT_BOOT_STAGE ≠ 0xF → Completes (.chipReset (.smbus a)) s (fun u => fresh u ∧ flash u ∧ hostKept u)) ∧
      (s.getF pgMGT Reg.MGT_BOOT_STAGE = 0xF → Completes (.chipReset (.smbus a)) s (fun u => u = s))) ∧
    (s.asks 0x15 = true → s.arg 0 % 8 = 4 →
      (s.getF pgMGT Reg.MGT_BOOT_STAGE ≠ 0xF → Completes (.chipReset .mailbox) s (fun u => fresh u ∧ flash u ∧ hostKept u)) ∧
      (s.getF pgMGT Reg.MGT_BOOT_STAGE = 0xF → Completes (.chipReset .mailbox) s (fun u => Answers s u msNOTREADY ∧ Untouched s u))) ∧
    (s.module.resetHigh = true → s.module.railsOffNt ≤ s.module.clock →
      let low := fun (u : State) => u.module.resetHigh = false ∧ u.module.resetN = false ∧ u.module.flashBoard = true ∧
        u.module.restartNeeded = false ∧
        u.module.trip = (s.module.trip && !(decide (s.module.tripNt + 1000000000 * nsUnit ≤ s.module.clock) &&
          decide (sgn 16 (s.module.sensors.get 37 0) ≤ 800)))
      (s.module.resetN = true → Completes .resetNAssert s (fun u => fresh u ∧ flash u ∧ u.hif = .reset ∧ low u)) ∧
      (s.module.resetN = false → Completes .resetNAssert s (fun u => low u ∧ u = { s with module := u.module }))) ∧
    (∀ (pos : BitVec 7) (board : List FlashWrite), s.module.resetHigh = false → s.module.railsOffNt ≤ s.module.clock →
      let m := board.foldl write s.mgmt
      let good := s.module.pwrGood = true ∧ s.module.pwrGoodNt + 100000000 * nsUnit ≤ s.module.clock
      let up := fun (u : State) => fresh u ∧ boots u ∧ u.module.resetN = true ∧ u.module.resetHigh = true ∧ u.module.flashBoard = false ∧
        u.getF pgDEV Reg.DEV_CHIP_ID_BOARD = pos.toNat / 16 ∧ u.getF pgDEV Reg.DEV_CHIP_ID_POSITION = pos.toNat % 16
      (good → Completes (.resetNRelease pos board none) s (fun u => up u ∧
        u.mgmt.copyA = m.copyA ∧ u.mgmt.copyB = m.copyB ∧ u.mgmt.boardRecord = m.boardRecord)) ∧
      (good → ∀ l, Completes (.resetNRelease pos board (some (.record l))) s (fun u => up u ∧
        u.mgmt.copyA = m.copyA ∧ u.mgmt.copyB = m.copyB ∧ ∃ v, u.mgmt.boardRecord = leBytes v 64)) ∧
      (good → ∀ i, Completes (.resetNRelease pos board (some (.copy false i))) s (fun u => up u ∧
        u.mgmt.copyA ∈ [m.copyA, none, i] ∧ u.mgmt.copyB = m.copyB ∧ u.mgmt.boardRecord = m.boardRecord)) ∧
      (¬ good → Completes (.resetNRelease pos board none) s (fun u =>
        u.module.resetN = false ∧ u.module.resetHigh = true ∧ u.module.flashBoard = false ∧ u.mgmt = m ∧ u.tiles = s.tiles)))

/-- Resets of tiles, regions, partitions and the chip. -/
def Obligations.Resets : Prop :=
  Claims.ScopeResets ∧ Claims.ChipResets

/-- Bring-up: its stages follow one another as STAGE reports them; the board configuration record gives rack and roles where it is
valid; a part whose regions all calibrated is READY with its scratchpads clear; any other end sets FAILED with its code; and a tile
that fails is hidden where the region's spare is unused, its region's tiles reset with their keys closed (12 R356 to R358; 13 R379,
R383; 15 R416). The commands that begin the stages, and that a later one runs through those not begun, are log entry 103. -/
def Obligations.BringUp : Prop :=
  ∀ (s : State), s.bringingUp = true → s.mgmt.clerkUp = true →
    let l := s.mgmt.boardRecord
    let n := s.getF pgDEV Reg.DEV_CAPS_REGIONS
    let stage := fun (u : State) => u.getF pgMGT Reg.MGT_BOOT_STAGE
    let fails := fun (u : State) (code : Nat) => u.getF pgMGT Reg.MGT_BOOT_FAILED = 1 ∧
      u.getF pgMGT Reg.MGT_BOOT_FAIL_CODE = code ∧ u.isReady = false
    let clear := fun (u : State) => ∀ t, t < 16 * n → (u.tile t).spd = [] ∧ (u.tile t).rv = []
    (stage s = 0 → Completes (.bringupComplete .clerkCheck) s (fun u => stage u = 1)) ∧
    (stage s < 2 → Completes (.bringupComplete .clerkStart) s (fun u => stage u = 2)) ∧
    (stage s < 3 →
      (boardRecordValid l (s.getF pgDEV Reg.DEV_CHIP_ID_BOARD) = true → (∀ x, x < 47 → s.linkState x = lnkDOWN) →
        (∀ p, p < 4 → s.holdsImage p = false) → Completes .boardConfigRead s (fun u =>
          u.getF pgDEV Reg.DEV_CHIP_ID_RACK = leNat (slice l 6 8) ∧ u.getF pgDEV Reg.DEV_CHIP_ID_SET = 1 ∧
          u.getF pgTMB Reg.TMB_CTL_MASTER_A = leNat (slice l 8 9) % 2 ∧
          u.getF pgTMB Reg.TMB_CTL_MASTER_B = leNat (slice l 8 9) / 2 % 2 ∧ stage u = 3)) ∧
      (boardRecordValid l (s.getF pgDEV Reg.DEV_CHIP_ID_BOARD) = false → Completes .boardConfigRead s (fun u =>
        u.getF pgDEV Reg.DEV_CHIP_ID_RACK = s.getF pgDEV Reg.DEV_CHIP_ID_RACK ∧ stage u = 3))) ∧
    (∀ cal : BitVec 16, n ≤ 16 → stage s < 4 →
      (cal.toNat % 2 ^ n = 2 ^ n - 1 →
        Completes (.bringupComplete (.clear cal)) s (fun u => stage u = 4 ∧ u.getF pgMGT Reg.MGT_BOOT_CAL_OK = 2 ^ n - 1) ∧
        Completes (.bringupComplete (.ready cal)) s (fun u => u.isReady = true ∧ stage u = 6 ∧
          u.getF pgMGT Reg.MGT_BOOT_CAL_OK = 2 ^ n - 1 ∧ clear u)) ∧
      (cal.toNat % 2 ^ n ≠ 2 ^ n - 1 → ∀ b ∈ [Bringup.clear cal, .ready cal],
        Completes (.bringupComplete b) s (fun u => fails u 0x04))) ∧
    (stage s = 4 → n ≤ 16 → Completes (.bringupComplete .knownAnswer) s (fun u => stage u = 5 ∧ clear u)) ∧
    (stage s = 5 → ∀ cal, Completes (.bringupComplete (.ready cal)) s (fun u => u.isReady = true ∧ stage u = 6)) ∧
    (∀ b code, (b, code) ∈ [(Bringup.rail, 0x02), (.topGear, 0x04), (.spare, 0x07)] →
      Completes (.bringupComplete b) s (fun u => fails u code)) ∧
    (s.chooseClerk = none → Completes (.bringupComplete .noClerk) s (fun u => fails u 0x01 ∧ stage u = 0xF)) ∧
    (∀ (r : RegionId) (tile : Fin 17), r.val < n → s.mgmt.hidden.get r.val 16 ≠ tile.val →
      let g := s.physRegion r.val
      ((s.spareFuse g ≤ 16 ∨ (s.retiredTile g).isSome = true) → Completes (.regionBringupRestart r tile) s (fun u => fails u 0x07)) ∧
      (16 < s.spareFuse g → s.retiredTile g = none → Completes (.regionBringupRestart r tile) s (fun u =>
        u.mgmt.hidden.get r.val 16 = tile.val ∧ (1, 17 * g + tile.val) ∈ u.retiredUnits ∧
        ∀ i, i < 16 → u.seqState (16 * r.val + i) = seqHALTED ∧ (u.tile (16 * r.val + i)).spd = [] ∧
          u.getB (pgTIL (16 * r.val + i)) Reg.BLK_EXPERT_KEY_OPEN = false ∧ u.getB (pgTIL (16 * r.val + i)) Reg.BLK_ERR_INJ_ARM = false)))

/-- Power: the auxiliary input comes into range; the main rails start in their order 10 ms after both inputs are there, each region's
at a voltage of 0.60 V to 0.95 V in 5 mV steps; PWR_GOOD; the shutdown, which turns the rails off in the reverse order, latches its
cause and resets the chip; and a restart only after RESET_N was driven low. PWR_LIMIT holds its limits, TJ_WARN may make the warning
active, and a higher average asks for a lower gear. Nothing of this is served over SMBus without main power or at another address (14
R392, R394, R399 to R404, R408, R409). Where in its steps a region's start voltage lies is free (log entry 4). -/
def Claims.Power : Prop :=
  ∀ (s : State),
    let m := s.module
    (∀ mv : BitVec 16, (11400 ≤ mv.toNat ∧ mv.toNat ≤ 12600 → Completes (.auxPowerOn mv) s (fun u =>
        let since := if m.aux = true ∧ m.auxGood = true then m.inputsNt else m.clock
        u = { s with module := { m with aux := true, auxGood := true, inputsNt := since, sensors := m.sensors.put 36 mv.toNat 0 } })) ∧
      (mv.toNat < 11400 ∨ 12600 < mv.toNat → Completes (.auxPowerOn mv) s (fun u => u = s))) ∧
    (∀ (since : BitVec 64) (mv : BitVec 16),
      let up := 40000 < mv.toNat ∧ (m.main48 = true ∨ m.lost48Nt ≤ since.toNat * nsUnit)
      (m.aux = true → m.auxGood = true → up → m.powered = false → m.restartNeeded = false → m.trip = false →
        Completes (.mainRailsStart since mv) s (fun u =>
          u.module.rails = [.vchip, .vvault, .vserD, .vserA, .vopt, .vrgn] ∧ u.module.main48 = true ∧
          u.sent = s.sent ++ [MainRail.vchip, .vvault, .vserD, .vserA, .vopt, .vrgn].map (fun r => .rail r true) ∧
          m.inputsNt + 10000000 * nsUnit ≤ u.module.clock ∧ since.toNat * nsUnit + 10000000 * nsUnit ≤ u.module.clock ∧
          m.railsOffNt ≤ u.module.clock ∧ u.module.sensors.get 35 0 = mv.toNat ∧ u.tiles = s.tiles ∧ u.mgmt = s.mgmt ∧
          ∀ r ∈ s.regions, ∃ k, k ≤ 70 ∧ u.getF (pgRGN r) Reg.RGN_VOLT_MV = 600 + 5 * k)) ∧
      ((m.aux = false ∨ m.auxGood = false ∨ ¬ up ∨ m.restartNeeded = true ∨ m.trip = true) →
        Completes (.mainRailsStart since mv) s (fun u => u = s))) ∧
    (m.powered = true → m.pwrGood = false → Completes .pwrGoodRise s (fun u =>
      u = { s with module := { m with pwrGood := true, pwrGoodNt := m.clock } })) ∧
    (∀ c code, ((∃ mv : BitVec 16, mv.toNat < 38000 ∧ c = .input48 mv ∧ code = 1) ∨
        (∃ mv : BitVec 16, mv.toNat < 10800 ∧ c = .aux mv ∧ code = 2) ∨
        (c, code) ∈ [(PowerCause.overcurrent, 3), (.rail, 4), (.thermal, 5)]) → m.aux = true → m.powered = true → m.pwrGood = true →
      Completes (.powerFailShutdown c) s (fun u =>
        u.module.pwrGood = false ∧ u.module.rails = [] ∧ u.module.resetN = false ∧ u.module.restartNeeded = m.resetHigh ∧
        u.module.faultUnread = true ∧ u.alertLow = true ∧ u.module.faultCause = code ∧
        m.clock < u.module.railsOffNt ∧ u.module.railsOffNt = u.module.clock + 20000 * nsUnit ∧ u.tiles = [] ∧
        (∃ l, u.sent = l ++ m.rails.reverse.map (fun r => .rail r false)) ∧
        (∀ r, r < 16 → u.getF (pgRGN r) Reg.RGN_VOLT_MV = 0) ∧ u.mgmt.fuses = s.mgmt.fuses)) ∧
    (∀ mv : BitVec 16, mv.toNat < 38000 → m.aux = true → m.powered = true → m.pwrGood = false →
      Completes (.powerFailShutdown (.input48 mv)) s (fun u => u.module.rails = [] ∧ u.module.main48 = false ∧
        u.module.lost48Nt = m.clock ∧ u.module.faultCause = m.faultCause ∧ u.tiles = s.tiles)) ∧
    ((m.powered = true ∨ m.pwrGood = false) → Completes .auxPowerOff s (fun u => u.module.aux = false ∧ u.module.rails = [] ∧
      u.module.pwrGood = false ∧ u.module.faultCause = 0 ∧ u.module.pwrLimit = 2000 ∧ u.module.trip = false ∧ u.alertLow = false)) ∧
    (∀ (a : BitVec 7) (x : PldmWrite),
      let here := m.aux = true ∧ a.toNat = 0x40 + m.pos.toNat % 16 ∧ m.powered = true
      (¬ here → Completes (.pwrLimit a x) s (fun u => u = s)) ∧
      (here → ∀ w : BitVec 16, Completes (.pwrLimit a (.pwrLimit w)) s (fun u =>
        u = { s with module := { m with pwrLimit := if w.toNat < 1000 then 1000 else if 2000 < w.toNat then 2000 else w.toNat } })) ∧
      (here → ∀ t : BitVec 16,
        let limit : Int := max 1120 (min 1664 (sgn 16 t.toNat))
        let temp := fun (r : Nat) => sgn 16 (s.getF (pgRGN r) Reg.RGN_TEMP_T)
        Completes (.pwrLimit a (.tjWarn t)) s (fun u => u.module.tjWarn = t.toNat ∧
          ((∃ r ∈ s.regions, limit ≤ temp r) → u.module.warning = true ∧ u.alertLow = true) ∧
          ((∀ r ∈ s.regions, temp r < limit) → u.module.warning = m.warning)))) ∧
    (∀ w : BitVec 16, w.toNat ≤ m.pwrLimit → Completes (.powerAverageExpiry w) s (fun u =>
      u = { s with module := { m with power := w.toNat } })) ∧
    (∀ w : BitVec 16, m.pwrLimit < w.toNat → s.mgmt.clerkUp = true → (∀ p, p < 4 → s.governs p = false) →
      Completes (.powerAverageExpiry w) s (fun u => u.module.power = w.toNat ∧ ∀ p im, p < 4 → s.partRuns p = true →
        s.image p = some im → Told s u p (s.governorOf p im) [6, 0])) ∧
    (∀ r : RegionId, Completes (.regulatorSettle r) s (fun u => (u.rmon r.val).settling = false ∧ u.regs = s.regs))

/-- Heat: at TJ_WARN the warning, which clears 3 °C below it; at 115 °C of a die sensor or the coolant sensor, and from 95 °C of a die
sensor at the boot after a trip, a trip, whose shutdown is the power fault's. Die sensors read while main power is there. PLDM reads at
the module's address answer with the sensor, or with its ID alone where it is unavailable; reading the fault sensor releases ALERT_N (14
R394, R395, R409 to R411). The form of an answer is log entry 80, what a trip does once the rails are off log entry 12. -/
def Claims.Thermal : Prop :=
  ∀ (s : State), s.module.aux = true →
    let m := s.module
    let temp := fun (r : Nat) => sgn 16 (s.getF (pgRGN r) Reg.RGN_TEMP_T)
    let tripped := fun (u : State) => u.module.trip = true ∧ u.module.tripNt = m.clock ∧ u.module.coolCheck = true ∧
      u.module.pwrGood = false ∧ u.module.rails = [] ∧ u.module.faultCause = 5 ∧ u.module.restartNeeded = m.resetHigh ∧
      u.alertLow = true
    (m.powered = true → ∀ r ∈ s.regions, ∀ (q : RegionId) (t : BitVec 16), q.val = r →
      ∀ c ∈ [Instr.thermalWarning q t, .thermalTrip (BitVec.ofNat 6 (r + 1)) t],
        let recheck := m.coolCheck = true ∧ m.resetN = true ∧ 1520 ≤ sgn 16 t.toNat
        (sgn 16 t.toNat < 1840 → ¬ recheck → Completes c s (fun u => u.getF (pgRGN r) Reg.RGN_TEMP_T = t.toNat ∧
          u.module.trip = m.trip ∧ u.module.pwrGood = m.pwrGood ∧
          (m.tjLimit ≤ sgn 16 t.toNat → u.module.warning = true ∧ u.alertLow = true) ∧
          (sgn 16 t.toNat < m.tjLimit → u.module.warning = m.warning))) ∧
        ((1840 ≤ sgn 16 t.toNat ∨ recheck) → Completes c s tripped)) ∧
    (∀ t : BitVec 16,
      (sgn 16 t.toNat < 1840 → Completes (.thermalTrip 37 t) s (fun u =>
        u = { s with module := { m with sensors := m.sensors.put 37 t.toNat 0 } })) ∧
      (1840 ≤ sgn 16 t.toNat → m.powered = true → Completes (.thermalTrip 37 t) s (fun u =>
        tripped u ∧ u.module.sensors.get 37 0 = t.toNat)) ∧
      (1840 ≤ sgn 16 t.toNat → m.powered = false → m.trip = false → Completes (.thermalTrip 37 t) s (fun u =>
        u.module.trip = true ∧ u.alertLow = true ∧
        u.module.faultCause = (if m.clock < m.railsOffNt then m.faultCause else 5)))) ∧
    (m.powered = false → ∀ (r : RegionId) t, Completes (.thermalWarning r t) s (fun u => u = s)) ∧
    ((∀ r ∈ s.regions, temp r ≤ m.tjLimit - 48) → Completes .thermalWarningClear s (fun u => u.module.warning = false)) ∧
    (∀ r ∈ s.regions, m.tjLimit - 48 < temp r → Completes .thermalWarningClear s (fun u => u = s)) ∧
    (∀ (a : BitVec 7) (id : BitVec 8),
      (a.toNat ≠ 0x40 + m.pos.toNat % 16 → Completes (.pldmSensorRead a id) s (fun u => u = s)) ∧
      (a.toNat = 0x40 + m.pos.toNat % 16 →
        ((id = 0 ∨ 40 < id.toNat ∨ m.powered = false ∧ (id.toNat < 34 ∨ id.toNat = 38)) →
          Completes (.pldmSensorRead a id) s (fun u => u = s.emit (.message [id.toNat]))) ∧
        (m.powered = true → ∀ v, (id.toNat, v) ∈ (List.range 16).map (fun r => (r + 1, s.getF (pgRGN r) Reg.RGN_TEMP_T)) ++
            (List.range 16).map (fun r => (r + 18, s.getF (pgRGN r) Reg.RGN_VOLT_MV)) ++
            [(34, m.power), (38, s.gear), (40, m.pwrLimit), (35, m.sensors.get 35 0), (36, m.sensors.get 36 0), (37, m.sensors.get 37 0)] →
          Completes (.pldmSensorRead a id) s (fun u => u = s.emit (.message [id.toNat, v]))) ∧
        (m.powered = true → id = 17 → Completes (.pldmSensorRead a id) s (fun u => ∃ v, u = s.emit (.message [17, v]) ∧
          ∀ r ∈ s.regions, temp r ≤ sgn 16 v)) ∧
        (id = 39 → Completes (.pldmSensorRead a id) s (fun u => u.sent = s.sent ++ [.message [39, m.faultCause]] ∧
          u.module = { m with faultUnread := false }))))

/-- Power, heat and PLDM sensors of the module. -/
def Obligations.PowerAndHeat : Prop :=
  Claims.Power ∧ Claims.Thermal

/-- ALERT_N is low exactly while DEV_ERRSUM is not zero, the thermal warning is active, a latched power fault has not been
read, or THERM_TRIP_N is low (14 R395); without auxiliary power it is not driven (14 R392). -/
def Obligations.AlertPin : Prop :=
  ∀ s : State,
    (s.module.aux = true → (s.alertLow = true ↔
      s.regWord pgDEV 0x114 ≠ 0 ∨ s.module.warning = true ∨ s.module.faultUnread = true ∨ s.module.trip = true)) ∧
    (s.module.aux = false → s.alertLow = false)

/-- The test access port: five periods of TCK with TMS high reach Test-Logic-Reset from any state, where BYPASS is selected;
BYPASS delays TDI by one period; the boundary-scan register captures the pins that the part drives or reads, or what EXTEST drives, and
takes what was shifted at Update-DR. The debug access port reads any register and any stored scratchpad word, writes registers but
issues no mailbox command, and halts a tile; a sealed part has none (00 R6; 12 R346, R355; 14 R397). The codes, the lengths of the chains
and the layout of the debug register are the model's (log entry 13). -/
def Obligations.TestPort : Prop :=
  ∀ (s : State), s.module.aux = true →
    let m := s.module
    (∀ tdi trst, (trst = true ∨ ((m.tap = .selIr ∨ m.tap = .reset))) → Completes (.jtagTapClock true tdi trst) s (fun u =>
      u.module.tap = .reset ∧ u.module.ir = 0xF ∧ u.module.tdo = none)) ∧
    (∀ t1 t2 t3 t4 t5, ∃ u1 u2 u3 u4 u5, exec (.jtagTapClock true t1 false) s = .next u1 ∧
      exec (.jtagTapClock true t2 false) u1 = .next u2 ∧ exec (.jtagTapClock true t3 false) u2 = .next u3 ∧
      exec (.jtagTapClock true t4 false) u3 = .next u4 ∧ exec (.jtagTapClock true t5 false) u4 = .next u5 ∧
      u5.module.tap = .reset ∧ u5.module.ir = 0xF) ∧
    (∀ tdi, m.tap = .shiftDr → m.ir = 0xF → Completes (.jtagTapClock false tdi false) s (fun u =>
      u.module.bypass = tdi ∧ u.module.tdo = some tdi ∧ u.module.tap = .shiftDr)) ∧
    (∀ tms tdi, m.tap = .shiftIr → Completes (.jtagTapClock tms tdi false) s (fun u =>
      u.module.irShift.toNat = m.irShift.toNat / 2 + (if tdi then 8 else 0))) ∧
    (∀ tms tdi, m.tap = .capDr → (m.ir = 0 ∨ m.ir = 1) → Completes (.jtagTapClock tms tdi false) s (fun u =>
      u.module.dr.length = 30 ∧
      (m.ir = 1 → ∀ i b, (i, b) ∈ [(0, m.resetHigh), (1, m.pwrGood), (2, !s.alertLow), (3, !m.trip)] ++
          (List.range 4).map (fun k => (5 + k, s.hif.ingrdy.testBit k)) ++ (List.range 7).map (fun k => (9 + k, m.pos.getLsbD k)) →
        u.module.dr[i]? = some b) ∧
      (m.ir = 1 → s.franks.driveUntil.isSome = true → u.module.dr[4]? = some false) ∧
      (m.ir = 0 → m.boundary.length = 30 → ∀ i, (1 ≤ i ∧ i ≤ 8 ∨ i = 17 ∨ 20 ≤ i ∧ i ≤ 23) →
        u.module.dr[i]? = m.boundary[i]?))) ∧
    (∀ tms tdi, m.tap = .shiftDr → (m.ir = 0 ∨ m.ir = 1) → Completes (.jtagTapClock tms tdi false) s (fun u =>
      u.module.dr = m.dr.drop 1 ++ [tdi])) ∧
    (∀ tdi, (m.tap = .exit1Dr ∨ m.tap = .exit2Dr) → (m.ir = 0 ∨ m.ir = 1) → Completes (.jtagTapClock true tdi false) s (fun u =>
      u.module.tap = .updDr ∧ u.module.boundary = m.dr)) ∧
    (∀ tdi, (m.tap = .exit1Dr ∨ m.tap = .exit2Dr) → m.ir = 8 → s.mgmt.daport = true →
      let w := (m.dr.zipIdx).foldl (fun (n : Nat) e => n + Machine.bit e.1 e.2) 0
      let op := bits w 95 92
      let pg := bits w 91 80
      let off := bits w 79 68
      let runs := Completes (.jtagTapClock true tdi false) s
      (op = 1 → runs (fun u => u.module.debug = s.regWord pg off)) ∧
      (op = 2 → bits w 83 65 < spdUnits → runs (fun u =>
        u.module.debug = ((s.tile (bits w 91 84)).spd.get (bits w 83 65 * 32 + bits w 64 60) 0).toNat)) ∧
      (op = 3 → pg = pgMGT → off = 0x104 → s.devMet pgMGT (Reg.MGT_ARG_WORD.at 0) = false → runs (fun u => u.arg 0 = bits w 31 0)) ∧
      (op = 3 → pg = pgMGT → off = 0x100 → runs (fun u => u.getF pgMGT Reg.MGT_CMD_GO = s.getF pgMGT Reg.MGT_CMD_GO)) ∧
      (op = 5 → s.pageOpen (pgTIL (bits w 91 84)) = true → runs (fun u => u.seqState (bits w 91 84) = seqHALTED))) ∧
    (∀ tms tdi trst, (m.ir ≠ 8 ∨ s.mgmt.daport = false) → Completes (.jtagTapClock tms tdi trst) s (fun u =>
      u.regs = s.regs ∧ u.tiles = s.tiles ∧ u.mgmt = s.mgmt))

/-- SPDM over DOE: VERSION 1.2, then capabilities, then algorithms, and after these digests, certificate, challenge and
measurements; a request out of that order is an error, and a part in recovery answers none (12 R350, R352, Table 3). Codes are SPDM
1.2's; nonces and signatures are free (log entry 15). -/
def Obligations.Attestation : Prop :=
  ∀ (s : State), s.dmaOk = true → s.getF pgMGT Reg.MGT_BOOT_STAGE ≠ 0xF →
    let chain := Config.certificate 0
    Completes .getVersion s (fun u => u.sent = s.sent ++ [.message [0x04, 0x12]] ∧ u.mgmt.spdmVersion = true ∧
      u.mgmt.spdmCaps = false ∧ u.mgmt.spdmAlgs = false) ∧
    (s.mgmt.spdmVersion = true → Completes .getCapabilities s (fun u => u.sent = s.sent ++ [.message [0x61]] ∧
      u.mgmt.spdmCaps = true)) ∧
    (s.mgmt.spdmCaps = true → Completes .negotiateAlgorithms s (fun u => u.sent = s.sent ++ [.message [0x63, 0x80, 0x02]] ∧
      u.mgmt.spdmAlgs = true)) ∧
    (s.mgmt.spdmAlgs = true →
      Completes .getDigests s (fun u => u = s.emit (.message [0x01, 1, Config.digest chain])) ∧
      (∀ off len : BitVec 16, off.toNat < chain.length →
        let part := (chain.drop off.toNat).take len.toNat
        Completes (.getCertificate 0 off len) s (fun u =>
          u = s.emit (.message ([0x02, 0, part.length, chain.length - off.toNat - part.length] ++ part)))) ∧
      (∀ slot off len, (slot ≠ 0 ∨ chain.length ≤ off.toNat) →
        Completes (.getCertificate slot off len) s (fun u => u = s.emit (.message [0x7F, 0x01]))) ∧
      (∀ nonce, Completes (.challenge 0 nonce) s (fun u => ∃ a b, u.sent = s.sent ++
        [.message [0x03, 0, nonce.toNat, Config.digest chain, a, b]] ∧ a < 2 ^ 256 ∧ b < 2 ^ 768)) ∧
      (∀ slot nonce, slot ≠ 0 → Completes (.challenge slot nonce) s (fun u => u = s.emit (.message [0x7F, 0x01]))) ∧
      Completes (.getMeasurements 0) s (fun u => u = s.emit (.message [0x60, 7])) ∧
      Completes (.getMeasurements 1) s (fun u => u = s.emit (.message [0x60, 1, Config.bootRomDigest])) ∧
      (∀ i, s.mgmt.runningCopy = some false → s.mgmt.copyA = some i → Completes (.getMeasurements 2) s (fun u =>
        u = s.emit (.message [0x60, 1, Config.digest (s.mgmt.runningSvn :: i.raw)]))) ∧
      Completes (.getMeasurements 3) s (fun u =>
        u = s.emit (.message [0x60, 1, Config.digest ((List.range 9).map (fun k => s.fuse (0x048 + k)))])) ∧
      (∀ p : PartId, Completes (.getMeasurements (BitVec.ofNat 8 (4 + p.val))) s (fun u => u = s.emit (.message
        [0x60, 1, match s.image p.val with | some im => Config.digest im.raw | none => 0]))) ∧
      (∀ i : BitVec 8, 7 < i.toNat → i ≠ 0xFF → Completes (.getMeasurements i) s (fun u => u = s.emit (.message [0x7F, 0x01])))) ∧
    (∀ c slot off len nonce i, (c = .getCapabilities ∧ s.mgmt.spdmVersion = false ∨
        c = .negotiateAlgorithms ∧ s.mgmt.spdmCaps = false ∨
        s.mgmt.spdmAlgs = false ∧ c ∈ [Instr.getDigests, .getCertificate slot off len, .challenge slot nonce, .getMeasurements i]) →
      Completes c s (fun u => u = s.emit (.message [0x7F, 0x04])))

/-- Topology: an announcement carries the links of the chip under the next VERSION; a newer one of another chip is kept, an
older one not; one of this chip's own that it never sent disables the sub-trunks; an ORIGIN unheard for 5 s is forgotten
(15 R421). -/
def Claims.Topology : Prop :=
  ∀ (s : State), s.mgmt.clerkUp = true →
    (let v := (s.mgmt.topoVersion + 1) % 65536
     let l := leBytes s.chipId 2 ++ leBytes v 2 ++ leBytes 47 1 ++ [0, 0, 0] ++ allPorts.flatMap (fun x => leBytes x 1 ++
       leBytes (s.linkState x) 1 ++ leBytes (s.peerChip x) 2 ++ leBytes (s.getL x Reg.ICL_LEDGER0_PEER_PORT) 1 ++
       leBytes (s.getL x Reg.ICL_LEDGER1_LAT_NS) 2 ++ [0])
     Completes .topologyAnnounceSend s (fun u => u.mgmt.topoVersion = v ∧ u.mgmt.topoSent = s.mgmt.topoSent ++ [l] ∧
       u.mgmt.topo = s.mgmt.topo)) ∧
    (∀ (port : PortId) (bytes : List Byte), bytes.length = 384 → leNat (slice bytes 4 5) = 47 →
      (slice bytes 5 8).all (· == 0) = true →
      let o := leNat (slice bytes 0 2)
      let v := leNat (slice bytes 2 4)
      let known := s.mgmt.topo.find? (fun t => t.origin == o)
      (o ≠ s.chipId →
        ((known = none ∨ ∃ t, known = some t ∧ 1 ≤ (v + 65536 - t.version % 65536) % 65536 ∧
            (v + 65536 - t.version % 65536) % 65536 < 32768) →
          Completes (.topologyAnnounceReceive port bytes) s (fun u =>
            u.mgmt.topo.find? (fun t => t.origin == o) = some ⟨o, v, bytes, s.nt⟩)) ∧
        (∀ t, known = some t → ((v + 65536 - t.version % 65536) % 65536 = 0 ∨ 32768 ≤ (v + 65536 - t.version % 65536) % 65536) →
          Completes (.topologyAnnounceReceive port bytes) s (fun u => u.sent = s.sent ∧ u.links = s.links ∧
            u.mgmt.topo.map (fun t => (t.origin, t.version, t.bytes)) = s.mgmt.topo.map (fun t => (t.origin, t.version, t.bytes))))) ∧
      (o = s.chipId → bytes ∉ s.mgmt.topoSent → Completes (.topologyAnnounceReceive port bytes) s (fun u =>
        ∀ x, 15 ≤ x → x < 47 → u.getL x Reg.ICL_CTL_EN = 0)) ∧
      (o = s.chipId → bytes ∈ s.mgmt.topoSent → Completes (.topologyAnnounceReceive port bytes) s (fun u => u = s))) ∧
    (∀ (origin : BitVec 16) t, s.mgmt.topo.find? (fun t => t.origin == origin.toNat) = some t →
      Completes (.topologyOriginExpiry origin) s (fun u => t.heard + 5000000000 * nsUnit ≤ u.nt ∧
        ∀ z ∈ u.mgmt.topo, z.origin ≠ origin.toNat))

/-- The route table: a write sets the entry that ICH_URT_ADDR names; an update writes for a rack that a neighbour in UP lies
in, where a packet goes on from that neighbour to every chip known there by R422, the lowest of the ports to such a neighbour (15 R422,
R423, R429). That a route is asked to reach the chips known of is log entry 79. -/
def Claims.RouteTable : Prop :=
  ∀ (s : State),
    (∀ v : BitVec 32, Completes (.urtDataWrite v) s (fun u =>
      u.ich.urt.get (s.getF pgPH Reg.ICH_URT_ADDR_RACK) 0 = v.toNat / 128 % 2 * 128 + v.toNat % 64 ∧
      (∀ k, k ≠ s.getF pgPH Reg.ICH_URT_ADDR_RACK → u.ich.urt.get k 0 = s.ich.urt.get k 0) ∧ u.regs = s.regs)) ∧
    (s.mgmt.clerkUp = true → Completes .routeTableUpdate s (fun u => u.regs = s.regs ∧ u.mgmt = s.mgmt ∧
      (∀ x, x < 47 → s.linkState x = lnkUP → chipRack (s.peerChip x) ≠ chipRack s.chipId →
        s.entersAt (chipRack (s.peerChip x)) (s.peerChip x) = true →
        (∀ y, y < x → s.linkState y = lnkUP → s.entersAt (chipRack (s.peerChip x)) (s.peerChip y) = false) →
        u.ich.urt.get (chipRack (s.peerChip x)) 0 = 128 + x) ∧
      u.ich.urt.get (chipRack s.chipId) 0 = 0))

/-- Topology announcements and the route table. -/
def Obligations.TopologyAndRoutes : Prop :=
  Claims.Topology ∧ Claims.RouteTable

/-- The table window: a read shows the entry that ICH_TBL_ADDR names, a write stores the data unless the entry's bank is kept,
its slot leased by a loaded partition, or it names none; REFUSED tells which (06 R166, R188, R191, R193). -/
def Claims.TableWindow : Prop :=
  ∀ (s : State),
    let a := s.tblAddr
    let v := [0, 1, 2, 3].foldl (fun n k => n + s.getF pgTBL (Reg.ICH_TBL_DATA_WORD.at k) * 2 ^ (32 * k)) 0
    let names := a.table ≤ 2 ∧ a.port < 47 ∧ (a.table = 2 → a.index < 64)
    let refused := fun (c : Instr) => Completes c s (fun u => u.ich = s.ich ∧ u.getF pgTBL Reg.ICH_TBL_STAT_REFUSED = 1 ∧
      u.getF pgTBL Reg.ICH_TBL_STAT_DONE = 1)
    (¬ names → refused .tableWindowRead ∧ refused .tableWindowWrite) ∧
    (names → a.table < 2 → Completes .tableWindowRead s (fun u => u.ich = s.ich ∧
      u.getF pgTBL Reg.ICH_TBL_STAT_REFUSED = 0 ∧ u.getF pgTBL Reg.ICH_TBL_STAT_DONE = 1 ∧
      ∀ k, k < 4 → u.getF pgTBL (Reg.ICH_TBL_DATA_WORD.at k) =
        (s.ich.tables.get (tableKey a.table a.port a.bank a.index) 0).toNat / 2 ^ (32 * k) % 2 ^ 32)) ∧
    (names → a.table = 2 → Completes .tableWindowRead s (fun u =>
      u.getF pgTBL (Reg.ICH_TBL_DATA_WORD.at 0) = s.ich.lease.get (64 * a.port + a.index) 0 % 2 ^ 32)) ∧
    (names → s.tblRefused a (BitVec.ofNat 128 v) = true → refused .tableWindowWrite) ∧
    (names → s.tblRefused a (BitVec.ofNat 128 v) = false → (∀ pg, 0x020 ≤ pg → pg ≤ 0x023 → Calm s pg) →
      Completes .tableWindowWrite s (fun u => u.getF pgTBL Reg.ICH_TBL_STAT_REFUSED = 0 ∧
        (a.table < 2 →
          let w := s.ich.tables.put (tableKey a.table a.port a.bank a.index) (BitVec.ofNat 128 v) 0
          u.ich = { s.ich with tables := w }) ∧
        (a.table = 2 →
          let w := s.ich.lease.put (64 * a.port + a.index) (v % 8) 0
          u.ich = { s.ich with lease := w })))

/-- Port names, SDS bits and cell ranges: each is written only where no loaded partition depends on it; ARM arms a swap, unless the
device has changed it in the same cycle (06 R163, R166, R187, R191, R194; 13 R382). -/
def Claims.PortRegisters : Prop :=
  ∀ (s : State) (p : PartId),
    (s.devMet pgICH (Reg.ICH_SWAP_ARM.at p.val) = false →
      Completes (.swapArm p) s (fun u => u = s.setF pgICH (Reg.ICH_SWAP_ARM.at p.val) 1)) ∧
    (s.devMet pgICH (Reg.ICH_SWAP_ARM.at p.val) = true → Completes (.swapArm p) s (fun u => u = s)) ∧
    (∀ (bank : Bool) (w : Fin 12) (v : BitVec 32),
      let g := if bank then 1 else 0
      (s.bankKept p.val g = true → Completes (.aliasEntryWrite p bank w v) s (fun u =>
        u = s.setF pgTBL Reg.ICH_TBL_STAT_REFUSED 1)) ∧
      (s.bankKept p.val g = false → Completes (.aliasEntryWrite p bank w v) s (fun u =>
        ∀ k, k < 4 → 4 * w.val + k < 47 → u.ich.names.get ((2 * p.val + g) * 64 + 4 * w.val + k) 0 =
          v.toNat / 2 ^ (8 * k + 7) % 2 * 128 + v.toNat / 2 ^ (8 * k) % 64))) ∧
    (∀ (hi : Bool) (v : BitVec 32), Completes (.sdsWrite hi v) s (fun u =>
      ∀ k, k < 32 → (if hi then 32 + k < 47 else True) →
        (u.getF pgALI (if hi then Reg.ICH_SDS1_PORTS else Reg.ICH_SDS0_PORTS)).testBit k =
          (if s.leasedByHolder (k + (if hi then 32 else 0)) then
            (s.getF pgALI (if hi then Reg.ICH_SDS1_PORTS else Reg.ICH_SDS0_PORTS)).testBit k else v.getLsbD k))) ∧
    (∀ (limit : Bool) (v : BitVec 32),
      (s.holdsImage p.val = true → Completes (.pigeonholeRangeWrite p limit v) s (fun u => u = s)) ∧
      (s.holdsImage p.val = false → Completes (.pigeonholeRangeWrite p limit v) s (fun u =>
        (limit = false → u.getF pgPH (Reg.ICH_PH_BASE_CELL.at p.val) = v.toNat % 2 ^ 17) ∧
        (limit = true → u.getF pgPH (Reg.ICH_PH_LIMIT_CELL.at p.val) = min (v.toNat % 2 ^ 17) 0x1A000))))

/-- The table window, port names, SDS and cell ranges. -/
def Obligations.TablesAndPorts : Prop :=
  Claims.TableWindow ∧ Claims.PortRegisters

/-- A write of a handle entry or of a slot-wheel register takes effect while its tile is HALTED, each field that can be written
taking its bits, and at no other time (05 R133). -/
def Obligations.HaltedWrites : Prop :=
  ∀ (s : State) (t : TileId) (off : BitVec 12) (v : BitVec 32),
    let o := off.toNat
    (s.seqState t.val ≠ seqHALTED → Completes (.handleEntryWrite t off v) s (fun u => u = s)) ∧
    (s.seqState t.val = seqHALTED → s.pageOpen (pgTIL t.val) = true → (∀ f, s.devMet (pgTIL t.val) f = false) → (0x400 ≤ o ∧ o ≤ 0x7FF ∨ 0x200 ≤ o ∧ o ≤ 0x27F) →
      Completes (.handleEntryWrite t off v) s (fun u =>
        ∀ f ∈ Reg.tilFields.filterMap (fun f => f.hit o), f.acc = .rw →
          u.getF (pgTIL t.val) f = v.toNat / 2 ^ f.lo % 2 ^ f.width))

/-- A tile's handle, wheel and inspector registers take writes only while it is halted; counters take any value; an injection
is armed or cancelled by ARM on a page that has a target, but for the cycle in which the injection itself happens; 0x4558 opens a
page's expert key and any other value closes it; RACK is written only while every link is DOWN and no partition has an image (03 R91; 05
R133; 13 R378, R379, R382, R384). -/
def Claims.GuardedRegisters : Prop :=
  ∀ (s : State) (t : TileId),
    let pg := pgTIL t.val
    let still := ∀ n f, s.devMet n f = false
    (∀ (h : BitVec 6) (v : BitVec 32), still → s.seqState t.val = seqHALTED → s.pageOpen pg = true →
      Completes (.handleEntryWrite t (BitVec.ofNat 12 (0x400 + 16 * h.toNat)) v) s (fun u =>
        u.getF pg (Reg.TIL_HND_VALID.at h.toNat) = v.toNat / 2 ^ 31 ∧ u.getF pg (Reg.TIL_HND_BASE.at h.toNat) = v.toNat % 2 ^ 19)) ∧
    (∀ off v, s.seqState t.val ≠ seqHALTED → Completes (.handleEntryWrite t off v) s (fun u => u = s)) ∧
    (∀ (m : Fin 4) (v : BitVec 32),
      (s.seqState t.val = seqHALTED → s.pageOpen pg = true → Completes (.inspectorModeWrite t m v) s (fun u =>
        u = s.setF pg (Reg.TIL_INSP_MODE.at m.val) v.toNat)) ∧
      (s.seqState t.val ≠ seqHALTED → Completes (.inspectorModeWrite t m v) s (fun u => u = s))) ∧
    (∀ v : BitVec 32, s.pageOpen pg = true → Completes (.counterWrite (.bar0 (BitVec.ofNat 12 pg)) (BitVec.ofNat 12
        Reg.TIL_SPD_CECNT_COUNT.off) v) s (fun u => u.getF pg Reg.TIL_SPD_CECNT_COUNT = v.toNat)) ∧
    (∀ v : BitVec 32, s.devMet pg Reg.BLK_ERR_INJ_ARM = true → Completes (.errorInjectionArm (BitVec.ofNat 12 pg) v) s (fun u => u = s)) ∧
    (∀ v : BitVec 32, still → s.pageOpen pg = true → Completes (.errorInjectionArm (BitVec.ofNat 12 pg) v) s (fun u =>
      u.getF pg Reg.BLK_ERR_INJ_ARM = v.toNat / 2 ^ 31 ∧ u.getF pg Reg.BLK_STAT_INJPEND = v.toNat / 2 ^ 31 ∧
      u.getF pg Reg.BLK_ERR_INJ_KIND = v.toNat / 2 ^ 28 % 8 ∧ u.getF pg Reg.BLK_ERR_INJ_BIT0 = v.toNat / 2 ^ 8 % 64)) ∧
    (∀ n v, injects n.toNat = false → Completes (.errorInjectionArm n v) s (fun u => u = s)) ∧
    (∀ (n : BitVec 12) (v : BitVec 32), s.pageOpen n.toNat = true → Completes (.expertKeyWrite n v) s (fun u =>
      u.getF n.toNat Reg.BLK_EXPERT_KEY_OPEN = (if v.toNat = 0x4558 then 1 else 0))) ∧
    (∀ v : BitVec 32,
      ((∀ x, x < 47 → s.linkState x = lnkDOWN) → (∀ p, p < 4 → s.holdsImage p = false) → Completes (.rackWrite v) s (fun u =>
        u.getF pgDEV Reg.DEV_CHIP_ID_RACK = v.toNat / 2 ^ 7 % 2 ^ 9 ∧ u.getF pgDEV Reg.DEV_CHIP_ID_SET = 1)) ∧
      (((∃ x, x < 47 ∧ s.linkState x ≠ lnkDOWN) ∨ ∃ p, p < 4 ∧ s.holdsImage p = true) → Completes (.rackWrite v) s (fun u => u = s))) ∧
    (∀ (i : Fin 32) (w : Fin 8) (v : BitVec 32), still → Completes (.rwtEntryWrite i w v) s (fun u =>
      ∀ f ∈ Reg.ich3Fields.filterMap (fun f => if f.off < 0x200 then none else f.hit (0x200 + 0x20 * i.val + 4 * w.val)),
        f.acc = .rw → u.getF pgPH f = v.toNat / 2 ^ f.lo % 2 ^ f.width))

/-- A plain write acts by its fields' access codes: RW takes the value, W1C clears, read-only keeps; a part of a word is ignored, and of
two words the lower is written first. A write of MGT_CMD sets GO, or is flagged while BUSY; a register with a row of its own is written
as that row says. Reads of PRT_STEP_LO and PRT_ROUND answer what is asked for and latch their pair; every page has its header; a
partition in reset reads all ones and ignores writes. A vector is masked by its word in its function's MSI-X table (00 R10, R11; 11 R319,
R335; 12 R346; 13 R371 to R375, R383, R386). Where the PF's table lies is log entry 11. -/
def Claims.PlainAccesses : Prop :=
  ∀ (s : State) (p : PartId) (v : BitVec 32),
    let pg := pgPRT p.val
    let still := ∀ n f, s.devMet n f = false
    let write := fun (n off : Nat) => Completes (.registerWrite (.bar0 (BitVec.ofNat 12 n)) (BitVec.ofNat 16 off) (.word v)) s
    (still → write pgDEV 0x008 (fun u => u.getF pgDEV Reg.BLK_CTRL_SNAP_EN = v.toNat / 2 ^ Reg.BLK_CTRL_SNAP_EN.lo % 2 ∧
      u.getF pgDEV Reg.BLK_CTRL_ALERT_EN = v.toNat / 2 ^ Reg.BLK_CTRL_ALERT_EN.lo % 2)) ∧
    write pgDEV 0x010 (fun u => (v.getLsbD 2 = true → s.getF pgDEV Reg.BLK_ERR_CONTROL ≤ 1 → u.getF pgDEV Reg.BLK_ERR_CONTROL = 0) ∧
      (v.getLsbD 2 = false → s.getF pgDEV Reg.BLK_ERR_CONTROL ≤ 1 →
        u.getF pgDEV Reg.BLK_ERR_CONTROL = s.getF pgDEV Reg.BLK_ERR_CONTROL)) ∧
    write pgDEV 0x108 (fun u => ∀ f ∈ [Reg.DEV_CAPS_GRADE, Reg.DEV_CAPS_TILES, Reg.DEV_CAPS_REGIONS],
      u.getF pgDEV f = s.getF pgDEV f) ∧
    (still → write pgMGT 0x104 (fun u => u.arg 0 = v.toNat)) ∧
    (∀ w : BitVec 32, still → Completes (.registerWrite (.bar0 (BitVec.ofNat 12 pgMGT)) 0x108 (.pair v w)) s (fun u =>
      u.arg 1 = v.toNat ∧ u.arg 2 = w.toNat)) ∧
    (∀ n off e, Completes (.registerWrite n off (.bytes e v)) s (fun u => u = s)) ∧
    (∀ n : BitVec 12, s.pageOpen n.toNat = true →
      exec (.registerWrite (.bar0 n) 0x01C (.word v)) s = exec (.expertKeyWrite n v) s ∧
      exec (.registerWrite (.bar0 n) 0x018 (.word v)) s = exec (.errorInjectionArm n v) s) ∧
    (still → v.getLsbD 31 = true → s.getB pgMGT Reg.MGT_RSP_BUSY = false → write pgMGT 0x100 (fun u =>
      u.getF pgMGT Reg.MGT_CMD_GO = 1 ∧ u.mailboxOp = v.toNat / 2 ^ 16 % 256 ∧ u.getF pgMGT Reg.MGT_CMD_TAG = v.toNat % 2 ^ 16)) ∧
    (v.getLsbD 31 = true → s.getB pgMGT Reg.MGT_RSP_BUSY = true → write pgMGT 0x100 (fun u =>
      u.getF pgMGT Reg.MGT_RSP_IGNORED = 1 ∧ u.getF pgMGT Reg.MGT_CMD_GO = s.getF pgMGT Reg.MGT_CMD_GO)) ∧
    (∀ (t : TenantId) (k : Fin 8), s.vfExists t.val = true → v.getLsbD 0 = true →
      Completes (.registerWrite (.vf t) (BitVec.ofNat 16 (0x200C + 16 * k.val)) (.word v)) s (fun u =>
        (u.vector (t.val + 1) k.val) = { s.vector (t.val + 1) k.val with masked := true } ∧ u.regs = s.regs)) ∧
    (∀ k : Fin 64, v.getLsbD 0 = true → Completes (.registerWrite .pfMsix (BitVec.ofNat 16 (0x00C + 16 * k.val)) (.word v)) s
      (fun u => (u.vector 0 k.val) = { s.vector 0 k.val with masked := true } ∧ u.regs = s.regs)) ∧
    (∀ off, (∀ r, r < 16 → s.getF pgDEV Reg.DEV_CAPS_REGIONS ≤ r → s.regWord (pgRGN r) off = 0) ∧
      ∀ r, r < s.getF pgDEV Reg.DEV_CAPS_REGIONS → r < 16 → s.scopeInReset (.region r) = true → s.regWord (pgRGN r) off = 0xFFFFFFFF) ∧
    (∀ n, s.pageOpen n = true → s.regWord n 0x004 = 0x0100 ∧
      ∀ k, k < 48 → s.regWord n (0x040 + 4 * k) = s.franks.snaps.get (64 * n + k) 0) ∧
    (∀ t, t < 256 → s.pageOpen (pgTIL t) = true → s.regWord (pgTIL t) 0x000 = 0x01000000 + t) ∧
    (Scope.part p.val ∈ s.mgmt.resets → ∀ size,
      Completes (.prtStepRead p size) s (fun u => u = s.emit (.value (readOf size (2 ^ 64 - 1)))) ∧
      Completes (.prtRoundRead p size) s (fun u => u = s.emit (.value (readOf size (2 ^ 64 - 1)))) ∧ write pg 0x008 (fun u => u = s)) ∧
    (Scope.part p.val ∉ s.mgmt.resets →
      (∀ size, s.getF pg Reg.PRT_STEP_LO < 2 ^ 32 → s.getF pg Reg.PRT_STEP_HI < 2 ^ 32 →
        Completes (.prtStepRead p size) s (fun u =>
          u.sent = s.sent ++ [.value (readOf size (s.getF pg Reg.PRT_STEP_LO + s.getF pg Reg.PRT_STEP_HI * 2 ^ 32))] ∧
          u.regWord pg 0x114 = s.getF pg Reg.PRT_STEP_HI)) ∧
      (∀ size, s.round p.val < 2 ^ 32 → s.regWord pg 0x100 < 2 ^ 32 → Completes (.prtRoundRead p size) s (fun u =>
        u.sent = s.sent ++ [.value (if size = .pair then s.regWord pg 0x100 + s.round p.val * 2 ^ 32 else readOf size (s.round p.val))] ∧
        u.getF pg Reg.PRT_BEAT_BEAT = (if s.prtState p.val = prtRUNNING then s.partBeat p.val % 2 ^ 24 else 0xFFFFFF))))

/-- Guarded registers, plain writes and latching reads. -/
def Obligations.RegisterAccesses : Prop :=
  Claims.GuardedRegisters ∧ Claims.PlainAccesses

/-- A step carries out the command at the front of the queue, with the rest of the queue; on an empty queue one nanosecond of
the local time base passes (log entry 1). -/
def Claims.StepRunsFront : Prop :=
  ∀ (s : State),
    (∀ (c : Instr) (l : List Instr), step { s with pending := c :: l } = exec c { s with pending := l }) ∧
    (s.pending = [] → ∃ u, step s = .next u ∧ u.regs = s.regs ∧ u.tiles = s.tiles ∧ u.sent = s.sent ∧ u.pending = [] ∧
      u.nt = s.nt + ((nsUnit : Int) + sgn 32 (s.getF pgTMB Reg.TMB_RATE_RATE)).toNat)

/-- Every command completes: no meaning stops. -/
def Claims.EveryCommandCompletes : Prop := ∀ (c : Instr) (s : State), Completes c s (fun _ => True)

/-- A step runs the command in front; every command completes (log entry 1). -/
def Obligations.StepRunsFront : Prop :=
  Claims.StepRunsFront ∧ Claims.EveryCommandCompletes

/-- The frame of every command: what its row of `mayChange` does not name is left as it was. -/
def Obligations.CommandFrames : Prop :=
  ∀ (c : Instr) (s u : State) (k : Comp), exec c s = .next u → k ∉ mayChange c → State.same s u k

/-- Slot words: decoding what is encoded gives the operation back, and a word that decodes has one operation, which is well
formed and encodes to that word: no bit of an encoding is dropped (04 R96 to R119, Tables 1 to 15). -/
def Obligations.SlotWordsAgree : Prop :=
  (∀ b : Bundle, b.WF = true → decodeSc (encodeSc b.sc) = .ok b.sc ∧ decodeDm (encodeDm b.dm) = .ok b.dm ∧
    decodeMx (encodeMx b.mx) = .ok b.mx ∧ decodeVx (encodeVx b.vx) = .ok b.vx) ∧
  (∀ (w : Word),
    (∀ o, decodeSc w = .ok o → o.WF = true ∧ encodeSc o = w) ∧ (∀ o, decodeDm w = .ok o → o.WF = true ∧ encodeDm o = w) ∧
    (∀ o, decodeMx w = .ok o → o.WF = true ∧ encodeMx o = w) ∧ (∀ o, decodeVx w = .ok o → o.WF = true ∧ encodeVx o = w))

/-- What every step keeps: the canonical form of the sparse stores (host memory, fuses, tiles with their scratchpads, partitions, links,
region monitors; the interchange's tables, leases, names, cells, port uses and unscheduled routes; host runs, tenants and the PF's
vectors; the snapshots, hidden tiles, sensors and the cycles of device changes), each register once in order; every blown fuse bit (12 R353: it can never return to 0); and the queue behind the command it takes. -/
def Obligations.EveryStepKeeps : Prop :=
  ∀ (s t : State), step s = .next t → (s.Canonical → t.Canonical) ∧ t.pending = s.pending.tail ∧
    ∀ w i, (s.fuse w).testBit i = true → (t.fuse w).testBit i = true

/-- The reset state: canonical, with an empty queue, every tile HALTED, partition 0 EMPTY with all sixteen regions, the other
partitions without regions, every link DOWN, no time acquired, and not READY (03 R90; 07 R230; 08 R258; 12 R369; 13
R386, Table 7). -/
def Obligations.ResetState : Prop :=
  State.reset.Canonical ∧ State.reset.pending = [] ∧
  (∀ t, t < 256 → State.reset.seqState t = seqHALTED ∧ (State.reset.tile t).spd = []) ∧
  State.reset.prtState 0 = prtEMPTY ∧ State.reset.tilesOf 0 = List.range 256 ∧
  (∀ p, 0 < p → p < 4 → State.reset.prtState p = prtNOREGIONS) ∧
  (∀ x, x < 47 → State.reset.linkState x = lnkDOWN) ∧ State.reset.hasTime = false ∧ State.reset.isReady = false ∧
  State.reset.getF pgTBL Reg.ICH_TBL_STAT_DONE = 1
end

