-- ==== Sys2Proof/Laws/Map.lean ====
section
/-! SUPPORT. Sparse storage: what is read after a write, and the canonical form. -/

namespace Sys2Proof.Machine

variable {α : Type}

@[simp] theorem Map.get_nil (k : Nat) (d : α) : Map.get ([] : Map α) k d = d := rfl

theorem Map.get_insert_same (m : Map α) (k : Nat) (v d : α) : (m.insert k v).get k d = v := by
  induction m with
  | nil => simp [Map.insert, Map.get]
  | cons e m ih =>
    obtain ⟨k', v'⟩ := e
    unfold Map.insert
    split
    · simp [Map.get]
    · split
      · simp [Map.get]
      · simp [Map.get, *]

theorem Map.get_insert_ne (m : Map α) (k j : Nat) (v d : α) (h : k ≠ j) : (m.insert k v).get j d = m.get j d := by
  induction m with
  | nil => simp [Map.insert, Map.get, h]
  | cons e m ih =>
    obtain ⟨k', v'⟩ := e
    unfold Map.insert
    split
    · simp [Map.get, h]
    · split
      · subst k'; simp [Map.get, h]
      · simp [Map.get, ih]

theorem Map.get_erase_same (m : Map α) (k : Nat) (d : α) : (m.erase k).get k d = d := by
  induction m with
  | nil => rfl
  | cons e m ih =>
    obtain ⟨k', v'⟩ := e
    by_cases h : k' = k
    · subst h; simpa [Map.erase] using ih
    · have : (Map.erase ((k', v') :: m) k) = (k', v') :: Map.erase m k := by simp [Map.erase, h]
      rw [this]; simpa [Map.get, h] using ih

theorem Map.get_erase_ne (m : Map α) (k j : Nat) (d : α) (h : k ≠ j) : (m.erase k).get j d = m.get j d := by
  induction m with
  | nil => rfl
  | cons e m ih =>
    obtain ⟨k', v'⟩ := e
    by_cases hk : k' = k
    · subst hk
      have : (Map.erase ((k', v') :: m) k') = Map.erase m k' := by simp [Map.erase]
      rw [this]; simp [Map.get, h, ih]
    · have : (Map.erase ((k', v') :: m) k) = (k', v') :: Map.erase m k := by simp [Map.erase, hk]
      rw [this]; simp [Map.get, ih]

variable [DecidableEq α]

@[simp] theorem Map.get_put_same (m : Map α) (k : Nat) (v d : α) : (m.put k v d).get k d = v := by
  unfold Map.put
  split
  · subst v; exact Map.get_erase_same m k d
  · exact Map.get_insert_same m k v d

/-- What an unlisted key reads as need not be the same where the map is read: keys other than the written one read as
before. -/
theorem Map.get_put_ne (m : Map α) (k j : Nat) (v d d' : α) (h : k ≠ j) : (m.put k v d).get j d' = m.get j d' := by
  unfold Map.put
  split
  · exact Map.get_erase_ne m k j d' h
  · exact Map.get_insert_ne m k j v d' h

theorem Map.get_put (m : Map α) (k j : Nat) (v d : α) : (m.put k v d).get j d = if k = j then v else m.get j d := by
  by_cases h : k = j
  · subst h; simp
  · simp [h, Map.get_put_ne m k j v d d h]

/-! ### The canonical form -/

theorem Map.wfFrom_mono (d : α) (m : Map α) {lo lo' : Nat} (h : lo' ≤ lo) (w : m.wfFrom d lo = true) :
    m.wfFrom d lo' = true := by
  cases m with
  | nil => rfl
  | cons e m =>
    obtain ⟨k, v⟩ := e
    simp only [Map.wfFrom, Bool.and_eq_true, decide_eq_true_eq] at w ⊢
    exact ⟨⟨by omega, w.1.2⟩, w.2⟩

theorem Map.wfFrom_insert (d : α) (k : Nat) (v : α) (hv : v ≠ d) :
    ∀ (m : Map α) (lo : Nat), lo ≤ k → m.wfFrom d lo = true → (m.insert k v).wfFrom d lo = true
  | [], lo, h, _ => by simp [Map.insert, Map.wfFrom, h, hv]
  | (k', v') :: m, lo, h, w => by
    simp only [Map.wfFrom, Bool.and_eq_true, decide_eq_true_eq] at w
    unfold Map.insert
    split
    · simp only [Map.wfFrom, Bool.and_eq_true, decide_eq_true_eq]
      exact ⟨⟨h, hv⟩, ⟨⟨by omega, w.1.2⟩, w.2⟩⟩
    · split
      · subst k'
        simp only [Map.wfFrom, Bool.and_eq_true, decide_eq_true_eq]
        exact ⟨⟨h, hv⟩, w.2⟩
      · simp only [Map.wfFrom, Bool.and_eq_true, decide_eq_true_eq]
        exact ⟨w.1, Map.wfFrom_insert d k v hv m (k' + 1) (by omega) w.2⟩

theorem Map.wfFrom_erase (d : α) (k : Nat) :
    ∀ (m : Map α) (lo : Nat), m.wfFrom d lo = true → (m.erase k).wfFrom d lo = true
  | [], _, _ => rfl
  | (k', v') :: m, lo, w => by
    simp only [Map.wfFrom, Bool.and_eq_true, decide_eq_true_eq] at w
    by_cases hk : k' = k
    · have : Map.erase ((k', v') :: m) k = Map.erase m k := by simp [Map.erase, hk]
      rw [this]
      exact Map.wfFrom_erase d k m lo (Map.wfFrom_mono d m (by omega) w.2)
    · have : Map.erase ((k', v') :: m) k = (k', v') :: Map.erase m k := by simp [Map.erase, hk]
      rw [this]
      simp only [Map.wfFrom, Bool.and_eq_true, decide_eq_true_eq]
      exact ⟨w.1, Map.wfFrom_erase d k m (k' + 1) w.2⟩

/-- A write keeps the canonical form. -/
theorem Map.wf_put (m : Map α) (k : Nat) (v d : α) (w : m.wf d = true) : (m.put k v d).wf d = true := by
  unfold Map.put
  split
  · exact Map.wfFrom_erase d k m 0 w
  · rename_i hv
    exact Map.wfFrom_insert d k v hv m 0 (Nat.zero_le k) w

theorem Map.wf_modify (m : Map α) (k : Nat) (d : α) (f : α → α) (w : m.wf d = true) : (m.modify k d f).wf d = true :=
  Map.wf_put m k _ d w

theorem Map.wf_putAll (d : α) (l : List (Nat × α)) (m : Map α) (w : m.wf d = true) : (m.putAll d l).wf d = true := by
  induction l generalizing m with
  | nil => exact w
  | cons e l ih => exact ih _ (Map.wf_put m e.1 e.2 d w)

theorem Map.wfFrom_filter (d : α) (p : Nat × α → Bool) :
    ∀ (m : Map α) (lo : Nat), m.wfFrom d lo = true → Map.wfFrom d (List.filter p m) lo = true
  | [], _, _ => rfl
  | (k', v') :: m, lo, w => by
    simp only [Map.wfFrom, Bool.and_eq_true, decide_eq_true_eq] at w
    by_cases hp : p (k', v')
    · simp only [List.filter_cons, hp, ↓reduceIte, Map.wfFrom, Bool.and_eq_true, decide_eq_true_eq]
      exact ⟨w.1, Map.wfFrom_filter d p m (k' + 1) w.2⟩
    · simp only [List.filter_cons, hp]
      exact Map.wfFrom_filter d p m lo (Map.wfFrom_mono d m (by omega) w.2)

/-- Dropping entries keeps the canonical form. -/
theorem Map.wf_filter (m : Map α) (d : α) (p : Nat × α → Bool) (w : m.wf d = true) : Map.wf (List.filter p m) d = true :=
  Map.wfFrom_filter d p m 0 w

omit [DecidableEq α] in
/-- A key that is not listed reads as the unlisted value. -/
theorem Map.get_unlisted (m : Map α) (k : Nat) (d : α) (h : ∀ e ∈ m, e.1 ≠ k) : m.get k d = d := by
  induction m with
  | nil => rfl
  | cons e m ih =>
    obtain ⟨k', v⟩ := e
    have h1 := h (k', v) (by simp)
    simp only [Map.get, if_neg h1]
    exact ih (fun e he => h e (by simp [he]))

end Sys2Proof.Machine
end

