-- ==== Sys2Proof/Laws/Arch.lean ====
section
/-! SUPPORT. A tile's registers after a write: S0 and P0 keep their constants, a register reads what was written to it, and
the others read as before (04 R95). -/

namespace Sys2Proof.Machine

variable (a : Arch)

/-! ### S registers -/

@[simp] theorem Arch.rdS_zero : a.rdS 0 = .zero 32 := rfl

@[simp] theorem Arch.wrS_zero (v : PV 32) : a.wrS 0 v = a := rfl

theorem Arch.rdS_wrS_same (i : BitVec 5) (v : PV 32) (h : i ≠ 0) : (a.wrS i v).rdS i = v := by
  simp only [Arch.rdS, Arch.wrS, h, if_false]
  exact Map.get_put_same _ _ _ _

theorem Arch.rdS_wrS_ne (i j : BitVec 5) (v : PV 32) (h : i ≠ j) : (a.wrS i v).rdS j = a.rdS j := by
  have hn : i.toNat ≠ j.toNat := fun e => h (BitVec.eq_of_toNat_eq e)
  by_cases hi : i = 0
  · subst hi; rfl
  · by_cases hj : j = 0
    · subst hj; rfl
    · simp only [Arch.rdS, Arch.wrS, hi, hj, if_false]
      exact Map.get_put_ne _ _ _ _ _ _ hn

/-! ### Predicates -/

@[simp] theorem Arch.rdP_zero : a.rdP 0 = .ok (BitVec.allOnes 64) := rfl

@[simp] theorem Arch.wrP_zero (v : PV 64) : a.wrP 0 v = a := rfl

theorem Arch.rdP_wrP_same (i : BitVec 3) (v : PV 64) (h : i ≠ 0) : (a.wrP i v).rdP i = v := by
  simp only [Arch.rdP, Arch.wrP, h, if_false]
  exact Map.get_put_same _ _ _ _

theorem Arch.rdP_wrP_ne (i j : BitVec 3) (v : PV 64) (h : i ≠ j) : (a.wrP i v).rdP j = a.rdP j := by
  have hn : i.toNat ≠ j.toNat := fun e => h (BitVec.eq_of_toNat_eq e)
  by_cases hi : i = 0
  · subst hi; rfl
  · by_cases hj : j = 0
    · subst hj; rfl
    · simp only [Arch.rdP, Arch.wrP, hi, hj, if_false]
      exact Map.get_put_ne _ _ _ _ _ _ hn

/-! ### A, MC and DN registers, vector lanes and Tally entries -/

@[simp] theorem Arch.rdA_wrA_same (i : BitVec 4) (v : PV 32) : (a.wrA i v).rdA i = v := by simp [Arch.rdA, Arch.wrA]

theorem Arch.rdA_wrA_ne (i j : BitVec 4) (v : PV 32) (h : i ≠ j) : (a.wrA i v).rdA j = a.rdA j :=
  Map.get_put_ne _ _ _ _ _ _ (fun e => h (BitVec.eq_of_toNat_eq e))

@[simp] theorem Arch.rdMC_wrMC_same (i : BitVec 3) (v : PV 64) : (a.wrMC i v).rdMC i = v := by simp [Arch.rdMC, Arch.wrMC]

theorem Arch.rdMC_wrMC_ne (i j : BitVec 3) (v : PV 64) (h : i ≠ j) : (a.wrMC i v).rdMC j = a.rdMC j :=
  Map.get_put_ne _ _ _ _ _ _ (fun e => h (BitVec.eq_of_toNat_eq e))

@[simp] theorem Arch.rdDN_wrDN_same (i : BitVec 4) (v : Nat) : (a.wrDN i v).rdDN i = v := by simp [Arch.rdDN, Arch.wrDN]

theorem Arch.rdDN_wrDN_ne (i j : BitVec 4) (v : Nat) (h : i ≠ j) : (a.wrDN i v).rdDN j = a.rdDN j :=
  Map.get_put_ne _ _ _ _ _ _ (fun e => h (BitVec.eq_of_toNat_eq e))

theorem Arch.rdV_wrV_same (i : BitVec 4) (l : Nat) (v : PV 32) : (a.wrV i.toNat l v).rdV i l = v := by
  simp [Arch.rdV, Arch.wrV]

theorem Arch.rdV_wrV_ne (i : Nat) (j : BitVec 4) (l k : Nat) (v : PV 32) (hl : l < 64) (hk : k < 64)
    (h : i ≠ j.toNat ∨ l ≠ k) : (a.wrV i l v).rdV j k = a.rdV j k :=
  Map.get_put_ne _ _ _ _ _ _ (by omega)

@[simp] theorem Arch.rdT_wrT_same (row col : Nat) (v : TEnt) : (a.wrT row col v).rdT row col = v := by
  simp [Arch.rdT, Arch.wrT]

theorem Arch.rdT_wrT_ne (r c r' c' : Nat) (v : TEnt) (hc : c < 64) (hc' : c' < 64) (h : r ≠ r' ∨ c ≠ c') :
    (a.wrT r c v).rdT r' c' = a.rdT r' c' :=
  Map.get_put_ne _ _ _ _ _ _ (by omega)

/-! ### Words of a unit -/

/-- In ROW view the 32 words of a unit have keys of their own. -/
theorem wordKey_row_inj (p k p' k' : Nat) (hk : k < 32) (hk' : k' < 32) (h : wordKey false p k = wordKey false p' k') :
    p = p' ∧ k = k' := by
  simp only [wordKey] at h
  constructor <;> simp at h <;> omega

end Sys2Proof.Machine
end

