-- ==== Sys2Proof/Laws/Frames.lean ====
section
/-! SUPPORT. What a frame's bytes say. -/

namespace Sys2Proof.Machine

theorem leBytes_length (v n : Nat) : (leBytes v n).length = n := by
  induction n generalizing v with
  | zero => rfl
  | succ n ih => simp [leBytes, ih]

/-- A number written in n bytes and read again. -/
theorem leNat_leBytes (v n : Nat) : leNat (leBytes v n) = v % 2 ^ (8 * n) := by
  induction n generalizing v with
  | zero => simp [leBytes, leNat, Nat.mod_one]
  | succ n ih =>
    simp only [leBytes, leNat, ih, BitVec.toNat_ofNat]
    rw [show 2 ^ (8 * (n + 1)) = 2 ^ 8 * 2 ^ (8 * n) by rw [← Nat.pow_add]; congr 1; omega, Nat.mod_mul]
    rfl

/-- The CRC of a frame that was just made holds (07 R209). -/
theorem crcHolds_wire (f : Frame) : crcHolds f.wire = true := by
  simp only [crcHolds, Frame.wire, slice]
  generalize f.hdr.bytes ++ wordBytes f.data = l
  have h1 : (l ++ leBytes (crc32c l).toNat 4 ++ leBytes 0 4).length = l.length + 8 := by
    simp [leBytes_length]
  rw [h1, show l.length + 8 - 8 = l.length by omega, show l.length + 8 - 4 - l.length = 4 by omega,
    List.append_assoc, List.take_left, List.drop_left,
    show List.take 4 (leBytes (crc32c l).toNat 4 ++ leBytes 0 4) = leBytes (crc32c l).toNat 4 from
      List.take_left' (leBytes_length _ _), leNat_leBytes]
  simp [Nat.mod_eq_of_lt (crc32c l).isLt]

end Sys2Proof.Machine
end

