-- ==== Sys2Proof/Laws/State.lean ====
section
/-! SUPPORT. What the primitive updates of the state leave as it was, field by field, and what is read after one. -/

namespace Sys2Proof.Machine

variable (s : State)

/-! ### setF -/

@[simp] theorem State.setF_nt (pg : Nat) (f : Fld) (v : Nat) : (s.setF pg f v).nt = s.nt := rfl
@[simp] theorem State.setF_ltb (pg : Nat) (f : Fld) (v : Nat) : (s.setF pg f v).ltb = s.ltb := rfl
@[simp] theorem State.setF_free (pg : Nat) (f : Fld) (v : Nat) : (s.setF pg f v).free = s.free := rfl
@[simp] theorem State.setF_tiles (pg : Nat) (f : Fld) (v : Nat) : (s.setF pg f v).tiles = s.tiles := rfl
@[simp] theorem State.setF_parts (pg : Nat) (f : Fld) (v : Nat) : (s.setF pg f v).parts = s.parts := rfl
@[simp] theorem State.setF_ich (pg : Nat) (f : Fld) (v : Nat) : (s.setF pg f v).ich = s.ich := rfl
@[simp] theorem State.setF_links (pg : Nat) (f : Fld) (v : Nat) : (s.setF pg f v).links = s.links := rfl
@[simp] theorem State.setF_time (pg : Nat) (f : Fld) (v : Nat) : (s.setF pg f v).time = s.time := rfl
@[simp] theorem State.setF_gov (pg : Nat) (f : Fld) (v : Nat) : (s.setF pg f v).gov = s.gov := rfl
@[simp] theorem State.setF_rmons (pg : Nat) (f : Fld) (v : Nat) : (s.setF pg f v).rmons = s.rmons := rfl
@[simp] theorem State.setF_hif (pg : Nat) (f : Fld) (v : Nat) : (s.setF pg f v).hif = s.hif := rfl
@[simp] theorem State.setF_franks (pg : Nat) (f : Fld) (v : Nat) : (s.setF pg f v).franks = s.franks := rfl
@[simp] theorem State.setF_mgmt (pg : Nat) (f : Fld) (v : Nat) : (s.setF pg f v).mgmt = s.mgmt := rfl
@[simp] theorem State.setF_module (pg : Nat) (f : Fld) (v : Nat) : (s.setF pg f v).module = s.module := rfl
@[simp] theorem State.setF_upsets (pg : Nat) (f : Fld) (v : Nat) : (s.setF pg f v).upsets = s.upsets := rfl
@[simp] theorem State.setF_incidents (pg : Nat) (f : Fld) (v : Nat) : (s.setF pg f v).incidents = s.incidents := rfl
@[simp] theorem State.setF_devNt (pg : Nat) (f : Fld) (v : Nat) : (s.setF pg f v).devNt = s.devNt := rfl
@[simp] theorem State.setF_hostMem (pg : Nat) (f : Fld) (v : Nat) : (s.setF pg f v).hostMem = s.hostMem := rfl
@[simp] theorem State.setF_sent (pg : Nat) (f : Fld) (v : Nat) : (s.setF pg f v).sent = s.sent := rfl
@[simp] theorem State.setF_pending (pg : Nat) (f : Fld) (v : Nat) : (s.setF pg f v).pending = s.pending := rfl
@[simp] theorem State.setF_tile (pg : Nat) (f : Fld) (v : Nat) (t' : Nat) : (s.setF pg f v).tile t' = s.tile t' := rfl
@[simp] theorem State.setF_part (pg : Nat) (f : Fld) (v : Nat) (p' : Nat) : (s.setF pg f v).part p' = s.part p' := rfl
@[simp] theorem State.setF_link (pg : Nat) (f : Fld) (v : Nat) (x' : Nat) : (s.setF pg f v).link x' = s.link x' := rfl

/-! ### setTile -/

@[simp] theorem State.setTile_nt (t : Nat) (x : Tile) : (s.setTile t x).nt = s.nt := rfl
@[simp] theorem State.setTile_ltb (t : Nat) (x : Tile) : (s.setTile t x).ltb = s.ltb := rfl
@[simp] theorem State.setTile_free (t : Nat) (x : Tile) : (s.setTile t x).free = s.free := rfl
@[simp] theorem State.setTile_regs (t : Nat) (x : Tile) : (s.setTile t x).regs = s.regs := rfl
@[simp] theorem State.setTile_parts (t : Nat) (x : Tile) : (s.setTile t x).parts = s.parts := rfl
@[simp] theorem State.setTile_ich (t : Nat) (x : Tile) : (s.setTile t x).ich = s.ich := rfl
@[simp] theorem State.setTile_links (t : Nat) (x : Tile) : (s.setTile t x).links = s.links := rfl
@[simp] theorem State.setTile_time (t : Nat) (x : Tile) : (s.setTile t x).time = s.time := rfl
@[simp] theorem State.setTile_gov (t : Nat) (x : Tile) : (s.setTile t x).gov = s.gov := rfl
@[simp] theorem State.setTile_rmons (t : Nat) (x : Tile) : (s.setTile t x).rmons = s.rmons := rfl
@[simp] theorem State.setTile_hif (t : Nat) (x : Tile) : (s.setTile t x).hif = s.hif := rfl
@[simp] theorem State.setTile_franks (t : Nat) (x : Tile) : (s.setTile t x).franks = s.franks := rfl
@[simp] theorem State.setTile_mgmt (t : Nat) (x : Tile) : (s.setTile t x).mgmt = s.mgmt := rfl
@[simp] theorem State.setTile_module (t : Nat) (x : Tile) : (s.setTile t x).module = s.module := rfl
@[simp] theorem State.setTile_upsets (t : Nat) (x : Tile) : (s.setTile t x).upsets = s.upsets := rfl
@[simp] theorem State.setTile_incidents (t : Nat) (x : Tile) : (s.setTile t x).incidents = s.incidents := rfl
@[simp] theorem State.setTile_devNt (t : Nat) (x : Tile) : (s.setTile t x).devNt = s.devNt := rfl
@[simp] theorem State.setTile_hostMem (t : Nat) (x : Tile) : (s.setTile t x).hostMem = s.hostMem := rfl
@[simp] theorem State.setTile_sent (t : Nat) (x : Tile) : (s.setTile t x).sent = s.sent := rfl
@[simp] theorem State.setTile_pending (t : Nat) (x : Tile) : (s.setTile t x).pending = s.pending := rfl
@[simp] theorem State.setTile_getF (t : Nat) (x : Tile) (pg' : Nat) (f' : Fld) : (s.setTile t x).getF pg' f' = s.getF pg' f' := rfl
@[simp] theorem State.setTile_part (t : Nat) (x : Tile) (p' : Nat) : (s.setTile t x).part p' = s.part p' := rfl
@[simp] theorem State.setTile_link (t : Nat) (x : Tile) (x' : Nat) : (s.setTile t x).link x' = s.link x' := rfl
@[simp] theorem State.setTile_partOfRegion (t : Nat) (x : Tile) (r' : Nat) : (s.setTile t x).partOfRegion r' = s.partOfRegion r' := rfl
@[simp] theorem State.setTile_partOfTile (t : Nat) (x : Tile) (t' : Nat) : (s.setTile t x).partOfTile t' = s.partOfTile t' := rfl
@[simp] theorem State.setTile_seqState (t : Nat) (x : Tile) (t' : Nat) : (s.setTile t x).seqState t' = s.seqState t' := rfl
@[simp] theorem State.setTile_prtState (t : Nat) (x : Tile) (p' : Nat) : (s.setTile t x).prtState p' = s.prtState p' := rfl
@[simp] theorem State.setTile_roundLen (t : Nat) (x : Tile) (p' : Nat) : (s.setTile t x).roundLen p' = s.roundLen p' := rfl
@[simp] theorem State.setTile_lastBeat (t : Nat) (x : Tile) (t' : Nat) : (s.setTile t x).lastBeat t' = s.lastBeat t' := rfl
@[simp] theorem State.setTile_tileRuns (t : Nat) (x : Tile) (t' : Nat) : (s.setTile t x).tileRuns t' = s.tileRuns t' := rfl
@[simp] theorem State.setTile_chipId (t : Nat) (x : Tile)  : (s.setTile t x).chipId = s.chipId := rfl

/-! ### modTile -/

@[simp] theorem State.modTile_nt (t : Nat) (f : Tile → Tile) : (s.modTile t f).nt = s.nt := rfl
@[simp] theorem State.modTile_ltb (t : Nat) (f : Tile → Tile) : (s.modTile t f).ltb = s.ltb := rfl
@[simp] theorem State.modTile_free (t : Nat) (f : Tile → Tile) : (s.modTile t f).free = s.free := rfl
@[simp] theorem State.modTile_regs (t : Nat) (f : Tile → Tile) : (s.modTile t f).regs = s.regs := rfl
@[simp] theorem State.modTile_parts (t : Nat) (f : Tile → Tile) : (s.modTile t f).parts = s.parts := rfl
@[simp] theorem State.modTile_ich (t : Nat) (f : Tile → Tile) : (s.modTile t f).ich = s.ich := rfl
@[simp] theorem State.modTile_links (t : Nat) (f : Tile → Tile) : (s.modTile t f).links = s.links := rfl
@[simp] theorem State.modTile_time (t : Nat) (f : Tile → Tile) : (s.modTile t f).time = s.time := rfl
@[simp] theorem State.modTile_gov (t : Nat) (f : Tile → Tile) : (s.modTile t f).gov = s.gov := rfl
@[simp] theorem State.modTile_rmons (t : Nat) (f : Tile → Tile) : (s.modTile t f).rmons = s.rmons := rfl
@[simp] theorem State.modTile_hif (t : Nat) (f : Tile → Tile) : (s.modTile t f).hif = s.hif := rfl
@[simp] theorem State.modTile_franks (t : Nat) (f : Tile → Tile) : (s.modTile t f).franks = s.franks := rfl
@[simp] theorem State.modTile_mgmt (t : Nat) (f : Tile → Tile) : (s.modTile t f).mgmt = s.mgmt := rfl
@[simp] theorem State.modTile_module (t : Nat) (f : Tile → Tile) : (s.modTile t f).module = s.module := rfl
@[simp] theorem State.modTile_upsets (t : Nat) (f : Tile → Tile) : (s.modTile t f).upsets = s.upsets := rfl
@[simp] theorem State.modTile_incidents (t : Nat) (f : Tile → Tile) : (s.modTile t f).incidents = s.incidents := rfl
@[simp] theorem State.modTile_devNt (t : Nat) (f : Tile → Tile) : (s.modTile t f).devNt = s.devNt := rfl
@[simp] theorem State.modTile_hostMem (t : Nat) (f : Tile → Tile) : (s.modTile t f).hostMem = s.hostMem := rfl
@[simp] theorem State.modTile_sent (t : Nat) (f : Tile → Tile) : (s.modTile t f).sent = s.sent := rfl
@[simp] theorem State.modTile_pending (t : Nat) (f : Tile → Tile) : (s.modTile t f).pending = s.pending := rfl
@[simp] theorem State.modTile_getF (t : Nat) (f : Tile → Tile) (pg' : Nat) (f' : Fld) : (s.modTile t f).getF pg' f' = s.getF pg' f' := rfl
@[simp] theorem State.modTile_part (t : Nat) (f : Tile → Tile) (p' : Nat) : (s.modTile t f).part p' = s.part p' := rfl
@[simp] theorem State.modTile_link (t : Nat) (f : Tile → Tile) (x' : Nat) : (s.modTile t f).link x' = s.link x' := rfl
@[simp] theorem State.modTile_partOfRegion (t : Nat) (f : Tile → Tile) (r' : Nat) : (s.modTile t f).partOfRegion r' = s.partOfRegion r' := rfl
@[simp] theorem State.modTile_partOfTile (t : Nat) (f : Tile → Tile) (t' : Nat) : (s.modTile t f).partOfTile t' = s.partOfTile t' := rfl
@[simp] theorem State.modTile_seqState (t : Nat) (f : Tile → Tile) (t' : Nat) : (s.modTile t f).seqState t' = s.seqState t' := rfl
@[simp] theorem State.modTile_prtState (t : Nat) (f : Tile → Tile) (p' : Nat) : (s.modTile t f).prtState p' = s.prtState p' := rfl
@[simp] theorem State.modTile_roundLen (t : Nat) (f : Tile → Tile) (p' : Nat) : (s.modTile t f).roundLen p' = s.roundLen p' := rfl
@[simp] theorem State.modTile_lastBeat (t : Nat) (f : Tile → Tile) (t' : Nat) : (s.modTile t f).lastBeat t' = s.lastBeat t' := rfl
@[simp] theorem State.modTile_tileRuns (t : Nat) (f : Tile → Tile) (t' : Nat) : (s.modTile t f).tileRuns t' = s.tileRuns t' := rfl
@[simp] theorem State.modTile_chipId (t : Nat) (f : Tile → Tile)  : (s.modTile t f).chipId = s.chipId := rfl

/-! ### modArch -/

@[simp] theorem State.modArch_nt (t : Nat) (f : Arch → Arch) : (s.modArch t f).nt = s.nt := rfl
@[simp] theorem State.modArch_ltb (t : Nat) (f : Arch → Arch) : (s.modArch t f).ltb = s.ltb := rfl
@[simp] theorem State.modArch_free (t : Nat) (f : Arch → Arch) : (s.modArch t f).free = s.free := rfl
@[simp] theorem State.modArch_regs (t : Nat) (f : Arch → Arch) : (s.modArch t f).regs = s.regs := rfl
@[simp] theorem State.modArch_parts (t : Nat) (f : Arch → Arch) : (s.modArch t f).parts = s.parts := rfl
@[simp] theorem State.modArch_ich (t : Nat) (f : Arch → Arch) : (s.modArch t f).ich = s.ich := rfl
@[simp] theorem State.modArch_links (t : Nat) (f : Arch → Arch) : (s.modArch t f).links = s.links := rfl
@[simp] theorem State.modArch_time (t : Nat) (f : Arch → Arch) : (s.modArch t f).time = s.time := rfl
@[simp] theorem State.modArch_gov (t : Nat) (f : Arch → Arch) : (s.modArch t f).gov = s.gov := rfl
@[simp] theorem State.modArch_rmons (t : Nat) (f : Arch → Arch) : (s.modArch t f).rmons = s.rmons := rfl
@[simp] theorem State.modArch_hif (t : Nat) (f : Arch → Arch) : (s.modArch t f).hif = s.hif := rfl
@[simp] theorem State.modArch_franks (t : Nat) (f : Arch → Arch) : (s.modArch t f).franks = s.franks := rfl
@[simp] theorem State.modArch_mgmt (t : Nat) (f : Arch → Arch) : (s.modArch t f).mgmt = s.mgmt := rfl
@[simp] theorem State.modArch_module (t : Nat) (f : Arch → Arch) : (s.modArch t f).module = s.module := rfl
@[simp] theorem State.modArch_upsets (t : Nat) (f : Arch → Arch) : (s.modArch t f).upsets = s.upsets := rfl
@[simp] theorem State.modArch_incidents (t : Nat) (f : Arch → Arch) : (s.modArch t f).incidents = s.incidents := rfl
@[simp] theorem State.modArch_devNt (t : Nat) (f : Arch → Arch) : (s.modArch t f).devNt = s.devNt := rfl
@[simp] theorem State.modArch_hostMem (t : Nat) (f : Arch → Arch) : (s.modArch t f).hostMem = s.hostMem := rfl
@[simp] theorem State.modArch_sent (t : Nat) (f : Arch → Arch) : (s.modArch t f).sent = s.sent := rfl
@[simp] theorem State.modArch_pending (t : Nat) (f : Arch → Arch) : (s.modArch t f).pending = s.pending := rfl
@[simp] theorem State.modArch_getF (t : Nat) (f : Arch → Arch) (pg' : Nat) (f' : Fld) : (s.modArch t f).getF pg' f' = s.getF pg' f' := rfl
@[simp] theorem State.modArch_part (t : Nat) (f : Arch → Arch) (p' : Nat) : (s.modArch t f).part p' = s.part p' := rfl
@[simp] theorem State.modArch_link (t : Nat) (f : Arch → Arch) (x' : Nat) : (s.modArch t f).link x' = s.link x' := rfl
@[simp] theorem State.modArch_partOfRegion (t : Nat) (f : Arch → Arch) (r' : Nat) : (s.modArch t f).partOfRegion r' = s.partOfRegion r' := rfl
@[simp] theorem State.modArch_partOfTile (t : Nat) (f : Arch → Arch) (t' : Nat) : (s.modArch t f).partOfTile t' = s.partOfTile t' := rfl
@[simp] theorem State.modArch_seqState (t : Nat) (f : Arch → Arch) (t' : Nat) : (s.modArch t f).seqState t' = s.seqState t' := rfl
@[simp] theorem State.modArch_prtState (t : Nat) (f : Arch → Arch) (p' : Nat) : (s.modArch t f).prtState p' = s.prtState p' := rfl
@[simp] theorem State.modArch_roundLen (t : Nat) (f : Arch → Arch) (p' : Nat) : (s.modArch t f).roundLen p' = s.roundLen p' := rfl
@[simp] theorem State.modArch_lastBeat (t : Nat) (f : Arch → Arch) (t' : Nat) : (s.modArch t f).lastBeat t' = s.lastBeat t' := rfl
@[simp] theorem State.modArch_tileRuns (t : Nat) (f : Arch → Arch) (t' : Nat) : (s.modArch t f).tileRuns t' = s.tileRuns t' := rfl
@[simp] theorem State.modArch_chipId (t : Nat) (f : Arch → Arch)  : (s.modArch t f).chipId = s.chipId := rfl

/-! ### setPart -/

@[simp] theorem State.setPart_nt (p : Nat) (x : Part) : (s.setPart p x).nt = s.nt := rfl
@[simp] theorem State.setPart_ltb (p : Nat) (x : Part) : (s.setPart p x).ltb = s.ltb := rfl
@[simp] theorem State.setPart_free (p : Nat) (x : Part) : (s.setPart p x).free = s.free := rfl
@[simp] theorem State.setPart_regs (p : Nat) (x : Part) : (s.setPart p x).regs = s.regs := rfl
@[simp] theorem State.setPart_tiles (p : Nat) (x : Part) : (s.setPart p x).tiles = s.tiles := rfl
@[simp] theorem State.setPart_ich (p : Nat) (x : Part) : (s.setPart p x).ich = s.ich := rfl
@[simp] theorem State.setPart_links (p : Nat) (x : Part) : (s.setPart p x).links = s.links := rfl
@[simp] theorem State.setPart_time (p : Nat) (x : Part) : (s.setPart p x).time = s.time := rfl
@[simp] theorem State.setPart_gov (p : Nat) (x : Part) : (s.setPart p x).gov = s.gov := rfl
@[simp] theorem State.setPart_rmons (p : Nat) (x : Part) : (s.setPart p x).rmons = s.rmons := rfl
@[simp] theorem State.setPart_hif (p : Nat) (x : Part) : (s.setPart p x).hif = s.hif := rfl
@[simp] theorem State.setPart_franks (p : Nat) (x : Part) : (s.setPart p x).franks = s.franks := rfl
@[simp] theorem State.setPart_mgmt (p : Nat) (x : Part) : (s.setPart p x).mgmt = s.mgmt := rfl
@[simp] theorem State.setPart_module (p : Nat) (x : Part) : (s.setPart p x).module = s.module := rfl
@[simp] theorem State.setPart_upsets (p : Nat) (x : Part) : (s.setPart p x).upsets = s.upsets := rfl
@[simp] theorem State.setPart_incidents (p : Nat) (x : Part) : (s.setPart p x).incidents = s.incidents := rfl
@[simp] theorem State.setPart_devNt (p : Nat) (x : Part) : (s.setPart p x).devNt = s.devNt := rfl
@[simp] theorem State.setPart_hostMem (p : Nat) (x : Part) : (s.setPart p x).hostMem = s.hostMem := rfl
@[simp] theorem State.setPart_sent (p : Nat) (x : Part) : (s.setPart p x).sent = s.sent := rfl
@[simp] theorem State.setPart_pending (p : Nat) (x : Part) : (s.setPart p x).pending = s.pending := rfl
@[simp] theorem State.setPart_getF (p : Nat) (x : Part) (pg' : Nat) (f' : Fld) : (s.setPart p x).getF pg' f' = s.getF pg' f' := rfl
@[simp] theorem State.setPart_tile (p : Nat) (x : Part) (t' : Nat) : (s.setPart p x).tile t' = s.tile t' := rfl
@[simp] theorem State.setPart_link (p : Nat) (x : Part) (x' : Nat) : (s.setPart p x).link x' = s.link x' := rfl
@[simp] theorem State.setPart_partOfRegion (p : Nat) (x : Part) (r' : Nat) : (s.setPart p x).partOfRegion r' = s.partOfRegion r' := rfl
@[simp] theorem State.setPart_partOfTile (p : Nat) (x : Part) (t' : Nat) : (s.setPart p x).partOfTile t' = s.partOfTile t' := rfl
@[simp] theorem State.setPart_seqState (p : Nat) (x : Part) (t' : Nat) : (s.setPart p x).seqState t' = s.seqState t' := rfl
@[simp] theorem State.setPart_prtState (p : Nat) (x : Part) (p' : Nat) : (s.setPart p x).prtState p' = s.prtState p' := rfl
@[simp] theorem State.setPart_roundLen (p : Nat) (x : Part) (p' : Nat) : (s.setPart p x).roundLen p' = s.roundLen p' := rfl
@[simp] theorem State.setPart_lastBeat (p : Nat) (x : Part) (t' : Nat) : (s.setPart p x).lastBeat t' = s.lastBeat t' := rfl
@[simp] theorem State.setPart_tileRuns (p : Nat) (x : Part) (t' : Nat) : (s.setPart p x).tileRuns t' = s.tileRuns t' := rfl
@[simp] theorem State.setPart_chipId (p : Nat) (x : Part)  : (s.setPart p x).chipId = s.chipId := rfl

/-! ### modPart -/

@[simp] theorem State.modPart_nt (p : Nat) (f : Part → Part) : (s.modPart p f).nt = s.nt := rfl
@[simp] theorem State.modPart_ltb (p : Nat) (f : Part → Part) : (s.modPart p f).ltb = s.ltb := rfl
@[simp] theorem State.modPart_free (p : Nat) (f : Part → Part) : (s.modPart p f).free = s.free := rfl
@[simp] theorem State.modPart_regs (p : Nat) (f : Part → Part) : (s.modPart p f).regs = s.regs := rfl
@[simp] theorem State.modPart_tiles (p : Nat) (f : Part → Part) : (s.modPart p f).tiles = s.tiles := rfl
@[simp] theorem State.modPart_ich (p : Nat) (f : Part → Part) : (s.modPart p f).ich = s.ich := rfl
@[simp] theorem State.modPart_links (p : Nat) (f : Part → Part) : (s.modPart p f).links = s.links := rfl
@[simp] theorem State.modPart_time (p : Nat) (f : Part → Part) : (s.modPart p f).time = s.time := rfl
@[simp] theorem State.modPart_gov (p : Nat) (f : Part → Part) : (s.modPart p f).gov = s.gov := rfl
@[simp] theorem State.modPart_rmons (p : Nat) (f : Part → Part) : (s.modPart p f).rmons = s.rmons := rfl
@[simp] theorem State.modPart_hif (p : Nat) (f : Part → Part) : (s.modPart p f).hif = s.hif := rfl
@[simp] theorem State.modPart_franks (p : Nat) (f : Part → Part) : (s.modPart p f).franks = s.franks := rfl
@[simp] theorem State.modPart_mgmt (p : Nat) (f : Part → Part) : (s.modPart p f).mgmt = s.mgmt := rfl
@[simp] theorem State.modPart_module (p : Nat) (f : Part → Part) : (s.modPart p f).module = s.module := rfl
@[simp] theorem State.modPart_upsets (p : Nat) (f : Part → Part) : (s.modPart p f).upsets = s.upsets := rfl
@[simp] theorem State.modPart_incidents (p : Nat) (f : Part → Part) : (s.modPart p f).incidents = s.incidents := rfl
@[simp] theorem State.modPart_devNt (p : Nat) (f : Part → Part) : (s.modPart p f).devNt = s.devNt := rfl
@[simp] theorem State.modPart_hostMem (p : Nat) (f : Part → Part) : (s.modPart p f).hostMem = s.hostMem := rfl
@[simp] theorem State.modPart_sent (p : Nat) (f : Part → Part) : (s.modPart p f).sent = s.sent := rfl
@[simp] theorem State.modPart_pending (p : Nat) (f : Part → Part) : (s.modPart p f).pending = s.pending := rfl
@[simp] theorem State.modPart_getF (p : Nat) (f : Part → Part) (pg' : Nat) (f' : Fld) : (s.modPart p f).getF pg' f' = s.getF pg' f' := rfl
@[simp] theorem State.modPart_tile (p : Nat) (f : Part → Part) (t' : Nat) : (s.modPart p f).tile t' = s.tile t' := rfl
@[simp] theorem State.modPart_link (p : Nat) (f : Part → Part) (x' : Nat) : (s.modPart p f).link x' = s.link x' := rfl
@[simp] theorem State.modPart_partOfRegion (p : Nat) (f : Part → Part) (r' : Nat) : (s.modPart p f).partOfRegion r' = s.partOfRegion r' := rfl
@[simp] theorem State.modPart_partOfTile (p : Nat) (f : Part → Part) (t' : Nat) : (s.modPart p f).partOfTile t' = s.partOfTile t' := rfl
@[simp] theorem State.modPart_seqState (p : Nat) (f : Part → Part) (t' : Nat) : (s.modPart p f).seqState t' = s.seqState t' := rfl
@[simp] theorem State.modPart_prtState (p : Nat) (f : Part → Part) (p' : Nat) : (s.modPart p f).prtState p' = s.prtState p' := rfl
@[simp] theorem State.modPart_roundLen (p : Nat) (f : Part → Part) (p' : Nat) : (s.modPart p f).roundLen p' = s.roundLen p' := rfl
@[simp] theorem State.modPart_lastBeat (p : Nat) (f : Part → Part) (t' : Nat) : (s.modPart p f).lastBeat t' = s.lastBeat t' := rfl
@[simp] theorem State.modPart_tileRuns (p : Nat) (f : Part → Part) (t' : Nat) : (s.modPart p f).tileRuns t' = s.tileRuns t' := rfl
@[simp] theorem State.modPart_chipId (p : Nat) (f : Part → Part)  : (s.modPart p f).chipId = s.chipId := rfl

/-! ### setLink -/

@[simp] theorem State.setLink_nt (x : Nat) (l : Link) : (s.setLink x l).nt = s.nt := rfl
@[simp] theorem State.setLink_ltb (x : Nat) (l : Link) : (s.setLink x l).ltb = s.ltb := rfl
@[simp] theorem State.setLink_free (x : Nat) (l : Link) : (s.setLink x l).free = s.free := rfl
@[simp] theorem State.setLink_regs (x : Nat) (l : Link) : (s.setLink x l).regs = s.regs := rfl
@[simp] theorem State.setLink_tiles (x : Nat) (l : Link) : (s.setLink x l).tiles = s.tiles := rfl
@[simp] theorem State.setLink_parts (x : Nat) (l : Link) : (s.setLink x l).parts = s.parts := rfl
@[simp] theorem State.setLink_ich (x : Nat) (l : Link) : (s.setLink x l).ich = s.ich := rfl
@[simp] theorem State.setLink_time (x : Nat) (l : Link) : (s.setLink x l).time = s.time := rfl
@[simp] theorem State.setLink_gov (x : Nat) (l : Link) : (s.setLink x l).gov = s.gov := rfl
@[simp] theorem State.setLink_rmons (x : Nat) (l : Link) : (s.setLink x l).rmons = s.rmons := rfl
@[simp] theorem State.setLink_hif (x : Nat) (l : Link) : (s.setLink x l).hif = s.hif := rfl
@[simp] theorem State.setLink_franks (x : Nat) (l : Link) : (s.setLink x l).franks = s.franks := rfl
@[simp] theorem State.setLink_mgmt (x : Nat) (l : Link) : (s.setLink x l).mgmt = s.mgmt := rfl
@[simp] theorem State.setLink_module (x : Nat) (l : Link) : (s.setLink x l).module = s.module := rfl
@[simp] theorem State.setLink_upsets (x : Nat) (l : Link) : (s.setLink x l).upsets = s.upsets := rfl
@[simp] theorem State.setLink_incidents (x : Nat) (l : Link) : (s.setLink x l).incidents = s.incidents := rfl
@[simp] theorem State.setLink_devNt (x : Nat) (l : Link) : (s.setLink x l).devNt = s.devNt := rfl
@[simp] theorem State.setLink_hostMem (x : Nat) (l : Link) : (s.setLink x l).hostMem = s.hostMem := rfl
@[simp] theorem State.setLink_sent (x : Nat) (l : Link) : (s.setLink x l).sent = s.sent := rfl
@[simp] theorem State.setLink_pending (x : Nat) (l : Link) : (s.setLink x l).pending = s.pending := rfl
@[simp] theorem State.setLink_getF (x : Nat) (l : Link) (pg' : Nat) (f' : Fld) : (s.setLink x l).getF pg' f' = s.getF pg' f' := rfl
@[simp] theorem State.setLink_tile (x : Nat) (l : Link) (t' : Nat) : (s.setLink x l).tile t' = s.tile t' := rfl
@[simp] theorem State.setLink_part (x : Nat) (l : Link) (p' : Nat) : (s.setLink x l).part p' = s.part p' := rfl
@[simp] theorem State.setLink_partOfRegion (x : Nat) (l : Link) (r' : Nat) : (s.setLink x l).partOfRegion r' = s.partOfRegion r' := rfl
@[simp] theorem State.setLink_partOfTile (x : Nat) (l : Link) (t' : Nat) : (s.setLink x l).partOfTile t' = s.partOfTile t' := rfl
@[simp] theorem State.setLink_seqState (x : Nat) (l : Link) (t' : Nat) : (s.setLink x l).seqState t' = s.seqState t' := rfl
@[simp] theorem State.setLink_prtState (x : Nat) (l : Link) (p' : Nat) : (s.setLink x l).prtState p' = s.prtState p' := rfl
@[simp] theorem State.setLink_roundLen (x : Nat) (l : Link) (p' : Nat) : (s.setLink x l).roundLen p' = s.roundLen p' := rfl
@[simp] theorem State.setLink_lastBeat (x : Nat) (l : Link) (t' : Nat) : (s.setLink x l).lastBeat t' = s.lastBeat t' := rfl
@[simp] theorem State.setLink_tileRuns (x : Nat) (l : Link) (t' : Nat) : (s.setLink x l).tileRuns t' = s.tileRuns t' := rfl
@[simp] theorem State.setLink_chipId (x : Nat) (l : Link)  : (s.setLink x l).chipId = s.chipId := rfl

/-! ### modLink -/

@[simp] theorem State.modLink_nt (x : Nat) (f : Link → Link) : (s.modLink x f).nt = s.nt := rfl
@[simp] theorem State.modLink_ltb (x : Nat) (f : Link → Link) : (s.modLink x f).ltb = s.ltb := rfl
@[simp] theorem State.modLink_free (x : Nat) (f : Link → Link) : (s.modLink x f).free = s.free := rfl
@[simp] theorem State.modLink_regs (x : Nat) (f : Link → Link) : (s.modLink x f).regs = s.regs := rfl
@[simp] theorem State.modLink_tiles (x : Nat) (f : Link → Link) : (s.modLink x f).tiles = s.tiles := rfl
@[simp] theorem State.modLink_parts (x : Nat) (f : Link → Link) : (s.modLink x f).parts = s.parts := rfl
@[simp] theorem State.modLink_ich (x : Nat) (f : Link → Link) : (s.modLink x f).ich = s.ich := rfl
@[simp] theorem State.modLink_time (x : Nat) (f : Link → Link) : (s.modLink x f).time = s.time := rfl
@[simp] theorem State.modLink_gov (x : Nat) (f : Link → Link) : (s.modLink x f).gov = s.gov := rfl
@[simp] theorem State.modLink_rmons (x : Nat) (f : Link → Link) : (s.modLink x f).rmons = s.rmons := rfl
@[simp] theorem State.modLink_hif (x : Nat) (f : Link → Link) : (s.modLink x f).hif = s.hif := rfl
@[simp] theorem State.modLink_franks (x : Nat) (f : Link → Link) : (s.modLink x f).franks = s.franks := rfl
@[simp] theorem State.modLink_mgmt (x : Nat) (f : Link → Link) : (s.modLink x f).mgmt = s.mgmt := rfl
@[simp] theorem State.modLink_module (x : Nat) (f : Link → Link) : (s.modLink x f).module = s.module := rfl
@[simp] theorem State.modLink_upsets (x : Nat) (f : Link → Link) : (s.modLink x f).upsets = s.upsets := rfl
@[simp] theorem State.modLink_incidents (x : Nat) (f : Link → Link) : (s.modLink x f).incidents = s.incidents := rfl
@[simp] theorem State.modLink_devNt (x : Nat) (f : Link → Link) : (s.modLink x f).devNt = s.devNt := rfl
@[simp] theorem State.modLink_hostMem (x : Nat) (f : Link → Link) : (s.modLink x f).hostMem = s.hostMem := rfl
@[simp] theorem State.modLink_sent (x : Nat) (f : Link → Link) : (s.modLink x f).sent = s.sent := rfl
@[simp] theorem State.modLink_pending (x : Nat) (f : Link → Link) : (s.modLink x f).pending = s.pending := rfl
@[simp] theorem State.modLink_getF (x : Nat) (f : Link → Link) (pg' : Nat) (f' : Fld) : (s.modLink x f).getF pg' f' = s.getF pg' f' := rfl
@[simp] theorem State.modLink_tile (x : Nat) (f : Link → Link) (t' : Nat) : (s.modLink x f).tile t' = s.tile t' := rfl
@[simp] theorem State.modLink_part (x : Nat) (f : Link → Link) (p' : Nat) : (s.modLink x f).part p' = s.part p' := rfl
@[simp] theorem State.modLink_partOfRegion (x : Nat) (f : Link → Link) (r' : Nat) : (s.modLink x f).partOfRegion r' = s.partOfRegion r' := rfl
@[simp] theorem State.modLink_partOfTile (x : Nat) (f : Link → Link) (t' : Nat) : (s.modLink x f).partOfTile t' = s.partOfTile t' := rfl
@[simp] theorem State.modLink_seqState (x : Nat) (f : Link → Link) (t' : Nat) : (s.modLink x f).seqState t' = s.seqState t' := rfl
@[simp] theorem State.modLink_prtState (x : Nat) (f : Link → Link) (p' : Nat) : (s.modLink x f).prtState p' = s.prtState p' := rfl
@[simp] theorem State.modLink_roundLen (x : Nat) (f : Link → Link) (p' : Nat) : (s.modLink x f).roundLen p' = s.roundLen p' := rfl
@[simp] theorem State.modLink_lastBeat (x : Nat) (f : Link → Link) (t' : Nat) : (s.modLink x f).lastBeat t' = s.lastBeat t' := rfl
@[simp] theorem State.modLink_tileRuns (x : Nat) (f : Link → Link) (t' : Nat) : (s.modLink x f).tileRuns t' = s.tileRuns t' := rfl
@[simp] theorem State.modLink_chipId (x : Nat) (f : Link → Link)  : (s.modLink x f).chipId = s.chipId := rfl

/-! ### modIch -/

@[simp] theorem State.modIch_nt (f : Ich → Ich) : (s.modIch f).nt = s.nt := rfl
@[simp] theorem State.modIch_ltb (f : Ich → Ich) : (s.modIch f).ltb = s.ltb := rfl
@[simp] theorem State.modIch_free (f : Ich → Ich) : (s.modIch f).free = s.free := rfl
@[simp] theorem State.modIch_regs (f : Ich → Ich) : (s.modIch f).regs = s.regs := rfl
@[simp] theorem State.modIch_tiles (f : Ich → Ich) : (s.modIch f).tiles = s.tiles := rfl
@[simp] theorem State.modIch_parts (f : Ich → Ich) : (s.modIch f).parts = s.parts := rfl
@[simp] theorem State.modIch_links (f : Ich → Ich) : (s.modIch f).links = s.links := rfl
@[simp] theorem State.modIch_time (f : Ich → Ich) : (s.modIch f).time = s.time := rfl
@[simp] theorem State.modIch_gov (f : Ich → Ich) : (s.modIch f).gov = s.gov := rfl
@[simp] theorem State.modIch_rmons (f : Ich → Ich) : (s.modIch f).rmons = s.rmons := rfl
@[simp] theorem State.modIch_hif (f : Ich → Ich) : (s.modIch f).hif = s.hif := rfl
@[simp] theorem State.modIch_franks (f : Ich → Ich) : (s.modIch f).franks = s.franks := rfl
@[simp] theorem State.modIch_mgmt (f : Ich → Ich) : (s.modIch f).mgmt = s.mgmt := rfl
@[simp] theorem State.modIch_module (f : Ich → Ich) : (s.modIch f).module = s.module := rfl
@[simp] theorem State.modIch_upsets (f : Ich → Ich) : (s.modIch f).upsets = s.upsets := rfl
@[simp] theorem State.modIch_incidents (f : Ich → Ich) : (s.modIch f).incidents = s.incidents := rfl
@[simp] theorem State.modIch_devNt (f : Ich → Ich) : (s.modIch f).devNt = s.devNt := rfl
@[simp] theorem State.modIch_hostMem (f : Ich → Ich) : (s.modIch f).hostMem = s.hostMem := rfl
@[simp] theorem State.modIch_sent (f : Ich → Ich) : (s.modIch f).sent = s.sent := rfl
@[simp] theorem State.modIch_pending (f : Ich → Ich) : (s.modIch f).pending = s.pending := rfl
@[simp] theorem State.modIch_getF (f : Ich → Ich) (pg' : Nat) (f' : Fld) : (s.modIch f).getF pg' f' = s.getF pg' f' := rfl
@[simp] theorem State.modIch_tile (f : Ich → Ich) (t' : Nat) : (s.modIch f).tile t' = s.tile t' := rfl
@[simp] theorem State.modIch_part (f : Ich → Ich) (p' : Nat) : (s.modIch f).part p' = s.part p' := rfl
@[simp] theorem State.modIch_link (f : Ich → Ich) (x' : Nat) : (s.modIch f).link x' = s.link x' := rfl
@[simp] theorem State.modIch_partOfRegion (f : Ich → Ich) (r' : Nat) : (s.modIch f).partOfRegion r' = s.partOfRegion r' := rfl
@[simp] theorem State.modIch_partOfTile (f : Ich → Ich) (t' : Nat) : (s.modIch f).partOfTile t' = s.partOfTile t' := rfl
@[simp] theorem State.modIch_seqState (f : Ich → Ich) (t' : Nat) : (s.modIch f).seqState t' = s.seqState t' := rfl
@[simp] theorem State.modIch_prtState (f : Ich → Ich) (p' : Nat) : (s.modIch f).prtState p' = s.prtState p' := rfl
@[simp] theorem State.modIch_roundLen (f : Ich → Ich) (p' : Nat) : (s.modIch f).roundLen p' = s.roundLen p' := rfl
@[simp] theorem State.modIch_lastBeat (f : Ich → Ich) (t' : Nat) : (s.modIch f).lastBeat t' = s.lastBeat t' := rfl
@[simp] theorem State.modIch_tileRuns (f : Ich → Ich) (t' : Nat) : (s.modIch f).tileRuns t' = s.tileRuns t' := rfl
@[simp] theorem State.modIch_chipId (f : Ich → Ich)  : (s.modIch f).chipId = s.chipId := rfl

/-! ### modMgmt -/

@[simp] theorem State.modMgmt_nt (f : Mgmt → Mgmt) : (s.modMgmt f).nt = s.nt := rfl
@[simp] theorem State.modMgmt_ltb (f : Mgmt → Mgmt) : (s.modMgmt f).ltb = s.ltb := rfl
@[simp] theorem State.modMgmt_free (f : Mgmt → Mgmt) : (s.modMgmt f).free = s.free := rfl
@[simp] theorem State.modMgmt_regs (f : Mgmt → Mgmt) : (s.modMgmt f).regs = s.regs := rfl
@[simp] theorem State.modMgmt_tiles (f : Mgmt → Mgmt) : (s.modMgmt f).tiles = s.tiles := rfl
@[simp] theorem State.modMgmt_parts (f : Mgmt → Mgmt) : (s.modMgmt f).parts = s.parts := rfl
@[simp] theorem State.modMgmt_ich (f : Mgmt → Mgmt) : (s.modMgmt f).ich = s.ich := rfl
@[simp] theorem State.modMgmt_links (f : Mgmt → Mgmt) : (s.modMgmt f).links = s.links := rfl
@[simp] theorem State.modMgmt_time (f : Mgmt → Mgmt) : (s.modMgmt f).time = s.time := rfl
@[simp] theorem State.modMgmt_gov (f : Mgmt → Mgmt) : (s.modMgmt f).gov = s.gov := rfl
@[simp] theorem State.modMgmt_rmons (f : Mgmt → Mgmt) : (s.modMgmt f).rmons = s.rmons := rfl
@[simp] theorem State.modMgmt_hif (f : Mgmt → Mgmt) : (s.modMgmt f).hif = s.hif := rfl
@[simp] theorem State.modMgmt_franks (f : Mgmt → Mgmt) : (s.modMgmt f).franks = s.franks := rfl
@[simp] theorem State.modMgmt_module (f : Mgmt → Mgmt) : (s.modMgmt f).module = s.module := rfl
@[simp] theorem State.modMgmt_upsets (f : Mgmt → Mgmt) : (s.modMgmt f).upsets = s.upsets := rfl
@[simp] theorem State.modMgmt_incidents (f : Mgmt → Mgmt) : (s.modMgmt f).incidents = s.incidents := rfl
@[simp] theorem State.modMgmt_devNt (f : Mgmt → Mgmt) : (s.modMgmt f).devNt = s.devNt := rfl
@[simp] theorem State.modMgmt_hostMem (f : Mgmt → Mgmt) : (s.modMgmt f).hostMem = s.hostMem := rfl
@[simp] theorem State.modMgmt_sent (f : Mgmt → Mgmt) : (s.modMgmt f).sent = s.sent := rfl
@[simp] theorem State.modMgmt_pending (f : Mgmt → Mgmt) : (s.modMgmt f).pending = s.pending := rfl
@[simp] theorem State.modMgmt_getF (f : Mgmt → Mgmt) (pg' : Nat) (f' : Fld) : (s.modMgmt f).getF pg' f' = s.getF pg' f' := rfl
@[simp] theorem State.modMgmt_tile (f : Mgmt → Mgmt) (t' : Nat) : (s.modMgmt f).tile t' = s.tile t' := rfl
@[simp] theorem State.modMgmt_part (f : Mgmt → Mgmt) (p' : Nat) : (s.modMgmt f).part p' = s.part p' := rfl
@[simp] theorem State.modMgmt_link (f : Mgmt → Mgmt) (x' : Nat) : (s.modMgmt f).link x' = s.link x' := rfl
@[simp] theorem State.modMgmt_partOfRegion (f : Mgmt → Mgmt) (r' : Nat) : (s.modMgmt f).partOfRegion r' = s.partOfRegion r' := rfl
@[simp] theorem State.modMgmt_partOfTile (f : Mgmt → Mgmt) (t' : Nat) : (s.modMgmt f).partOfTile t' = s.partOfTile t' := rfl
@[simp] theorem State.modMgmt_seqState (f : Mgmt → Mgmt) (t' : Nat) : (s.modMgmt f).seqState t' = s.seqState t' := rfl
@[simp] theorem State.modMgmt_prtState (f : Mgmt → Mgmt) (p' : Nat) : (s.modMgmt f).prtState p' = s.prtState p' := rfl
@[simp] theorem State.modMgmt_roundLen (f : Mgmt → Mgmt) (p' : Nat) : (s.modMgmt f).roundLen p' = s.roundLen p' := rfl
@[simp] theorem State.modMgmt_lastBeat (f : Mgmt → Mgmt) (t' : Nat) : (s.modMgmt f).lastBeat t' = s.lastBeat t' := rfl
@[simp] theorem State.modMgmt_tileRuns (f : Mgmt → Mgmt) (t' : Nat) : (s.modMgmt f).tileRuns t' = s.tileRuns t' := rfl
@[simp] theorem State.modMgmt_chipId (f : Mgmt → Mgmt)  : (s.modMgmt f).chipId = s.chipId := rfl

/-! ### modHif -/

@[simp] theorem State.modHif_nt (f : Hif → Hif) : (s.modHif f).nt = s.nt := rfl
@[simp] theorem State.modHif_ltb (f : Hif → Hif) : (s.modHif f).ltb = s.ltb := rfl
@[simp] theorem State.modHif_free (f : Hif → Hif) : (s.modHif f).free = s.free := rfl
@[simp] theorem State.modHif_regs (f : Hif → Hif) : (s.modHif f).regs = s.regs := rfl
@[simp] theorem State.modHif_tiles (f : Hif → Hif) : (s.modHif f).tiles = s.tiles := rfl
@[simp] theorem State.modHif_parts (f : Hif → Hif) : (s.modHif f).parts = s.parts := rfl
@[simp] theorem State.modHif_ich (f : Hif → Hif) : (s.modHif f).ich = s.ich := rfl
@[simp] theorem State.modHif_links (f : Hif → Hif) : (s.modHif f).links = s.links := rfl
@[simp] theorem State.modHif_time (f : Hif → Hif) : (s.modHif f).time = s.time := rfl
@[simp] theorem State.modHif_gov (f : Hif → Hif) : (s.modHif f).gov = s.gov := rfl
@[simp] theorem State.modHif_rmons (f : Hif → Hif) : (s.modHif f).rmons = s.rmons := rfl
@[simp] theorem State.modHif_franks (f : Hif → Hif) : (s.modHif f).franks = s.franks := rfl
@[simp] theorem State.modHif_mgmt (f : Hif → Hif) : (s.modHif f).mgmt = s.mgmt := rfl
@[simp] theorem State.modHif_module (f : Hif → Hif) : (s.modHif f).module = s.module := rfl
@[simp] theorem State.modHif_upsets (f : Hif → Hif) : (s.modHif f).upsets = s.upsets := rfl
@[simp] theorem State.modHif_incidents (f : Hif → Hif) : (s.modHif f).incidents = s.incidents := rfl
@[simp] theorem State.modHif_devNt (f : Hif → Hif) : (s.modHif f).devNt = s.devNt := rfl
@[simp] theorem State.modHif_hostMem (f : Hif → Hif) : (s.modHif f).hostMem = s.hostMem := rfl
@[simp] theorem State.modHif_sent (f : Hif → Hif) : (s.modHif f).sent = s.sent := rfl
@[simp] theorem State.modHif_pending (f : Hif → Hif) : (s.modHif f).pending = s.pending := rfl
@[simp] theorem State.modHif_getF (f : Hif → Hif) (pg' : Nat) (f' : Fld) : (s.modHif f).getF pg' f' = s.getF pg' f' := rfl
@[simp] theorem State.modHif_tile (f : Hif → Hif) (t' : Nat) : (s.modHif f).tile t' = s.tile t' := rfl
@[simp] theorem State.modHif_part (f : Hif → Hif) (p' : Nat) : (s.modHif f).part p' = s.part p' := rfl
@[simp] theorem State.modHif_link (f : Hif → Hif) (x' : Nat) : (s.modHif f).link x' = s.link x' := rfl
@[simp] theorem State.modHif_partOfRegion (f : Hif → Hif) (r' : Nat) : (s.modHif f).partOfRegion r' = s.partOfRegion r' := rfl
@[simp] theorem State.modHif_partOfTile (f : Hif → Hif) (t' : Nat) : (s.modHif f).partOfTile t' = s.partOfTile t' := rfl
@[simp] theorem State.modHif_seqState (f : Hif → Hif) (t' : Nat) : (s.modHif f).seqState t' = s.seqState t' := rfl
@[simp] theorem State.modHif_prtState (f : Hif → Hif) (p' : Nat) : (s.modHif f).prtState p' = s.prtState p' := rfl
@[simp] theorem State.modHif_roundLen (f : Hif → Hif) (p' : Nat) : (s.modHif f).roundLen p' = s.roundLen p' := rfl
@[simp] theorem State.modHif_lastBeat (f : Hif → Hif) (t' : Nat) : (s.modHif f).lastBeat t' = s.lastBeat t' := rfl
@[simp] theorem State.modHif_tileRuns (f : Hif → Hif) (t' : Nat) : (s.modHif f).tileRuns t' = s.tileRuns t' := rfl
@[simp] theorem State.modHif_chipId (f : Hif → Hif)  : (s.modHif f).chipId = s.chipId := rfl

/-! ### modFranks -/

@[simp] theorem State.modFranks_nt (f : Franks → Franks) : (s.modFranks f).nt = s.nt := rfl
@[simp] theorem State.modFranks_ltb (f : Franks → Franks) : (s.modFranks f).ltb = s.ltb := rfl
@[simp] theorem State.modFranks_free (f : Franks → Franks) : (s.modFranks f).free = s.free := rfl
@[simp] theorem State.modFranks_regs (f : Franks → Franks) : (s.modFranks f).regs = s.regs := rfl
@[simp] theorem State.modFranks_tiles (f : Franks → Franks) : (s.modFranks f).tiles = s.tiles := rfl
@[simp] theorem State.modFranks_parts (f : Franks → Franks) : (s.modFranks f).parts = s.parts := rfl
@[simp] theorem State.modFranks_ich (f : Franks → Franks) : (s.modFranks f).ich = s.ich := rfl
@[simp] theorem State.modFranks_links (f : Franks → Franks) : (s.modFranks f).links = s.links := rfl
@[simp] theorem State.modFranks_time (f : Franks → Franks) : (s.modFranks f).time = s.time := rfl
@[simp] theorem State.modFranks_gov (f : Franks → Franks) : (s.modFranks f).gov = s.gov := rfl
@[simp] theorem State.modFranks_rmons (f : Franks → Franks) : (s.modFranks f).rmons = s.rmons := rfl
@[simp] theorem State.modFranks_hif (f : Franks → Franks) : (s.modFranks f).hif = s.hif := rfl
@[simp] theorem State.modFranks_mgmt (f : Franks → Franks) : (s.modFranks f).mgmt = s.mgmt := rfl
@[simp] theorem State.modFranks_module (f : Franks → Franks) : (s.modFranks f).module = s.module := rfl
@[simp] theorem State.modFranks_upsets (f : Franks → Franks) : (s.modFranks f).upsets = s.upsets := rfl
@[simp] theorem State.modFranks_incidents (f : Franks → Franks) : (s.modFranks f).incidents = s.incidents := rfl
@[simp] theorem State.modFranks_devNt (f : Franks → Franks) : (s.modFranks f).devNt = s.devNt := rfl
@[simp] theorem State.modFranks_hostMem (f : Franks → Franks) : (s.modFranks f).hostMem = s.hostMem := rfl
@[simp] theorem State.modFranks_sent (f : Franks → Franks) : (s.modFranks f).sent = s.sent := rfl
@[simp] theorem State.modFranks_pending (f : Franks → Franks) : (s.modFranks f).pending = s.pending := rfl
@[simp] theorem State.modFranks_getF (f : Franks → Franks) (pg' : Nat) (f' : Fld) : (s.modFranks f).getF pg' f' = s.getF pg' f' := rfl
@[simp] theorem State.modFranks_tile (f : Franks → Franks) (t' : Nat) : (s.modFranks f).tile t' = s.tile t' := rfl
@[simp] theorem State.modFranks_part (f : Franks → Franks) (p' : Nat) : (s.modFranks f).part p' = s.part p' := rfl
@[simp] theorem State.modFranks_link (f : Franks → Franks) (x' : Nat) : (s.modFranks f).link x' = s.link x' := rfl
@[simp] theorem State.modFranks_partOfRegion (f : Franks → Franks) (r' : Nat) : (s.modFranks f).partOfRegion r' = s.partOfRegion r' := rfl
@[simp] theorem State.modFranks_partOfTile (f : Franks → Franks) (t' : Nat) : (s.modFranks f).partOfTile t' = s.partOfTile t' := rfl
@[simp] theorem State.modFranks_seqState (f : Franks → Franks) (t' : Nat) : (s.modFranks f).seqState t' = s.seqState t' := rfl
@[simp] theorem State.modFranks_prtState (f : Franks → Franks) (p' : Nat) : (s.modFranks f).prtState p' = s.prtState p' := rfl
@[simp] theorem State.modFranks_roundLen (f : Franks → Franks) (p' : Nat) : (s.modFranks f).roundLen p' = s.roundLen p' := rfl
@[simp] theorem State.modFranks_lastBeat (f : Franks → Franks) (t' : Nat) : (s.modFranks f).lastBeat t' = s.lastBeat t' := rfl
@[simp] theorem State.modFranks_tileRuns (f : Franks → Franks) (t' : Nat) : (s.modFranks f).tileRuns t' = s.tileRuns t' := rfl
@[simp] theorem State.modFranks_chipId (f : Franks → Franks)  : (s.modFranks f).chipId = s.chipId := rfl

/-! ### modModule -/

@[simp] theorem State.modModule_nt (f : Module → Module) : (s.modModule f).nt = s.nt := rfl
@[simp] theorem State.modModule_ltb (f : Module → Module) : (s.modModule f).ltb = s.ltb := rfl
@[simp] theorem State.modModule_free (f : Module → Module) : (s.modModule f).free = s.free := rfl
@[simp] theorem State.modModule_regs (f : Module → Module) : (s.modModule f).regs = s.regs := rfl
@[simp] theorem State.modModule_tiles (f : Module → Module) : (s.modModule f).tiles = s.tiles := rfl
@[simp] theorem State.modModule_parts (f : Module → Module) : (s.modModule f).parts = s.parts := rfl
@[simp] theorem State.modModule_ich (f : Module → Module) : (s.modModule f).ich = s.ich := rfl
@[simp] theorem State.modModule_links (f : Module → Module) : (s.modModule f).links = s.links := rfl
@[simp] theorem State.modModule_time (f : Module → Module) : (s.modModule f).time = s.time := rfl
@[simp] theorem State.modModule_gov (f : Module → Module) : (s.modModule f).gov = s.gov := rfl
@[simp] theorem State.modModule_rmons (f : Module → Module) : (s.modModule f).rmons = s.rmons := rfl
@[simp] theorem State.modModule_hif (f : Module → Module) : (s.modModule f).hif = s.hif := rfl
@[simp] theorem State.modModule_franks (f : Module → Module) : (s.modModule f).franks = s.franks := rfl
@[simp] theorem State.modModule_mgmt (f : Module → Module) : (s.modModule f).mgmt = s.mgmt := rfl
@[simp] theorem State.modModule_upsets (f : Module → Module) : (s.modModule f).upsets = s.upsets := rfl
@[simp] theorem State.modModule_incidents (f : Module → Module) : (s.modModule f).incidents = s.incidents := rfl
@[simp] theorem State.modModule_devNt (f : Module → Module) : (s.modModule f).devNt = s.devNt := rfl
@[simp] theorem State.modModule_hostMem (f : Module → Module) : (s.modModule f).hostMem = s.hostMem := rfl
@[simp] theorem State.modModule_sent (f : Module → Module) : (s.modModule f).sent = s.sent := rfl
@[simp] theorem State.modModule_pending (f : Module → Module) : (s.modModule f).pending = s.pending := rfl
@[simp] theorem State.modModule_getF (f : Module → Module) (pg' : Nat) (f' : Fld) : (s.modModule f).getF pg' f' = s.getF pg' f' := rfl
@[simp] theorem State.modModule_tile (f : Module → Module) (t' : Nat) : (s.modModule f).tile t' = s.tile t' := rfl
@[simp] theorem State.modModule_part (f : Module → Module) (p' : Nat) : (s.modModule f).part p' = s.part p' := rfl
@[simp] theorem State.modModule_link (f : Module → Module) (x' : Nat) : (s.modModule f).link x' = s.link x' := rfl
@[simp] theorem State.modModule_partOfRegion (f : Module → Module) (r' : Nat) : (s.modModule f).partOfRegion r' = s.partOfRegion r' := rfl
@[simp] theorem State.modModule_partOfTile (f : Module → Module) (t' : Nat) : (s.modModule f).partOfTile t' = s.partOfTile t' := rfl
@[simp] theorem State.modModule_seqState (f : Module → Module) (t' : Nat) : (s.modModule f).seqState t' = s.seqState t' := rfl
@[simp] theorem State.modModule_prtState (f : Module → Module) (p' : Nat) : (s.modModule f).prtState p' = s.prtState p' := rfl
@[simp] theorem State.modModule_roundLen (f : Module → Module) (p' : Nat) : (s.modModule f).roundLen p' = s.roundLen p' := rfl
@[simp] theorem State.modModule_lastBeat (f : Module → Module) (t' : Nat) : (s.modModule f).lastBeat t' = s.lastBeat t' := rfl
@[simp] theorem State.modModule_tileRuns (f : Module → Module) (t' : Nat) : (s.modModule f).tileRuns t' = s.tileRuns t' := rfl
@[simp] theorem State.modModule_chipId (f : Module → Module)  : (s.modModule f).chipId = s.chipId := rfl

/-! ### emit -/

@[simp] theorem State.emit_nt (o : Out) : (s.emit o).nt = s.nt := rfl
@[simp] theorem State.emit_ltb (o : Out) : (s.emit o).ltb = s.ltb := rfl
@[simp] theorem State.emit_free (o : Out) : (s.emit o).free = s.free := rfl
@[simp] theorem State.emit_regs (o : Out) : (s.emit o).regs = s.regs := rfl
@[simp] theorem State.emit_tiles (o : Out) : (s.emit o).tiles = s.tiles := rfl
@[simp] theorem State.emit_parts (o : Out) : (s.emit o).parts = s.parts := rfl
@[simp] theorem State.emit_ich (o : Out) : (s.emit o).ich = s.ich := rfl
@[simp] theorem State.emit_links (o : Out) : (s.emit o).links = s.links := rfl
@[simp] theorem State.emit_time (o : Out) : (s.emit o).time = s.time := rfl
@[simp] theorem State.emit_gov (o : Out) : (s.emit o).gov = s.gov := rfl
@[simp] theorem State.emit_rmons (o : Out) : (s.emit o).rmons = s.rmons := rfl
@[simp] theorem State.emit_hif (o : Out) : (s.emit o).hif = s.hif := rfl
@[simp] theorem State.emit_franks (o : Out) : (s.emit o).franks = s.franks := rfl
@[simp] theorem State.emit_mgmt (o : Out) : (s.emit o).mgmt = s.mgmt := rfl
@[simp] theorem State.emit_module (o : Out) : (s.emit o).module = s.module := rfl
@[simp] theorem State.emit_upsets (o : Out) : (s.emit o).upsets = s.upsets := rfl
@[simp] theorem State.emit_incidents (o : Out) : (s.emit o).incidents = s.incidents := rfl
@[simp] theorem State.emit_devNt (o : Out) : (s.emit o).devNt = s.devNt := rfl
@[simp] theorem State.emit_hostMem (o : Out) : (s.emit o).hostMem = s.hostMem := rfl
@[simp] theorem State.emit_pending (o : Out) : (s.emit o).pending = s.pending := rfl
@[simp] theorem State.emit_getF (o : Out) (pg' : Nat) (f' : Fld) : (s.emit o).getF pg' f' = s.getF pg' f' := rfl
@[simp] theorem State.emit_tile (o : Out) (t' : Nat) : (s.emit o).tile t' = s.tile t' := rfl
@[simp] theorem State.emit_part (o : Out) (p' : Nat) : (s.emit o).part p' = s.part p' := rfl
@[simp] theorem State.emit_link (o : Out) (x' : Nat) : (s.emit o).link x' = s.link x' := rfl
@[simp] theorem State.emit_partOfRegion (o : Out) (r' : Nat) : (s.emit o).partOfRegion r' = s.partOfRegion r' := rfl
@[simp] theorem State.emit_partOfTile (o : Out) (t' : Nat) : (s.emit o).partOfTile t' = s.partOfTile t' := rfl
@[simp] theorem State.emit_seqState (o : Out) (t' : Nat) : (s.emit o).seqState t' = s.seqState t' := rfl
@[simp] theorem State.emit_prtState (o : Out) (p' : Nat) : (s.emit o).prtState p' = s.prtState p' := rfl
@[simp] theorem State.emit_roundLen (o : Out) (p' : Nat) : (s.emit o).roundLen p' = s.roundLen p' := rfl
@[simp] theorem State.emit_lastBeat (o : Out) (t' : Nat) : (s.emit o).lastBeat t' = s.lastBeat t' := rfl
@[simp] theorem State.emit_tileRuns (o : Out) (t' : Nat) : (s.emit o).tileRuns t' = s.tileRuns t' := rfl
@[simp] theorem State.emit_chipId (o : Out)  : (s.emit o).chipId = s.chipId := rfl

/-! ### raise -/

@[simp] theorem State.raise_nt (i : Incident) : (s.raise i).nt = s.nt := rfl
@[simp] theorem State.raise_ltb (i : Incident) : (s.raise i).ltb = s.ltb := rfl
@[simp] theorem State.raise_free (i : Incident) : (s.raise i).free = s.free := rfl
@[simp] theorem State.raise_regs (i : Incident) : (s.raise i).regs = s.regs := rfl
@[simp] theorem State.raise_tiles (i : Incident) : (s.raise i).tiles = s.tiles := rfl
@[simp] theorem State.raise_parts (i : Incident) : (s.raise i).parts = s.parts := rfl
@[simp] theorem State.raise_ich (i : Incident) : (s.raise i).ich = s.ich := rfl
@[simp] theorem State.raise_links (i : Incident) : (s.raise i).links = s.links := rfl
@[simp] theorem State.raise_time (i : Incident) : (s.raise i).time = s.time := rfl
@[simp] theorem State.raise_gov (i : Incident) : (s.raise i).gov = s.gov := rfl
@[simp] theorem State.raise_rmons (i : Incident) : (s.raise i).rmons = s.rmons := rfl
@[simp] theorem State.raise_hif (i : Incident) : (s.raise i).hif = s.hif := rfl
@[simp] theorem State.raise_franks (i : Incident) : (s.raise i).franks = s.franks := rfl
@[simp] theorem State.raise_mgmt (i : Incident) : (s.raise i).mgmt = s.mgmt := rfl
@[simp] theorem State.raise_module (i : Incident) : (s.raise i).module = s.module := rfl
@[simp] theorem State.raise_upsets (i : Incident) : (s.raise i).upsets = s.upsets := rfl
@[simp] theorem State.raise_devNt (i : Incident) : (s.raise i).devNt = s.devNt := rfl
@[simp] theorem State.raise_hostMem (i : Incident) : (s.raise i).hostMem = s.hostMem := rfl
@[simp] theorem State.raise_sent (i : Incident) : (s.raise i).sent = s.sent := rfl
@[simp] theorem State.raise_pending (i : Incident) : (s.raise i).pending = s.pending := rfl
@[simp] theorem State.raise_getF (i : Incident) (pg' : Nat) (f' : Fld) : (s.raise i).getF pg' f' = s.getF pg' f' := rfl
@[simp] theorem State.raise_tile (i : Incident) (t' : Nat) : (s.raise i).tile t' = s.tile t' := rfl
@[simp] theorem State.raise_part (i : Incident) (p' : Nat) : (s.raise i).part p' = s.part p' := rfl
@[simp] theorem State.raise_link (i : Incident) (x' : Nat) : (s.raise i).link x' = s.link x' := rfl
@[simp] theorem State.raise_partOfRegion (i : Incident) (r' : Nat) : (s.raise i).partOfRegion r' = s.partOfRegion r' := rfl
@[simp] theorem State.raise_partOfTile (i : Incident) (t' : Nat) : (s.raise i).partOfTile t' = s.partOfTile t' := rfl
@[simp] theorem State.raise_seqState (i : Incident) (t' : Nat) : (s.raise i).seqState t' = s.seqState t' := rfl
@[simp] theorem State.raise_prtState (i : Incident) (p' : Nat) : (s.raise i).prtState p' = s.prtState p' := rfl
@[simp] theorem State.raise_roundLen (i : Incident) (p' : Nat) : (s.raise i).roundLen p' = s.roundLen p' := rfl
@[simp] theorem State.raise_lastBeat (i : Incident) (t' : Nat) : (s.raise i).lastBeat t' = s.lastBeat t' := rfl
@[simp] theorem State.raise_tileRuns (i : Incident) (t' : Nat) : (s.raise i).tileRuns t' = s.tileRuns t' := rfl
@[simp] theorem State.raise_chipId (i : Incident)  : (s.raise i).chipId = s.chipId := rfl

/-! ### passTime -/

@[simp] theorem State.passTime_free (d : Nat) : (s.passTime d).free = s.free := rfl
@[simp] theorem State.passTime_regs (d : Nat) : (s.passTime d).regs = s.regs := rfl
@[simp] theorem State.passTime_tiles (d : Nat) : (s.passTime d).tiles = s.tiles := rfl
@[simp] theorem State.passTime_parts (d : Nat) : (s.passTime d).parts = s.parts := rfl
@[simp] theorem State.passTime_ich (d : Nat) : (s.passTime d).ich = s.ich := rfl
@[simp] theorem State.passTime_links (d : Nat) : (s.passTime d).links = s.links := rfl
@[simp] theorem State.passTime_gov (d : Nat) : (s.passTime d).gov = s.gov := rfl
@[simp] theorem State.passTime_rmons (d : Nat) : (s.passTime d).rmons = s.rmons := rfl
@[simp] theorem State.passTime_hif (d : Nat) : (s.passTime d).hif = s.hif := rfl
@[simp] theorem State.passTime_franks (d : Nat) : (s.passTime d).franks = s.franks := rfl
@[simp] theorem State.passTime_mgmt (d : Nat) : (s.passTime d).mgmt = s.mgmt := rfl
@[simp] theorem State.passTime_upsets (d : Nat) : (s.passTime d).upsets = s.upsets := rfl
@[simp] theorem State.passTime_incidents (d : Nat) : (s.passTime d).incidents = s.incidents := rfl
@[simp] theorem State.passTime_devNt (d : Nat) : (s.passTime d).devNt = s.devNt := rfl
@[simp] theorem State.passTime_hostMem (d : Nat) : (s.passTime d).hostMem = s.hostMem := rfl
@[simp] theorem State.passTime_sent (d : Nat) : (s.passTime d).sent = s.sent := rfl
@[simp] theorem State.passTime_pending (d : Nat) : (s.passTime d).pending = s.pending := rfl
@[simp] theorem State.passTime_getF (d : Nat) (pg' : Nat) (f' : Fld) : (s.passTime d).getF pg' f' = s.getF pg' f' := rfl
@[simp] theorem State.passTime_tile (d : Nat) (t' : Nat) : (s.passTime d).tile t' = s.tile t' := rfl
@[simp] theorem State.passTime_part (d : Nat) (p' : Nat) : (s.passTime d).part p' = s.part p' := rfl
@[simp] theorem State.passTime_link (d : Nat) (x' : Nat) : (s.passTime d).link x' = s.link x' := rfl
@[simp] theorem State.passTime_partOfRegion (d : Nat) (r' : Nat) : (s.passTime d).partOfRegion r' = s.partOfRegion r' := rfl
@[simp] theorem State.passTime_partOfTile (d : Nat) (t' : Nat) : (s.passTime d).partOfTile t' = s.partOfTile t' := rfl
@[simp] theorem State.passTime_seqState (d : Nat) (t' : Nat) : (s.passTime d).seqState t' = s.seqState t' := rfl
@[simp] theorem State.passTime_prtState (d : Nat) (p' : Nat) : (s.passTime d).prtState p' = s.prtState p' := rfl
@[simp] theorem State.passTime_roundLen (d : Nat) (p' : Nat) : (s.passTime d).roundLen p' = s.roundLen p' := rfl
@[simp] theorem State.passTime_lastBeat (d : Nat) (t' : Nat) : (s.passTime d).lastBeat t' = s.lastBeat t' := rfl
@[simp] theorem State.passTime_tileRuns (d : Nat) (t' : Nat) : (s.passTime d).tileRuns t' = s.tileRuns t' := rfl
@[simp] theorem State.passTime_chipId (d : Nat)  : (s.passTime d).chipId = s.chipId := rfl

/-! ### rewriteControl -/

@[simp] theorem State.rewriteControl_nt (g : Upset → Bool) : (s.rewriteControl g).nt = s.nt := rfl
@[simp] theorem State.rewriteControl_ltb (g : Upset → Bool) : (s.rewriteControl g).ltb = s.ltb := rfl
@[simp] theorem State.rewriteControl_free (g : Upset → Bool) : (s.rewriteControl g).free = s.free := rfl
@[simp] theorem State.rewriteControl_regs (g : Upset → Bool) : (s.rewriteControl g).regs = s.regs := rfl
@[simp] theorem State.rewriteControl_tiles (g : Upset → Bool) : (s.rewriteControl g).tiles = s.tiles := rfl
@[simp] theorem State.rewriteControl_parts (g : Upset → Bool) : (s.rewriteControl g).parts = s.parts := rfl
@[simp] theorem State.rewriteControl_ich (g : Upset → Bool) : (s.rewriteControl g).ich = s.ich := rfl
@[simp] theorem State.rewriteControl_links (g : Upset → Bool) : (s.rewriteControl g).links = s.links := rfl
@[simp] theorem State.rewriteControl_time (g : Upset → Bool) : (s.rewriteControl g).time = s.time := rfl
@[simp] theorem State.rewriteControl_gov (g : Upset → Bool) : (s.rewriteControl g).gov = s.gov := rfl
@[simp] theorem State.rewriteControl_rmons (g : Upset → Bool) : (s.rewriteControl g).rmons = s.rmons := rfl
@[simp] theorem State.rewriteControl_hif (g : Upset → Bool) : (s.rewriteControl g).hif = s.hif := rfl
@[simp] theorem State.rewriteControl_franks (g : Upset → Bool) : (s.rewriteControl g).franks = s.franks := rfl
@[simp] theorem State.rewriteControl_mgmt (g : Upset → Bool) : (s.rewriteControl g).mgmt = s.mgmt := rfl
@[simp] theorem State.rewriteControl_module (g : Upset → Bool) : (s.rewriteControl g).module = s.module := rfl
@[simp] theorem State.rewriteControl_incidents (g : Upset → Bool) : (s.rewriteControl g).incidents = s.incidents := rfl
@[simp] theorem State.rewriteControl_devNt (g : Upset → Bool) : (s.rewriteControl g).devNt = s.devNt := rfl
@[simp] theorem State.rewriteControl_hostMem (g : Upset → Bool) : (s.rewriteControl g).hostMem = s.hostMem := rfl
@[simp] theorem State.rewriteControl_sent (g : Upset → Bool) : (s.rewriteControl g).sent = s.sent := rfl
@[simp] theorem State.rewriteControl_pending (g : Upset → Bool) : (s.rewriteControl g).pending = s.pending := rfl
@[simp] theorem State.rewriteControl_getF (g : Upset → Bool) (pg' : Nat) (f' : Fld) : (s.rewriteControl g).getF pg' f' = s.getF pg' f' := rfl
@[simp] theorem State.rewriteControl_tile (g : Upset → Bool) (t' : Nat) : (s.rewriteControl g).tile t' = s.tile t' := rfl
@[simp] theorem State.rewriteControl_part (g : Upset → Bool) (p' : Nat) : (s.rewriteControl g).part p' = s.part p' := rfl
@[simp] theorem State.rewriteControl_link (g : Upset → Bool) (x' : Nat) : (s.rewriteControl g).link x' = s.link x' := rfl
@[simp] theorem State.rewriteControl_partOfRegion (g : Upset → Bool) (r' : Nat) : (s.rewriteControl g).partOfRegion r' = s.partOfRegion r' := rfl
@[simp] theorem State.rewriteControl_partOfTile (g : Upset → Bool) (t' : Nat) : (s.rewriteControl g).partOfTile t' = s.partOfTile t' := rfl
@[simp] theorem State.rewriteControl_seqState (g : Upset → Bool) (t' : Nat) : (s.rewriteControl g).seqState t' = s.seqState t' := rfl
@[simp] theorem State.rewriteControl_prtState (g : Upset → Bool) (p' : Nat) : (s.rewriteControl g).prtState p' = s.prtState p' := rfl
@[simp] theorem State.rewriteControl_roundLen (g : Upset → Bool) (p' : Nat) : (s.rewriteControl g).roundLen p' = s.roundLen p' := rfl
@[simp] theorem State.rewriteControl_lastBeat (g : Upset → Bool) (t' : Nat) : (s.rewriteControl g).lastBeat t' = s.lastBeat t' := rfl
@[simp] theorem State.rewriteControl_tileRuns (g : Upset → Bool) (t' : Nat) : (s.rewriteControl g).tileRuns t' = s.tileRuns t' := rfl
@[simp] theorem State.rewriteControl_chipId (g : Upset → Bool)  : (s.rewriteControl g).chipId = s.chipId := rfl

/-! ### What is read after a write -/

theorem State.getF_setF (pg pg' : Nat) (f f' : Fld) (v : Nat) (h : f.reset = f'.reset) :
    (s.setF pg f v).getF pg' f' = if f.key pg = f'.key pg' then v % 2 ^ f.width else s.getF pg' f' := by
  simp only [State.getF, State.setF, ← h, Map.get_put]

@[simp] theorem State.getF_setF_same (pg : Nat) (f : Fld) (v : Nat) : (s.setF pg f v).getF pg f = v % 2 ^ f.width := by
  simp [State.getF, State.setF]

theorem State.getF_setF_ne (pg pg' : Nat) (f f' : Fld) (v : Nat) (h : f.key pg ≠ f'.key pg') :
    (s.setF pg f v).getF pg' f' = s.getF pg' f' := by
  simp only [State.getF, State.setF]; exact Map.get_put_ne _ _ _ _ _ _ h

/-- A field keeps its value while another register, or another part of the same one, is written. -/
theorem State.regs_setF_ne (pg : Nat) (f : Fld) (v k d : Nat) (h : f.key pg ≠ k) :
    (s.setF pg f v).regs.get k d = s.regs.get k d := Map.get_put_ne _ _ _ _ _ _ h

@[simp] theorem State.tile_setTile_same (t : Nat) (x : Tile) : (s.setTile t x).tile t = x := by
  simp [State.tile, State.setTile]

theorem State.tile_setTile_ne (t t' : Nat) (x : Tile) (h : t ≠ t') : (s.setTile t x).tile t' = s.tile t' :=
  Map.get_put_ne _ _ _ _ _ _ h

@[simp] theorem State.tile_modTile_same (t : Nat) (f : Tile → Tile) : (s.modTile t f).tile t = f (s.tile t) := by
  simp [State.modTile]

theorem State.tile_modTile_ne (t t' : Nat) (f : Tile → Tile) (h : t ≠ t') : (s.modTile t f).tile t' = s.tile t' :=
  State.tile_setTile_ne s t t' _ h

@[simp] theorem State.tile_modArch_same (t : Nat) (f : Arch → Arch) :
    (s.modArch t f).tile t = { s.tile t with arch := f (s.tile t).arch } := by
  simp [State.modArch]

@[simp] theorem State.part_setPart_same (p : Nat) (x : Part) : (s.setPart p x).part p = x := by
  simp [State.part, State.setPart]

theorem State.part_setPart_ne (p p' : Nat) (x : Part) (h : p ≠ p') : (s.setPart p x).part p' = s.part p' :=
  Map.get_put_ne _ _ _ _ _ _ h

@[simp] theorem State.part_modPart_same (p : Nat) (f : Part → Part) : (s.modPart p f).part p = f (s.part p) := by
  simp [State.modPart]

theorem State.part_modPart_ne (p p' : Nat) (f : Part → Part) (h : p ≠ p') : (s.modPart p f).part p' = s.part p' :=
  State.part_setPart_ne s p p' _ h

@[simp] theorem State.link_setLink_same (x : Nat) (l : Link) : (s.setLink x l).link x = l := by
  simp [State.link, State.setLink]

theorem State.link_setLink_ne (x x' : Nat) (l : Link) (h : x ≠ x') : (s.setLink x l).link x' = s.link x' :=
  Map.get_put_ne _ _ _ _ _ _ h

@[simp] theorem State.link_modLink_same (x : Nat) (f : Link → Link) : (s.modLink x f).link x = f (s.link x) := by
  simp [State.modLink]

theorem State.link_modLink_ne (x x' : Nat) (f : Link → Link) (h : x ≠ x') : (s.modLink x f).link x' = s.link x' :=
  State.link_setLink_ne s x x' _ h

@[simp] theorem State.modIch_ich (f : Ich → Ich) : (s.modIch f).ich = f s.ich := rfl
@[simp] theorem State.modMgmt_mgmt (f : Mgmt → Mgmt) : (s.modMgmt f).mgmt = f s.mgmt := rfl
@[simp] theorem State.modHif_hif (f : Hif → Hif) : (s.modHif f).hif = f s.hif := rfl
@[simp] theorem State.modFranks_franks (f : Franks → Franks) : (s.modFranks f).franks = f s.franks := rfl
@[simp] theorem State.modModule_module (f : Module → Module) : (s.modModule f).module = f s.module := rfl
@[simp] theorem State.emit_sent (o : Out) : (s.emit o).sent = s.sent ++ [o] := rfl
@[simp] theorem State.raise_incidents (i : Incident) : (s.raise i).incidents = s.incidents ++ [i] := rfl

end Sys2Proof.Machine
end

