-- ==== Sys2Proof/Laws/Ops.lean ====
section
/-! SUPPORT. What each shared operation can do, said once: the components of the state it may change, and what is read after
it. -/

namespace Sys2Proof.Machine

variable (s : State)

/-! ### Keys of register fields -/

/-- Fields of different places have different keys. -/
theorem Fld.key_inj {pg pg' : Nat} {f f' : Fld} (ho : f.off < 0x10000) (ho' : f'.off < 0x10000) (hl : f.lo < 32)
    (hl' : f'.lo < 32) : f.key pg = f'.key pg' ↔ pg = pg' ∧ f.off = f'.off ∧ f.lo = f'.lo := by
  simp only [Fld.key]
  omega

/-- A field of another page keeps its value. -/
theorem State.getF_setF_page {pg pg' : Nat} (f f' : Fld) (v : Nat) (ho : f.off < 0x10000) (ho' : f'.off < 0x10000)
    (hl : f.lo < 32) (hl' : f'.lo < 32) (h : pg ≠ pg') : (s.setF pg f v).getF pg' f' = s.getF pg' f' :=
  s.getF_setF_ne pg pg' f f' v (fun e => h ((Fld.key_inj ho ho' hl hl').mp e).1)

/-- A field of the same page keeps its value while another register, or other bits of the same one, are written. -/
theorem State.getF_setF_place (pg : Nat) (f f' : Fld) (v : Nat) (ho : f.off < 0x10000) (ho' : f'.off < 0x10000)
    (hl : f.lo < 32) (hl' : f'.lo < 32) (h : f.off ≠ f'.off ∨ f.lo ≠ f'.lo) :
    (s.setF pg f v).getF pg f' = s.getF pg f' := by
  refine s.getF_setF_ne pg pg f f' v (fun e => ?_)
  have := (Fld.key_inj ho ho' hl hl').mp e
  rcases h with h | h
  · exact h this.2.1
  · exact h this.2.2

/-! ### Several fields -/

/-- Writing fields changes registers only. -/
theorem State.setFs_only (pg : Nat) (l : List (Fld × Nat)) : s.setFs pg l = { s with regs := (s.setFs pg l).regs } := by
  induction l generalizing s with
  | nil => rfl
  | cons e l ih => exact ih (s.setF pg e.1 e.2)

@[simp] theorem State.setFs_nil (pg : Nat) : s.setFs pg [] = s := rfl

@[simp] theorem State.setFs_cons (pg : Nat) (e : Fld × Nat) (l : List (Fld × Nat)) :
    s.setFs pg (e :: l) = (s.setF pg e.1 e.2).setFs pg l := rfl

/-- A field whose place is none of those written keeps its value. -/
theorem State.getF_setFs_ne (pg pg' : Nat) (l : List (Fld × Nat)) (f : Fld) (h : ∀ e ∈ l, e.1.key pg ≠ f.key pg') :
    (s.setFs pg l).getF pg' f = s.getF pg' f := by
  induction l generalizing s with
  | nil => rfl
  | cons e l ih =>
    rw [State.setFs_cons, ih _ (fun x hx => h x (List.mem_cons_of_mem _ hx))]
    exact s.getF_setF_ne pg pg' e.1 f e.2 (h e List.mem_cons_self)

@[simp] theorem State.setFs_tile (pg : Nat) (l : List (Fld × Nat)) (t : Nat) : (s.setFs pg l).tile t = s.tile t := by
  rw [State.setFs_only]; rfl

@[simp] theorem State.setFs_part (pg : Nat) (l : List (Fld × Nat)) (p : Nat) : (s.setFs pg l).part p = s.part p := by
  rw [State.setFs_only]; rfl

@[simp] theorem State.setFs_link (pg : Nat) (l : List (Fld × Nat)) (x : Nat) : (s.setFs pg l).link x = s.link x := by
  rw [State.setFs_only]; rfl

/-- A counter moves on by n, wrapping at its width; nothing but registers changes. -/
theorem State.addF_only (pg : Nat) (f : Fld) (n : Nat) : s.addF pg f n = { s with regs := (s.addF pg f n).regs } := rfl

@[simp] theorem State.getF_addF_same (pg : Nat) (f : Fld) (n : Nat) :
    (s.addF pg f n).getF pg f = (s.getF pg f + n) % 2 ^ f.width := by simp [State.addF]

theorem State.set64_only (pg : Nat) (lo hi : Fld) (v : Nat) :
    s.set64 pg lo hi v = { s with regs := (s.set64 pg lo hi v).regs } := rfl

/-- Two 32-bit registers of a page hold a 64-bit value. -/
theorem State.get64_set64 (pg : Nat) (lo hi : Fld) (v : Nat) (hl : lo.width = 32) (hh : hi.width = 32)
    (h : hi.key pg ≠ lo.key pg) : (s.set64 pg lo hi v).get64 pg lo hi = v % 2 ^ 64 := by
  simp only [State.get64, State.set64, State.getF_setF_same, hh]
  rw [State.getF_setF_ne _ _ _ _ _ _ h, State.getF_setF_same, hl]
  omega

theorem State.setPrtState_only (p st : Nat) : s.setPrtState p st = { s with regs := (s.setPrtState p st).regs } := rfl

theorem State.setSeqState_only (t st : Nat) : s.setSeqState t st = { s with regs := (s.setSeqState t st).regs } := rfl

/-! ### Updates for each member of a list -/

/-- What each update keeps, they keep together. -/
theorem State.forEach_keeps {α : Type} (P : State → Prop) (f : State → α → State) (l : List α)
    (hf : ∀ s x, x ∈ l → P s → P (f s x)) (h : P s) : P (s.forEach l f) := by
  induction l generalizing s with
  | nil => exact h
  | cons x l ih =>
    exact ih (f s x) (fun s y hy => hf s y (List.mem_cons_of_mem _ hy)) (hf s x List.mem_cons_self h)

/-- A view of the state that each update leaves is left by them all. -/
theorem State.forEach_same {α β : Type} (g : State → β) (f : State → α → State) (l : List α)
    (hf : ∀ s x, x ∈ l → g (f s x) = g s) : g (s.forEach l f) = g s :=
  State.forEach_keeps s (fun u => g u = g s) f l (fun u x hx h => (hf u x hx).trans h) rfl

@[simp] theorem State.forEach_nil {α : Type} (f : State → α → State) : s.forEach [] f = s := rfl

@[simp] theorem State.forEach_cons {α : Type} (f : State → α → State) (x : α) (l : List α) :
    s.forEach (x :: l) f = (f s x).forEach l f := rfl

/-! ### Time -/

/-- Time moves forward only, and only time, domains and the always-on clock change. -/
theorem State.atLeast_only (x : Nat) :
    s.atLeast x = { s with nt := max s.nt x, ltb := (s.atLeast x).ltb, time := (s.atLeast x).time,
                           module := { s.module with clock := (s.atLeast x).module.clock } } := by
  unfold State.atLeast
  split
  · rename_i h
    simp only [State.passTime]
    congr 1
    omega
  · rename_i h
    have : max s.nt x = s.nt := by omega
    rw [this]

@[simp] theorem State.atLeast_nt (x : Nat) : (s.atLeast x).nt = max s.nt x := by rw [State.atLeast_only]

@[simp] theorem State.atLeast_regs (x : Nat) : (s.atLeast x).regs = s.regs := by rw [State.atLeast_only]

@[simp] theorem State.atLeast_getF (x pg : Nat) (f : Fld) : (s.atLeast x).getF pg f = s.getF pg f := by
  simp [State.getF]

@[simp] theorem State.atLeast_tiles (x : Nat) : (s.atLeast x).tiles = s.tiles := by rw [State.atLeast_only]

@[simp] theorem State.atLeast_parts (x : Nat) : (s.atLeast x).parts = s.parts := by rw [State.atLeast_only]

@[simp] theorem State.atLeast_links (x : Nat) : (s.atLeast x).links = s.links := by rw [State.atLeast_only]

@[simp] theorem State.atLeast_ich (x : Nat) : (s.atLeast x).ich = s.ich := by rw [State.atLeast_only]

@[simp] theorem State.atLeast_mgmt (x : Nat) : (s.atLeast x).mgmt = s.mgmt := by rw [State.atLeast_only]

@[simp] theorem State.atLeast_hif (x : Nat) : (s.atLeast x).hif = s.hif := by rw [State.atLeast_only]

@[simp] theorem State.atLeast_sent (x : Nat) : (s.atLeast x).sent = s.sent := by rw [State.atLeast_only]

@[simp] theorem State.atLeast_incidents (x : Nat) : (s.atLeast x).incidents = s.incidents := by rw [State.atLeast_only]

@[simp] theorem State.atLeast_hostMem (x : Nat) : (s.atLeast x).hostMem = s.hostMem := by rw [State.atLeast_only]

/-- The always-on clock reads at least x. -/
theorem State.clockAtLeast_clock (x : Nat) : (s.clockAtLeast x).module.clock = max s.module.clock x := by
  unfold State.clockAtLeast
  split
  · simp only [State.passTime]; omega
  · omega

@[simp] theorem State.clockAtLeast_regs (x : Nat) : (s.clockAtLeast x).regs = s.regs := by
  unfold State.clockAtLeast; split <;> rfl

/-! ### Free values -/

theorem State.freeBits_lt (w : Nat) : (s.freeBits w).1 < 2 ^ w := Nat.mod_lt _ (Nat.two_pow_pos w)

@[simp] theorem State.freeBits_state (w : Nat) : (s.freeBits w).2 = { s with free := s.free + 1 } := rfl

@[simp] theorem State.freeWords_state (n : Nat) : (s.freeWords n).2 = { s with free := s.free + n } := rfl

@[simp] theorem State.freeWords_length (n : Nat) : (s.freeWords n).1.length = n := by simp [State.freeWords]

/-! ### Incidents -/

@[simp] theorem State.raiseCode_incidents (code block inst : Nat) (p : Option Nat) :
    (s.raiseCode code block inst p).incidents = s.incidents ++ [s.incident code block inst p] := rfl

theorem State.raiseCode_only (code block inst : Nat) (p : Option Nat) :
    s.raiseCode code block inst p = { s with incidents := (s.raiseCode code block inst p).incidents } := rfl

/-! ### Host memory -/

/-- The requests of a transfer leave; nothing else changes. -/
theorem State.dma_only (fn : Nat) (w : Bool) (a n : Nat) : s.dma fn w a n = { s with sent := (s.dma fn w a n).sent } := rfl

/-- A DMA write changes host memory, and its requests leave. -/
theorem State.hostWrite_only (fn a : Nat) (l : List Byte) :
    s.hostWrite fn a l = { s with hostMem := (s.hostWrite fn a l).hostMem, sent := (s.hostWrite fn a l).sent } := rfl

theorem State.ringWrite_only (b n a : Nat) (l : List Byte) :
    s.ringWrite b n a l = { s with hostMem := (s.ringWrite b n a l).hostMem, sent := (s.ringWrite b n a l).sent } := rfl

/-- The arbiters change themselves, and the one of fetches lets requests leave. -/
theorem State.runFetches_only (r left : Nat) :
    s.runFetches r left = { s with hif := (s.runFetches r left).hif, sent := (s.runFetches r left).sent } := rfl

theorem State.runWrites_only (r left : Nat) : s.runWrites r left = { s with hif := (s.runWrites r left).hif } := rfl

theorem State.pfTransfer_only (n : Nat) : s.pfTransfer n = { s with hif := (s.pfTransfer n).hif } := rfl

/-- Writes at the addresses that f gives keep the canonical form. -/
theorem Map.wf_putEach {α β : Type} [DecidableEq α] (d : α) (k : β → Nat) (v : β → α) (l : List β) (m : Map α)
    (w : m.wf d = true) : (l.foldl (fun m b => m.put (k b) (v b) d) m).wf d = true := by
  induction l generalizing m with
  | nil => exact w
  | cons b l ih => exact ih _ (Map.wf_put m (k b) (v b) d w)

/-- What lies at none of those addresses is kept. -/
theorem Map.get_putEach_ne {α β : Type} [DecidableEq α] (d : α) (k : β → Nat) (v : β → α) (l : List β) (m : Map α) (j : Nat)
    (h : ∀ b ∈ l, k b ≠ j) : (l.foldl (fun m b => m.put (k b) (v b) d) m).get j d = m.get j d := by
  induction l generalizing m with
  | nil => rfl
  | cons b l ih =>
    rw [List.foldl_cons, ih _ (fun x hx => h x (List.mem_cons_of_mem _ hx))]
    exact Map.get_put_ne _ _ _ _ _ _ (h b List.mem_cons_self)

theorem State.hostWrite_wf (fn a : Nat) (l : List Byte) (w : s.hostMem.wf 0 = true) : (s.hostWrite fn a l).hostMem.wf 0 = true :=
  Map.wf_putEach 0 (fun b : Byte × Nat => (a + b.2) % 2 ^ 64) (fun b => b.1) l.zipIdx s.hostMem w

theorem State.ringWrite_wf (b n a : Nat) (l : List Byte) (w : s.hostMem.wf 0 = true) :
    (s.ringWrite b n a l).hostMem.wf 0 = true :=
  (s.hostWrite 0 _ _).hostWrite_wf 0 _ _ (s.hostWrite_wf 0 _ _ w)

/-- A byte outside those written keeps its value. -/
theorem State.hostWrite_ne (fn a : Nat) (l : List Byte) (j : Nat) (h : ∀ i, i < l.length → (a + i) % 2 ^ 64 ≠ j) :
    (s.hostWrite fn a l).hostMem.get j 0 = s.hostMem.get j 0 := by
  refine Map.get_putEach_ne 0 (fun b : Byte × Nat => (a + b.2) % 2 ^ 64) (fun b => b.1) l.zipIdx s.hostMem j (fun b hb => ?_)
  obtain ⟨i, hi, rfl⟩ := List.mem_iff_getElem.mp hb
  simp only [List.length_zipIdx] at hi
  simpa using h i hi

/-! ### Tenants and interrupts -/

@[simp] theorem State.tenant_modTenant_same (t : Nat) (f : Tenant → Tenant) : (s.modTenant t f).tenant t = f (s.tenant t) := by
  simp [State.modTenant, State.tenant, State.modHif]

theorem State.tenant_modTenant_ne (t t' : Nat) (f : Tenant → Tenant) (h : t ≠ t') :
    (s.modTenant t f).tenant t' = s.tenant t' := by
  simp only [State.modTenant, State.tenant, State.modHif]
  exact Map.get_put_ne _ _ _ _ _ _ h

theorem State.modTenant_only (t : Nat) (f : Tenant → Tenant) : s.modTenant t f = { s with hif := (s.modTenant t f).hif } := rfl

theorem State.modVector_only (fn v : Nat) (f : MsixVec → MsixVec) :
    s.modVector fn v f = { s with hif := (s.modVector fn v f).hif } := by
  unfold State.modVector; split <;> rfl

/-- An interrupt is sent, or left pending in its vector: nothing else changes. -/
theorem State.msix_only (fn v : Nat) : s.msix fn v = { s with hif := (s.msix fn v).hif, sent := (s.msix fn v).sent } := by
  unfold State.msix
  split
  · rw [State.modVector_only]
  · split <;> rfl

@[simp] theorem State.msix_regs (fn v : Nat) : (s.msix fn v).regs = s.regs := by rw [State.msix_only]

@[simp] theorem State.msix_mgmt (fn v : Nat) : (s.msix fn v).mgmt = s.mgmt := by rw [State.msix_only]

@[simp] theorem State.msix_getF (fn v pg : Nat) (f : Fld) : (s.msix fn v).getF pg f = s.getF pg f := by
  simp [State.getF]

theorem State.complete_only (t st tag r x : Nat) (run : Option (Nat × Nat)) :
    s.complete t st tag r x run = { s with hif := (s.complete t st tag r x run).hif } := rfl

/-- What is queued for a ring with no run comes last. -/
theorem State.queueResult_results (t : Nat) (r : ResultItem) (h : r.run = none) :
    ((s.queueResult t r).tenant t).results = (s.tenant t).results ++ [r] := by
  have late : (fun b => !r.after b) = fun _ => true := funext (fun b => by simp [ResultItem.after, h])
  have whole : ∀ l : List ResultItem, l.takeWhile (fun _ => true) = l ∧ l.dropWhile (fun _ => true) = [] := by
    intro l
    induction l with
    | nil => exact ⟨rfl, rfl⟩
    | cons b l ih => exact ⟨by simp only [List.takeWhile_cons, if_true, ih.1], by simp only [List.dropWhile_cons, if_true, ih.2]⟩
  simp only [State.queueResult, late, whole]
  exact congrArg Tenant.results (s.tenant_modTenant_same t (fun x => { x with results := (s.tenant t).results ++ [r] }))

/-! ### The mailbox -/

/-- Taking a command changes registers of its page and asks for the words that its results hold until it ends. -/
theorem State.takeCommand_only :
    s.takeCommand = { s with regs := s.takeCommand.regs, free := s.free + 8 } := by
  simp only [State.takeCommand, State.freeWords]
  rw [State.setFs_only]
  congr 1

/-- Ending a command changes registers of its page and signals PF vector 3. -/
theorem State.endCommand_only (st : Nat) (l : List Nat) :
    s.endCommand st l = { s with regs := (s.endCommand st l).regs, hif := (s.endCommand st l).hif,
                                 sent := (s.endCommand st l).sent } := by
  simp only [State.endCommand, State.pfInt]
  rw [State.msix_only]
  rw [State.setFs_only (State.setFs s _ _)]
  rw [State.setFs_only s]

/-- A command that the Clerk, or the Postmaster, serves: what it may do. -/
theorem State.serveCommand_cases (op : Nat) (clerk : Bool) (f : State → State) :
    (s.asks op = false ∧ s.serveCommand op clerk f = s) ∨
    (s.asks op = true ∧ s.isReady = false ∧ s.serveCommand op clerk f = s.takeCommand.endCommand msNOTREADY []) ∨
    (s.asks op = true ∧ s.isReady = true ∧ clerk = true ∧ s.mgmt.clerkUp = false ∧ s.serveCommand op clerk f = s) ∨
    (s.asks op = true ∧ s.isReady = true ∧ (clerk = true → s.mgmt.clerkUp = true) ∧
      s.serveCommand op clerk f = f s.takeCommand) := by
  unfold State.serveCommand
  cases s.asks op <;> cases s.isReady <;> cases clerk <;> cases s.mgmt.clerkUp <;> simp

/-! ### Canonical stores -/

/-- A tile is changed: the tiles stay canonical. -/
theorem State.modTile_wf (t : Nat) (f : Tile → Tile) (w : s.tiles.wf .reset = true) : (s.modTile t f).tiles.wf .reset = true :=
  Map.wf_put _ _ _ _ w

theorem State.modPart_wf (p : Nat) (f : Part → Part) (w : s.parts.wf .reset = true) : (s.modPart p f).parts.wf .reset = true :=
  Map.wf_put _ _ _ _ w

theorem State.modLink_wf (x : Nat) (f : Link → Link) (w : s.links.wf .reset = true) : (s.modLink x f).links.wf .reset = true :=
  Map.wf_put _ _ _ _ w

end Sys2Proof.Machine
end

