-- ==== Sys2Proof/Laws/Loader.lean ====
section
/-! SUPPORT. Taking a mailbox command changes nothing that the loader checks. -/

namespace Sys2Proof.Machine

variable (s : State)

/-- Taking a command writes registers of the MGT page below 0x200 only. -/
theorem State.takeCommand_getF (pg : Nat) (f : Fld)
    (h : ∀ g : Fld, g.off < 0x200 → g.lo < 32 → g.key pgMGT ≠ f.key pg) : s.takeCommand.getF pg f = s.getF pg f := by
  simp only [State.takeCommand, State.freeWords]
  rw [State.getF_setFs_ne, State.getF_setFs_ne]
  · simp [State.getF]
  · intro e he
    simp only [List.mem_cons, List.not_mem_nil, or_false] at he
    rcases he with rfl | rfl | rfl | rfl
    · exact h Reg.MGT_CMD_GO (by decide) (by decide)
    · exact h Reg.MGT_RSP_BUSY (by decide) (by decide)
    · exact h Reg.MGT_RSP_DONE (by decide) (by decide)
    · exact h Reg.MGT_RSP_TAG (by decide) (by decide)
  · intro e he
    simp only [List.mem_map] at he
    obtain ⟨x, hx, rfl⟩ := he
    have hx := List.mem_zipIdx hx
    simp only [List.length_map, List.length_range, Nat.zero_add] at hx
    refine h _ ?_ (by simp [Fld.at, Reg.MGT_RES_WORD])
    simp only [Fld.at, Reg.MGT_RES_WORD]
    omega

/-- Pages past the MGT page keep every field. -/
theorem State.takeCommand_getF_high (pg : Nat) (f : Fld) (h : pgMGT < pg) : s.takeCommand.getF pg f = s.getF pg f := by
  refine s.takeCommand_getF pg f (fun g hg hl => ?_)
  simp only [Fld.key, pgMGT] at *
  omega

/-- So do the pages before it. -/
theorem State.takeCommand_getF_low (pg : Nat) (f : Fld) (h : pg < pgMGT) (ho : f.off < 0x10000) (hl : f.lo < 32) :
    s.takeCommand.getF pg f = s.getF pg f := by
  refine s.takeCommand_getF pg f (fun g hg hl => ?_)
  simp only [Fld.key, pgMGT] at *
  omega

@[simp] theorem State.takeCommand_mgmt : s.takeCommand.mgmt = s.mgmt := by rw [State.takeCommand_only]
@[simp] theorem State.takeCommand_ich : s.takeCommand.ich = s.ich := by rw [State.takeCommand_only]
@[simp] theorem State.takeCommand_parts : s.takeCommand.parts = s.parts := by rw [State.takeCommand_only]
@[simp] theorem State.takeCommand_upsets : s.takeCommand.upsets = s.upsets := by rw [State.takeCommand_only]

@[simp] theorem State.takeCommand_chipId : s.takeCommand.chipId = s.chipId := by
  simp only [State.chipId]
  rw [s.takeCommand_getF_low _ _ (by decide) (by decide) (by decide), s.takeCommand_getF_low _ _ (by decide) (by decide) (by decide),
    s.takeCommand_getF_low _ _ (by decide) (by decide) (by decide)]

@[simp] theorem State.takeCommand_prt (p : Nat) (f : Fld) : s.takeCommand.getF (pgPRT p) f = s.getF (pgPRT p) f :=
  s.takeCommand_getF_high _ _ (by simp only [pgPRT, pgMGT]; omega)

@[simp] theorem State.takeCommand_getL (x : Nat) (f : Fld) : s.takeCommand.getL x f = s.getL x f :=
  s.takeCommand_getF_high _ _ (by simp only [linkPage, pgMGT]; split <;> omega)

@[simp] theorem State.takeCommand_sds (x : Nat) : s.takeCommand.sds x = s.sds x := by
  simp only [State.sds, s.takeCommand_getF_high 0x022 _ (by decide)]

@[simp] theorem State.takeCommand_leaseOf (x k : Nat) : s.takeCommand.leaseOf x k = s.leaseOf x k := by
  simp [State.leaseOf, State.controlLost]

@[simp] theorem State.takeCommand_leases (p x : Nat) : s.takeCommand.leases p x = s.leases p x := by
  simp [State.leases]

@[simp] theorem State.takeCommand_prtState (p : Nat) : s.takeCommand.prtState p = s.prtState p := by
  simp [State.prtState]

@[simp] theorem State.takeCommand_hasTime : s.takeCommand.hasTime = s.hasTime := by
  have h : ∀ f : Fld, f.off < 0x10000 → f.lo < 32 → s.takeCommand.getF pgTMB f = s.getF pgTMB f :=
    fun f => s.takeCommand_getF_low _ f (by decide)
  have hb : s.takeCommand.getB pgTMB Reg.TMB_STAT_SEL = s.getB pgTMB Reg.TMB_STAT_SEL := by
    simp only [State.getB, h Reg.TMB_STAT_SEL (by decide) (by decide)]
  have hd : ∀ d : Bool, s.takeCommand.domGood d = s.domGood d := by
    intro d
    cases d
    · simp [State.domGood, State.domState, h Reg.TMB_STAT_STATE_A (by decide) (by decide)]
    · simp [State.domGood, State.domState, h Reg.TMB_STAT_STATE_B (by decide) (by decide)]
  simp only [State.hasTime, hb, hd]

@[simp] theorem State.takeCommand_arg (k : Nat) (h : k < 8) : s.takeCommand.arg k = s.arg k := by
  simp only [State.arg, State.takeCommand, State.freeWords]
  rw [State.getF_setFs_ne, State.getF_setFs_ne]
  · simp [State.getF]
  · intro e he
    simp only [List.mem_cons, List.not_mem_nil, or_false] at he
    rcases he with rfl | rfl | rfl | rfl <;>
      simp only [Fld.key, Fld.at, Reg.MGT_ARG_WORD, Reg.MGT_CMD_GO, Reg.MGT_RSP_BUSY, Reg.MGT_RSP_DONE, Reg.MGT_RSP_TAG] <;> omega
  · intro e he
    simp only [List.mem_map] at he
    obtain ⟨x, hx, rfl⟩ := he
    have hx := List.mem_zipIdx hx
    simp only [List.length_map, List.length_range, Nat.zero_add] at hx
    simp only [Fld.key, Fld.at, Reg.MGT_ARG_WORD, Reg.MGT_RES_WORD]
    omega

/-- The loader checks the same once the command is taken as before. -/
theorem State.takeCommand_refusal (p : Nat) (im : Image) (c : Section) :
    s.takeCommand.refusal p im c = s.refusal p im c := by
  have hd : ∀ f : Fld, f.off < 0x10000 → f.lo < 32 → s.takeCommand.getF pgDEV f = s.getF pgDEV f :=
    fun f => s.takeCommand_getF_low _ f (by decide)
  have ht : ∀ f : Fld, f.off < 0x10000 → f.lo < 32 → s.takeCommand.getF pgTMB f = s.getF pgTMB f :=
    fun f => s.takeCommand_getF_low _ f (by decide)
  have hh : ∀ f : Fld, s.takeCommand.getF pgHIF f = s.getF pgHIF f := fun f => s.takeCommand_getF_high _ f (by decide)
  have hp : ∀ f : Fld, s.takeCommand.getF pgPH f = s.getF pgPH f := fun f => s.takeCommand_getF_high _ f (by decide)
  have hf : ∀ f : Fld, f.off < 0x10000 → f.lo < 32 → s.takeCommand.getF pgFUSE f = s.getF pgFUSE f :=
    fun f => s.takeCommand_getF_low _ f (by decide)
  have hr : s.takeCommand.partRuns = s.partRuns := by
    funext q
    simp only [State.partRuns, State.takeCommand_prtState]
  simp only [State.refusal, State.loaderChecks, State.checkUnsigned, State.checkSignature, State.checkGrade, State.checkTiles,
    State.checkGovernor, State.checkTime, State.checkTopology, State.checkLedger, State.checkLease, State.checkSds,
    State.checkTables, State.checkRoutes, State.checkCells, State.reservedCells, State.image, State.part, State.takeCommand_parts,
    State.checkManifest, State.manifestBad, State.checkHostRuns, State.checkDetour,
    State.tableSets, State.ownDetours, State.otherHolders, State.holdsImage, hr, State.tilesOf, State.ownsRegion,
    State.roundLen, State.linkState, State.peerChip, State.imgKeyGood, State.fuse, State.getB, hh, hp, State.takeCommand_mgmt,
    State.takeCommand_chipId, State.takeCommand_prt, State.takeCommand_getL, State.takeCommand_sds, State.takeCommand_leaseOf,
    State.takeCommand_leases, State.takeCommand_prtState, State.takeCommand_hasTime, s.takeCommand_arg 6 (by decide),
    hd Reg.DEV_CAPS_GRADE (by decide) (by decide), hf Reg.FUSE_SEC_IMG_SIGN_REQ (by decide) (by decide), ht Reg.TMB_GEAR_TOP (by decide) (by decide)]
  rfl

end Sys2Proof.Machine
end

