-- ==== Sys2Proof/Tests/Slice0.lean ====
section
/-! SUPPORT. Tests: encodings refused, slot words written out from the tables of 04, values worked out by hand from the rules, and,
for every statement of Certificates/Slice0/Obligations.lean that has hypotheses, a state and operands that meet them. -/

set_option Elab.async false

namespace Sys2Proof.Tests
open Sys2Proof.Machine

/-! Encodings that do not exist are refused. -/

/-- A shift by an immediate of 32 (04 R103). -/
theorem test_wf_shift : (ScOp.alui .shli 1 2 32).WF = false ∧ (ScOp.alui .shli 1 2 31).WF = true := by decide

/-- PAIR 15 is reserved (04 R109). -/
theorem test_wf_mcset_reserved : (ScOp.mcset 1 .pair (.imm 15)).WF = false := by decide

/-- An immediate wider than its field (04 R109). -/
theorem test_wf_mcset_high : (ScOp.mcset 1 .scpi (.imm 2)).WF = false ∧ (ScOp.mcset 1 .scpi (.imm 1)).WF = true := by decide

/-- A field that takes no S register (04 R109). -/
theorem test_wf_mcset_reg : (ScOp.mcset 1 .pair (.reg 3)).WF = false := by decide

/-- Rows beyond the Tally file (04 R113). -/
theorem test_wf_rows :
    (MxOp.mxstream false false false 63 1 0 0 0).WF = false ∧ (MxOp.tclr 63 1).WF = false ∧
    (MxOp.tload 63 1 0 0 false).WF = false ∧ (MxOp.tdrain 63 1 0 0 false false 0).WF = false ∧
    (MxOp.tclr 63 0).WF = true := by decide

/-- A part that a conversion does not have (04 R117). -/
theorem test_wf_vcvt : (VxOp.vcvt 1 2 0 .f32bf16 2 0).WF = false := by decide

/-- A bundle with one such operation. -/
theorem test_wf_bundle : (Bundle.mk .nop .nop (.tclr 63 1) .nop).WF = false ∧ (Bundle.mk .nop .nop .nop .nop).WF = true := by
  decide

/-! Slot words, each written out from its table and the worked examples of the manual. -/

/-- AADDI A2, A2, 64 (04, worked example of one bundle). -/
theorem test_decode_aaddi : decodeSc (0x4000_0000 + 0x0200_0000 + 0x0040_0000 + 0x0004_0000 + 0x40) = .ok (.aaddi 2 2 64) := by
  decide

/-- FILL through handle 5 at A2, DN3 units of S9, with post-increment: [27:22], [21:18], [17:14], [13:9], [8] (04 Table 10). -/
theorem test_decode_fill :
    decodeDm (0x2 * 2 ^ 28 + 5 * 2 ^ 22 + 2 * 2 ^ 18 + 3 * 2 ^ 14 + 9 * 2 ^ 9 + 2 ^ 8) = .ok (.fill 5 2 3 9 true) := by decide

/-- MXSTREAM plane 0, CHK, PI, M 64, t0 0, handle 5, A2, MC1 (04, worked example). -/
theorem test_decode_mxstream : decodeMx 0x27F8_0291 = .ok (.mxstream false true true 63 0 5 2 1) := by decide

/-- VADD V4, V4, V5, P0, RNE (04, worked example). -/
theorem test_decode_vadd : decodeVx 0x0511_4000 = .ok (.vf .vadd 4 4 5 0 .rne) := by decide

/-- LUI has [22:20] zero (04 Table 3); a word that breaks this has REASON 2 (04 Table 17). -/
theorem test_decode_lui_must_be_zero : decodeSc (0x3 * 2 ^ 28 + 2 ^ 20) = .ill 2 := by decide

/-! Values worked out in the manual. -/

/-- Two E4M3 products on the grid 2^-18 (02, worked example). -/
theorem test_e4m3_products :
    (product (.ofF e4m3 0x3C 0 false) (.ofF e4m3 0x41 0 false) (-18)).sum = 884736 ∧
    (product (.ofF e4m3 0xB6 0 false) (.ofF e4m3 0x04 0 false) (-18)).sum = -1792 := by decide

/-- T = 882,944 drained to BF16, RNE and RTZ, with INX (02, worked example). -/
theorem test_drain_bf16 :
    bf16.round .rne false false 882944 (-18) = (0x4058, fINX) ∧ bf16.round .rtz false false 882944 (-18) = (0x4057, fINX) := by
  decide

/-- The stamp of SEED 0, STEP 0, tile 0, stream 0, index 0 (02 Table 5). -/
theorem test_stamp : stamp 0 0 0 0 0 = 0xEA3D57A8 := by decide +kernel

/-- Check bits and single and double upsets (05, worked example of R148). -/
theorem test_check_bits :
    eccCheck 0xFFFFFFFF = 0x03 ∧ eccRead (storeWord 0xFFFFFFFF false false ^^^ 2 ^ 17) = .correctable 0xFFFFFFFF ∧
    eccRead (storeWord 0xFFFFFFFF false false ^^^ 3) = .uncorrectable ∧
    storeWord 0 true false = 0x7F * 2 ^ 32 := by decide +kernel

/-- A unit and a word of it, by row and by column (05, worked example). -/
theorem test_row_and_column :
    bankGroup 0xA474 = 8 * 1 + 4 ∧ sheetRow (sheetOf 0xA474) 14 = 0xA474 ∧
    wordKey true 0xA474 18 = wordKey false (sheetRow (sheetOf 0xA474) 18) 14 := by decide

/-- A run of 32 parcels from slot 27,500 with second-delivery slots (06 R164, example). -/
theorem test_slot_of : slotOf true 27500 31 = 27533 ∧ slotOf true 27500 2 = 27502 ∧ slotOf true 27500 3 = 27504 := by decide

/-- CRC-32C of "123456789" (07 R209: the polynomial's check value). -/
theorem test_crc32c : crc32c [0x31, 0x32, 0x33, 0x34, 0x35, 0x36, 0x37, 0x38, 0x39] = 0xE3069283 := by decide +kernel

/-! Small states. -/

/-- Partition 0 runs rounds of 1,000 beats, and tile 0 with it. -/
def running : State :=
  ((State.reset.setPrtState 0 prtRUNNING).setF (pgPRT 0) Reg.PRT_ROUND_LEN_BT 1000).setSeqState 0 seqRUNNING

/-- Tile 0 with some registers set. -/
def tile0 : Tile :=
  { Tile.reset with
    arch := { Arch.reset with
      sreg := [(1, .ok 5), (2, ⟨7, true⟩), (3, .ok 0x80000000)]
      areg := [(1, .ok 4), (2, ⟨0x2000, true⟩)]
      dn := [(1, 3), (2, 4096), (3, 4097)] }
    seq := { Seq.reset with pc := 20, beat := 100 } }

def mid : State := running.setTile 0 tile0

/-- The same with the sequencer of tile 0 as given. -/
def withSeq (q : Seq) : State := running.setTile 0 { tile0 with seq := q }

/-- The same with one operation in flight, in beat b. -/
def flying (f : Flight) (b : Nat) : State :=
  running.setTile 0 { tile0 with flight := [f], seq := { Seq.reset with pc := 20, beat := b } }

/-- Handle h of tile t: units base up to bound, every right. -/
def withHandle (s : State) (t h base bound : Nat) : State :=
  s.setFs (pgTIL t) [(Reg.TIL_HND_VALID.at h, 1), (Reg.TIL_HND_BASE.at h, base), (Reg.TIL_HND_BOUND.at h, bound),
    (Reg.TIL_HND_RIGHTS.at h, 255), (Reg.TIL_HND_OWNER.at h, 0x200)]

/-- Wheel 0 of tile t, the same four ports in each beat. -/
def withPorts (s : State) (t p0 p1 p2 p3 : Nat) : State :=
  (List.range 4).foldl (fun s i => s.setFs (pgTIL t)
    [(Reg.TIL_WHEEL_EVEN_P0.at i, p0), (Reg.TIL_WHEEL_EVEN_P1.at i, p1), (Reg.TIL_WHEEL_EVEN_P2.at i, p2),
     (Reg.TIL_WHEEL_EVEN_P3.at i, p3), (Reg.TIL_WHEEL_ODD_P0.at i, p0), (Reg.TIL_WHEEL_ODD_P1.at i, p1),
     (Reg.TIL_WHEEL_ODD_P2.at i, p2), (Reg.TIL_WHEEL_ODD_P3.at i, p3)]) s

/-- The words of unit u, clean. -/
def unitOf (u : Nat) (l : List Word) : Map (BitVec 40) := l.zipIdx.map (fun e => (32 * u + e.2, storeWord e.1 false false))

/-- Thirty-two words. -/
def someWords : List Word := (List.range 32).map (fun i => BitVec.ofNat 32 (i * 0x9E3779B1 + 1))

/-- Handle 1 of tile 0 holds units 0 to 255, unit 4 some words; the wheel gives a port to DMV, SCR, CLR and FDP. -/
def stored : State :=
  (withPorts (withHandle mid 0 1 0 0x100) 0 cDMV cSCR cCLR cFDP).modTile 0 (fun x => { x with spd := unitOf 4 someWords })

/-- As `stored`, with changes to tile 0. -/
def storedWith (f : Tile → Tile) : State := stored.modTile 0 f

/-! The hypotheses of the statements, met. -/

/-- ScalarResults, AddressAndPredicateResults, MatrixConfigResults, ScalarFrame, ZeroRegisters: an idle tile in mid-round; a
shift by 31, a field of an MC register, and one that takes an S register. -/
theorem test_meets_ScalarResults :
    (mid.tileRuns 0 = true ∧ (mid.tile 0).seq.wait = 0 ∧ (mid.tile 0).seq.beat + 0 < mid.lastBeat 0) ∧
    (mid.tile 0).flight = [] ∧ (31 : BitVec 14).toNat < 32 ∧ mcImmReserved .pair 8 = false ∧ mcImmHigh .pair 8 = false ∧
    McField.d.sAllowed = true := by decide +kernel

/-- A tile in the last beat but one of its round is still ready for an operation of one beat. -/
theorem test_meets_Ready_last :
    let s := withSeq { Seq.reset with pc := 20, beat := 998 }
    Idle s 0 0 ∧ ¬ Idle s 0 1 := by
  dsimp only [Idle, Ready]; decide +kernel

/-- SequencerResults: a legal LOOP, a back-edge with passes left and without, a WAIT that ends in the round and one whose
beats pass. -/
theorem test_meets_SequencerResults :
    (let s := stored.setF (pgTIL 0) Reg.TIL_SEQ_CODE_HANDLE 1
     Ready s 0 0 ∧ loopBad { s.tile 0 with seq := (s.tile 0).seq.settle } (s.streamEnd 0) 5 = false) ∧
    (let s := withSeq { Seq.reset with pc := 21, beat := 100, loops := [⟨18, 20, 2⟩] }
     s.tileRuns 0 = true ∧ (s.tile 0).seq.loops = [⟨18, 20, 2⟩] ∧ (s.tile 0).seq.pc = 20 + 1 ∧ 1 < 2) ∧
    (let s := withSeq { Seq.reset with pc := 21, beat := 100, loops := [⟨18, 20, 1⟩] }
     s.tileRuns 0 = true ∧ (s.tile 0).seq.loops = [⟨18, 20, 1⟩] ∧ (s.tile 0).seq.pc = 20 + 1) ∧
    (let s := withSeq { Seq.reset with pc := 21, beat := 990, wait := 9 }
     s.tileRuns 0 = true ∧ (s.tile 0).seq.beat + (s.tile 0).seq.wait ≤ s.lastBeat 0 ∧ 0 < (s.tile 0).seq.wait ∧
     (s.tile 0).seq.beat ≠ s.lastBeat 0) := by dsimp only [Ready]; decide +kernel

/-- EndOfRound: tile 0 in the last beat of its round, the only one that runs. -/
theorem test_meets_EndOfRound :
    let s := withSeq { Seq.reset with pc := 21, beat := 999 }
    s.tileRuns 0 = true ∧ s.partOfTile 0 = some 0 ∧ (s.tile 0).seq.wait = 0 ∧ (s.tile 0).seq.beat = s.lastBeat 0 ∧
    (s.tile 0).flight.any (fun f => decide ((s.tile 0).seq.beat < flightLast f)) = false ∧
    (∀ w ∈ s.tilesOf 0, w ≠ 0 → s.seqState w ≠ seqRUNNING ∧ s.seqState w ≠ seqSTOPPED) := by decide +kernel

/-- ZeroRegisters, ScalarLoad: a load in the beat of its write. -/
theorem test_meets_LoadWrite :
    let s := flying (.ld 98 0 ⟨1, 2, false⟩ (.ok 9)) 100
    s.tileRuns 0 = true ∧ (s.tile 0).flight = [.ld 98 0 ⟨1, 2, false⟩ (.ok 9)] ∧ (s.tile 0).seq.beat = 98 + 2 ∧
    98 + 2 ≠ s.lastBeat 0 := by decide +kernel

/-- A bundle of one ALU operation and one of each other slot's. -/
def oneBundle : Bundle := ⟨.alu .add 1 2 3, .nop, .tclr 1 2, .vi .viadd 1 2 3 0⟩

/-- Handle 1 is the code handle, and `oneBundle` stands at PC 20: unit 2, words 16 to 19. -/
def coded : State :=
  let s := (stored.setF (pgTIL 0) Reg.TIL_SEQ_CODE_HANDLE 1).modTile 0 (fun x =>
    { x with spd := (encodeBundle oneBundle).zipIdx.map (fun e => (2 * 32 + 16 + e.2, storeWord e.1 false false)) })
  { s with nt := 10000 * nsUnit }

/-- BundleIssues. -/
theorem test_meets_BundleIssues :
    let x := coded.tile 0
    let hd := coded.handle 0 (coded.getF (pgTIL 0) Reg.TIL_SEQ_CODE_HANDLE)
    let p := hd.base + x.seq.pc / 8
    Ready coded 0 0 ∧ x.seq.loops = [] ∧ coded.upsets = [] ∧
    coded.beatNt ((coded.partOfTile 0).getD 0) x.seq.beat ≤ coded.nt ∧ hd.valid = true ∧ hd.closed = false ∧ p < hd.bound ∧
    p < 0x8000 ∧ oneBundle.sc ≠ .endOp ∧
    bundleFault x (coded.streamEnd 0) x.seq.beat (encodeSc oneBundle.sc, encodeDm oneBundle.dm, encodeMx oneBundle.mx, encodeVx oneBundle.vx) = none ∧
    oneBundle.WF = true ∧
    (∀ k, k < 4 → x.spd.get (p * 32 + 4 * (x.seq.pc % 8) + k) 0 = storeWord ((encodeBundle oneBundle).getD k 0) false false) := by
  dsimp only [Ready]; decide +kernel

/-- IllegalBundleStops: DN3 holds 4,097, DN2 4,096. -/
theorem test_meets_IllegalBundleStops :
    mid.tileRuns 0 = true ∧ (mid.tile 0).seq.wait = 0 ∧ 4096 < (mid.tile 0).arch.rdDN 3 ∧ ¬ 4096 < (mid.tile 0).arch.rdDN 2 := by
  decide +kernel

/-- ScalarStore: through handle 1, A1 = 4, IMM12 7. -/
theorem test_meets_ScalarStore :
    let x := stored.tile 0
    let a := x.arch
    let off := ((a.rdA 1).v.toNat + 4 * (7 : BitVec 12).toNat) / 4 * 4
    let hd := stored.handle 0 1
    let p := hd.phys (off / 128)
    Idle stored 0 1 ∧ stored.upsets = [] ∧ (a.rdA 1).p = false ∧ hd.check p rDMW none = .pass ∧
    stored.fabWinner 0 (x.seq.beat + 1) (bankGroup p) [] = none ∧ stored.inspMode 0 1 = .off ∧
    stored.getB (pgTIL 0) Reg.BLK_ERR_INJ_ARM = false := by
  dsimp only [Idle, Ready]; decide +kernel

/-- ScalarLoad: the last word of unit 4, offset 4 + 4 · 158 = 636. -/
theorem test_meets_ScalarLoad :
    let x := stored.tile 0
    let a := x.arch
    let off := ((a.rdA 1).v.toNat + 4 * (158 : BitVec 12).toNat) / 4 * 4
    let hd := stored.handle 0 1
    let p := hd.phys (off / 128)
    Idle stored 0 1 ∧ stored.upsets = [] ∧ (a.rdA 1).p = false ∧ hd.check p rDMR none = .pass ∧
    stored.fabWinner 0 (x.seq.beat + 1) (bankGroup p) [] = none ∧ stored.inspMode 0 1 = .off ∧
    x.spd.get (wordKey hd.col p (off / 4 % 32)) 0 = storeWord (someWords.getD 31 0) false false := by
  dsimp only [Idle, Ready]; decide +kernel

/-- DataMover: a free mover and room for a TRANS of bytes; DN2 holds 4,096, the most a run may have, in a round long enough. -/
theorem test_meets_DataMover :
    let s := mid.setF (pgPRT 0) Reg.PRT_ROUND_LEN_BT 300000
    Ready s 0 (2 * 128 + 2) ∧ (s.tile 0).dmvFree ≤ (s.tile 0).seq.beat ∧ (s.tile 0).arch.rdDN 2 ≤ 4096 ∧
    Ready s 0 (64 * (s.tile 0).arch.rdDN 2 + 2) := by
  dsimp only [Ready]; decide +kernel

/-- FillOneUnit: unit 4 of handle 1; DN4 holds its reset value 1. -/
theorem test_meets_FillOneUnit :
    let x := stored.tile 0
    let a := x.arch
    let hd := stored.handle 0 1
    let p := hd.phys (a.rdA 1).v.toNat
    Idle stored 0 1 ∧ x.dmvFree ≤ x.seq.beat ∧ a.rdDN 4 = 1 ∧ stored.upsets = [] ∧ (a.rdA 1).p = false ∧
    hd.check p rDMW none = .pass ∧ stored.fabWinner 0 (x.seq.beat + 1) (bankGroup p) [] = none ∧
    1 ≤ stored.portsOf 0 (x.seq.beat + 1) cDMV ∧ hd.col = false ∧ stored.inspMode 0 1 = .off ∧
    stored.getB (pgTIL 0) Reg.BLK_ERR_INJ_ARM = false := by
  dsimp only [Idle, Ready]; decide +kernel

/-- MatrixOperations: free paths, rows at the end of the Tally file, and room for the longest of each. -/
theorem test_meets_MatrixOperations :
    let s := mid.setF (pgPRT 0) Reg.PRT_ROUND_LEN_BT 10000
    let x := s.tile 0
    x.weightFree ≤ x.seq.beat ∧ x.entryFree ≤ x.seq.beat + 2 ∧ x.rowFree ≤ x.seq.beat ∧ rowsBeyond 62 1 = false ∧
    Idle s 0 1 ∧ Ready s 0 ((pairWgt 0).planeUnits + (pairWgt 0).planeScales) ∧ Ready s 0 (streamReads (pairAct 0) 2) ∧
    Ready s 0 (9 + 8 * 63) ∧ isLedger 6 = true ∧ (1 : BitVec 6).toNat % 2 = 1 := by
  dsimp only [Idle, Ready]; decide +kernel

/-- A plane load in its last beat, and a row of products in the beat in which it is due. -/
def planeLoad : Flight := .mxload 20 true 1 false ⟨1, 2, false⟩ ⟨1, 2, false⟩ [(0, .ok 5)] []
def dueRow : StreamRow := ⟨3, 33, List.replicate 64 ⟨false, false, false, false, -7⟩, .zero, false⟩
def stream1 : Flight := .mxstream 31 true false 1 3 ⟨1, 2, false⟩ ⟨1, 2, false⟩ (.ok 0) [] [] [dueRow]

/-- MatrixEffects. -/
theorem test_meets_MatrixEffects :
    (let b := flightLast planeLoad
     (flying planeLoad b).tileRuns 0 = true ∧ ((flying planeLoad b).tile 0).flight = [planeLoad] ∧
     ((flying planeLoad b).tile 0).seq.beat = b ∧ b ≠ (flying planeLoad b).lastBeat 0) ∧
    (let s := flying stream1 100
     s.tileRuns 0 = true ∧ (s.tile 0).flight = [stream1] ∧ dueRow.entry = 31 + 2 ∧ dueRow.opened = false ∧
     (s.tile 0).seq.beat = 31 + 69 ∧ 31 + 69 ≠ s.lastBeat 0 ∧ dueRow.cols[63]? = some ⟨false, false, false, false, -7⟩) := by
  decide +kernel

/-- VectorResults: an idle tile, and a part that the conversion has. -/
theorem test_meets_VectorResults :
    Ready mid 0 0 ∧ (mid.tile 0).flight = [] ∧ (3 : BitVec 2).toNat ≤ VCvt.i8f32.maxPart := by
  dsimp only [Ready]; decide +kernel

/-- VectorResultWrites: one state for each kind of result, in the beat in which it is due. -/
theorem test_meets_VectorResultWrites :
    ∀ f ∈ [Flight.vres 5 100 2 [(63, 0xFF, .ok 3)] 3, .pres 5 100 2 0xF 5 true 3, .sres 5 100 2 (.ok 9),
        .vld 98 2 ⟨1, 2, false⟩ 0xFF true [(1, .ok 4)], .vdispatch 95 2 [] 0xFF true (.ok 4) []],
      (flying f 100).tileRuns 0 = true ∧ ((flying f 100).tile 0).flight = [f] ∧ ((flying f 100).tile 0).seq.beat = 100 ∧
      100 ≠ (flying f 100).lastBeat 0 := by decide +kernel

/-- VectorMemoryAndDispatch: room for each, and a capacity of 0, which stands for 65,536. -/
theorem test_meets_VectorMemoryAndDispatch :
    Ready mid 0 2 ∧ Idle mid 0 1 ∧ ((mid.tile 0).arch.rdS 3).p = false ∧ ((mid.tile 0).arch.rdS 3).v.toNat % 65536 = 0 := by
  dsimp only [Idle, Ready]; decide +kernel

/-- ScrubberWork: a write-back, the last step of a repair, a clean unit under the patrol (in mid-group and as the last of a
pass), and the clear engine. -/
theorem test_meets_ScrubberWork :
    (let s := storedWith (fun x => { x with repairs := [.writeBack 4 3], spd := x.spd.put 131 (storeWord 5 false true ^^^ 1) 0 })
     s.hasUse 0 cSCR = true ∧ (s.tile 0).repairs = [.writeBack 4 3] ∧ s.bgBusy 0 (s.tileBeat 0) (bankGroup 4) = false ∧
     eccRead ((s.tile 0).spd.get (32 * 4 + 3) 0) = .correctable 5) ∧
    (let r := Repair.rebuild 2 31 0 2 [(0, .ok 9)] 77 false
     let s := storedWith (fun x => { x with repairs := [r] })
     s.hasUse 0 cSCR = true ∧ (s.tile 0).repairs = [r] ∧ 2 ≤ 2 ∧ 31 < 32 ∧ s.bgBusy 0 (s.tileBeat 0) (bankGroup 2) = false) ∧
    (∀ l ∈ [[(23, 5)], (List.range 24).map (fun g => (g, if g = 23 then bgUnits g - 1 else bgUnits g))],
     let s := (storedWith (fun x => { x with spd := [], patrolNext := 23, patrol := l })).setF (pgTIL 0) (Reg.TIL_HND_VALID.at 1) 0
     let x := s.tile 0
     s.hasUse 0 cSCR = true ∧ x.repairs = [] ∧ x.clear = [] ∧ x.reseal = none ∧ s.unsealedSheets 0 = [] ∧ x.patrolNext < 24 ∧
     x.patrol.get 23 0 < bgUnits 23 ∧ s.bgBusy 0 (s.tileBeat 0) 23 = false ∧
     (∀ k, k < 32 → eccRead (x.spd.get (32 * bgUnit 23 (x.patrol.get 23 0) + k) 0) = .good)) ∧
    (let s := storedWith (fun x => { x with clear := [⟨some 3, [(4, 5), (9, 12)], [1]⟩, ⟨none, [(2, 4)], []⟩] })
     s.hasUse 0 cCLR = true ∧ (s.tile 0).clear = [⟨some 3, [(4, 5), (9, 12)], [1]⟩, ⟨none, [(2, 4)], []⟩] ∧
     s.bgBusy 0 (s.tileBeat 0) (bankGroup 4) = false ∧ (∀ z ∈ [(9, 12), (2, 4)], 4 < z.1 ∨ z.2 ≤ 4)) := by
  decide +kernel

/-- TileEvents: a wheel change whose beat has come, a tenant's finished clear, and the last unit of the scratchpad. -/
theorem test_meets_TileEvents :
    (let s := stored.setFs (pgTIL 0) [(Reg.TIL_WSEQ_VALID.at 2, 1), (Reg.TIL_WSEQ_START8.at 2, 12), (Reg.TIL_WSEQ_WHEEL.at 2, 3)]
     s.getB (pgTIL 0) (Reg.TIL_WSEQ_VALID.at 2) = true ∧ s.wheelTakes 0 2 = true ∧ s.wheelTakes 0 3 = false ∧ s.wheelAt 0 (8 * 12) = 3 ∧
     (∀ z, (s.tile 0).wheelStart = some z → z < s.getF (pgTIL 0) (Reg.TIL_WSEQ_START8.at 2)) ∧
     8 * s.getF (pgTIL 0) (Reg.TIL_WSEQ_START8.at 2) ≤ (s.tile 0).seq.beat) ∧
    ((storedWith (fun x => { x with clear := [⟨some 3, [], [1, 63]⟩] })).tile 0).clear.find? (fun j => j.tenant == some 3) =
      some ⟨some 3, [], [1, 63]⟩ ∧ (∀ h ∈ [1, 63], h < 64) ∧
    spdUnits - 1 < spdUnits := by decide +kernel

/-- The frames over every command: each command has a next state. -/
theorem test_meets_Frames :
    (∃ u, exec (.lui 0 1 5) mid = .next u) ∧ opTile (.lui 0 1 5) = some 0 ∧ (∃ u, exec (.scrubberPortUse 0) mid = .next u) ∧
    Comp.parts ∉ mayChange (.lui 0 1 5) := ⟨⟨_, rfl⟩, rfl, ⟨_, rfl⟩, by decide⟩

/-! Interchange and links. -/

/-- A timetable word (06 Table 1), for a run of units of a handle. -/
def ttWord (kind postcode dst hops lastLen tile handle off run start : Nat) : BitVec 128 :=
  BitVec.ofNat 128 (start + run * 2 ^ 24 + kind * 2 ^ 36 + dst * 2 ^ 40 + postcode * 2 ^ 56 + hops * 2 ^ 72 + lastLen * 2 ^ 78 +
    tile * 2 ^ 84 + handle * 2 ^ 92 + off * 2 ^ 98)

/-- A landing word (06 Table 2), for WRITE or ADD. -/
def ldWord (action off run lastLen : Nat) : BitVec 128 :=
  BitVec.ofNat 128 (20 + run * 2 ^ 24 + 0x0123 * 2 ^ 38 + 2 * 2 ^ 54 + action * 2 ^ 58 + 100 * 2 ^ 62 + lastLen * 2 ^ 89 +
    1 * 2 ^ 102 + off * 2 ^ 108)

/-- One for PARK into cells from 10 on. -/
def ldPark : BitVec 128 :=
  BitVec.ofNat 128 (20 + 1 * 2 ^ 24 + 0x0123 * 2 ^ 38 + 2 * 2 ^ 54 + 2 * 2 ^ 58 + 100 * 2 ^ 62 + 10 * 2 ^ 94)

/-- Port 1 is logical port 2 of partition 0, UP and resumed; its first 40 phases are leased; cells 0 to 999. -/
def fabric : State :=
  let s := withPorts stored 0 cFDP cFAR cFDP cFAR
  let s := (s.setL 1 Reg.ICL_STATE_STATE lnkUP).modLink 1 (fun l => { l with resumed := [0] })
  let s := s.setF 0x023 (Reg.ICH_PH_LIMIT_CELL.at 0) 1000
  { s with ich := { s.ich with names := [(2, 129)], lease := (List.range 40).map (fun k => (64 + k, 4)) } }

/-- Entry 5 of the timetable (0) or the landing table (1) of logical port 2. -/
def withEntry (table : Nat) (w : BitVec 128) : State :=
  { fabric with ich := { fabric.ich with tables := [(tableKey table 2 0 5, w)] } }

def withTt := withEntry 0
def withLd := withEntry 1

/-- A scheduled parcel of partition 0 under POSTCODE 0x0123, SEQ 0. -/
def parcel (slot hops len offset : Nat) (dst : Nat := 0) : Frame :=
  ⟨⟨1, 0, false, false, 1, false, false, true, false, 0x0123, 3, dst, 0, slot, hops, 0, len, offset⟩,
    (List.range 128).map (fun k => BitVec.ofNat 32 (k * 77 + 5))⟩

def put1 : BitVec 128 := ttWord ttPUT 0x0123 9 1 31 0 1 0 4 20
def putSlot50 : BitVec 128 := ttWord ttPUT 0x0123 9 1 31 0 1 0 4 50

/-- SourceDeparture: the last parcel of a run of four. -/
theorem test_meets_SourceDeparture :
    let s := withTt put1
    let en := TtEntry.ofBits put1
    Departs s 0 2 5 3 en 1 ∧ LinkTakes s 0 1 (slotOf (s.sds 1) en.start 3) ∧ en.kind ∈ [ttPUT, ttGETQ, ttTALLY] ∧
    en.manifest = false ∧ s.tileInReset en.tile = false := by
  dsimp only [Departs, LinkTakes, Calm]; decide +kernel

/-- SuppressedDeparture, its three causes: phase 50 is not leased; slot 256 lies past a round of 1,000 beats; entry 3 has the
slot already. -/
theorem test_meets_SuppressedDeparture :
    let late := ttWord ttPUT 0x0123 9 1 31 0 1 0 4 256
    let fate := fun (s : State) (w : BitVec 128) => s.slotFate 0 2 1 5 (slotOf (s.sds 1) (TtEntry.ofBits w).start 0)
    let both := { fabric with ich := { fabric.ich with tables := [(tableKey 0 2 0 3, put1), (tableKey 0 2 0 5, put1)] } }
    (∀ e ∈ [(withTt putSlot50, putSlot50), (withTt late, late), (both, put1)],
      let en := TtEntry.ofBits e.2
      e.1.upsets = [] ∧ (e.1.liveTt 0 2).find? (fun z => z.1 == 5) = some (5, en) ∧ e.1.physOf 0 (e.1.gen 0) 2 = some 1 ∧
      0 < en.run ∧ e.1.ttActive 0 en = true ∧ en.kind ∈ [ttPUT, ttGETQ, ttTALLY]) ∧
    fate (withTt putSlot50) putSlot50 = .unleased ∧ fate (withTt late) late = .pastEnd ∧ fate both put1 = .conflict := by
  decide +kernel

/-- A GETR entry that reads the requests of cell 10, and an FWD entry of cells 10 and on. -/
def getr : BitVec 128 := ttWord ttGETR 0x0123 9 1 31 0 1 10 4 20
def fwd : BitVec 128 :=
  BitVec.ofNat 128 (20 + 4 * 2 ^ 24 + 8 * 2 ^ 36 + 9 * 2 ^ 40 + 0x0123 * 2 ^ 56 + 3 * 2 ^ 72 + 31 * 2 ^ 78 + 2 * 2 ^ 84 +
    10 * 2 ^ 88 + 2 * 2 ^ 105)

/-- GetrDeparture: cell 10 FULL. -/
theorem test_meets_GetrDeparture_full :
    let s := (withTt getr).setCell 10 ⟨.full, some (parcel 4 0x11 128 0)⟩
    let en := TtEntry.ofBits getr
    Departs s 0 2 5 0 en 1 ∧ LinkTakes s 0 1 (slotOf (s.sds 1) en.start 0) ∧ en.kind = ttGETR ∧
    s.tileInReset en.tile = false ∧ en.cellR + 0 / 128 = 10 ∧ s.cell 10 = ⟨.full, some (parcel 4 0x11 128 0)⟩ := by
  dsimp only [Departs, LinkTakes, Calm]; decide +kernel

/-- GetrDeparture: cell 10 EMPTY. -/
theorem test_meets_GetrDeparture_empty :
    let s := withTt getr
    let en := TtEntry.ofBits getr
    Departs s 0 2 5 0 en 1 ∧ LinkTakes s 0 1 (slotOf (s.sds 1) en.start 0) ∧ en.kind = ttGETR ∧
    s.tileInReset en.tile = false ∧ en.cellR + 0 / 128 = 10 ∧ (s.cell 10).st ≠ .full := by
  dsimp only [Departs, LinkTakes, Calm]; decide +kernel

/-- A stored parcel that fits the FWD entry, and one whose DST does not. -/
def forwarded (dst : Nat) : Frame :=
  let f := parcel 4 0x31 512 0
  { f with hdr := { f.hdr with dst := dst, kind := 2 } }

/-- FwdDeparture: cell 11 holds a parcel that fits, and one that does not. -/
theorem test_meets_FwdDeparture_fits :
    let s := (withTt fwd).setCell 11 ⟨.full, some (forwarded 9)⟩
    let en := TtEntry.ofBits fwd
    let g := forwarded 9
    Departs s 0 2 5 1 en 1 ∧ LinkTakes s 0 1 (slotOf (s.sds 1) en.start 1) ∧ en.kind = ttFWD ∧
    s.cell (en.cellF + 1) = ⟨.full, some g⟩ ∧ g.hdr.dst = en.dst ∧ g.hdr.postcode = en.postcode ∧ g.hdr.kind = en.fkind ∧
    g.hdr.hops / 16 = en.hops ∧ g.hdr.hops % 16 + 1 = en.fhop := by
  dsimp only [Departs, LinkTakes, Calm]; decide +kernel

theorem test_meets_FwdDeparture_other :
    let s := (withTt fwd).setCell 11 ⟨.full, some (forwarded 8)⟩
    let en := TtEntry.ofBits fwd
    Departs s 0 2 5 1 en 1 ∧ LinkTakes s 0 1 (slotOf (s.sds 1) en.start 1) ∧ en.kind = ttFWD ∧
    s.cell (en.cellF + 1) = ⟨.full, some (forwarded 8)⟩ ∧ (forwarded 8).hdr.dst ≠ en.dst := by
  dsimp only [Departs, LinkTakes, Calm]; decide +kernel

/-- The parcel of a run of one, 16 bytes, as it arrives, for this chip and for another. -/
def landing1 : Frame := parcel 20 0x22 16 0
def passing1 : Frame := parcel 20 0x32 16 0 9

theorem landing1_parse : Frame.parse landing1.wire = landing1 := by decide +kernel
theorem passing1_parse : Frame.parse passing1.wire = passing1 := by decide +kernel

/-- ParcelAccepted, for WRITE. -/
theorem test_meets_ParcelAccepted_write :
    let s := withLd (ldWord 0 0 1 0)
    let en := LdEntry.ofBits (ldWord 0 0 1 0)
    let h := (Frame.parse landing1.wire).hdr
    Arrives s 1 landing1.wire 0 2 ∧ landingsOf s 0 1 2 h = [(5, en, 0)] ∧ Lands s 0 1 en 0 h ∧ en.action ≤ 1 ∧
    s.tileInReset en.tile = false := by
  rw [landing1_parse]; dsimp only [Arrives, GoodFrame, Lands]; rw [landing1_parse, crcHolds_wire]; decide +kernel

/-- ParcelAccepted, for an empty PARK cell. -/
theorem test_meets_ParcelAccepted_park :
    let s := withLd ldPark
    let en := LdEntry.ofBits ldPark
    let h := (Frame.parse passing1.wire).hdr
    Arrives s 1 passing1.wire 0 2 ∧ landingsOf s 0 1 2 h = [(5, en, 0)] ∧ Lands s 0 1 en 0 h ∧ en.action = ldPARK ∧
    s.cell (en.cell + 0) = .reset := by
  rw [passing1_parse]; dsimp only [Arrives, GoodFrame, Lands]; rw [passing1_parse, crcHolds_wire]; decide +kernel

/-- ArrivalFaults: no landing entry. -/
theorem test_meets_ArrivalFaults_miss :
    Arrives fabric 1 landing1.wire 0 2 ∧ landingsOf fabric 0 1 2 (Frame.parse landing1.wire).hdr = [] := by
  rw [landing1_parse]; dsimp only [Arrives, GoodFrame]; rw [landing1_parse, crcHolds_wire]; decide +kernel

/-- ArrivalFaults: a landing entry with another postcode, with other hops, and one whose deadline is past. -/
theorem test_meets_ArrivalFaults :
    let h := landing1.hdr
    let covers := fun (s : State) (w : BitVec 128) => Arrives s 1 landing1.wire 0 2 ∧
      landingsOf s 0 1 2 h = [(5, LdEntry.ofBits w, 0)] ∧ (LdEntry.ofBits w).action ≤ 1 ∧
      s.tileInReset (LdEntry.ofBits w).tile = false
    let good := ldWord 0 0 1 0
    let late := (withLd good).passTime (200 * nsUnit)
    (covers (withLd (good + 2 ^ 38)) (good + 2 ^ 38) ∧ h.round = (withLd (good + 2 ^ 38)).round 0 ∧
      (withLd (good + 2 ^ 38)).nt < (withLd (good + 2 ^ 38)).beatNt 0 ((LdEntry.ofBits (good + 2 ^ 38)).deadline 0) ∧
      h.postcode ≠ (LdEntry.ofBits (good + 2 ^ 38)).postcode) ∧
    (covers (withLd (good + 2 ^ 54)) (good + 2 ^ 54) ∧ h.postcode = (LdEntry.ofBits (good + 2 ^ 54)).postcode ∧
      h.hops % 16 ≠ (LdEntry.ofBits (good + 2 ^ 54)).hopsSeen) ∧
    (covers late good ∧ late.beatNt 0 ((LdEntry.ofBits good).deadline 0) ≤ late.nt) := by
  dsimp only [Arrives, GoodFrame]; rw [landing1_parse, crcHolds_wire]
  refine ⟨?_, ?_, ?_⟩ <;> decide +kernel

/-- ArrivalFaults: a SEQ received before. -/
theorem test_meets_ArrivalFaults_repeat :
    let s := (withLd (ldWord 0 0 1 0)).modLink 1 (fun l => { l with sHigh := some 0, sGot := [0] })
    GoodFrame s 1 landing1.wire ∧ landing1.hdr.cls = 0 ∧ landing1.hdr.schedValid landing1.wire.length false = true ∧
    s.getL 1 Reg.ICL_EXR_CTL_MODE = 0 ∧ landing1.hdr.seq ∈ (s.link 1).sGot := by
  dsimp only [GoodFrame]; rw [landing1_parse, crcHolds_wire]; decide +kernel

/-- The landing's parcel waits for its due beat. -/
def waiting (w : BitVec 128) (f : Frame) : State :=
  let s := withLd w
  { s with ich := { s.ich with staged := [⟨0, 0, 2, 5, 0, 0, f⟩] } }

def unit1 : Frame := parcel 20 0x22 128 0

/-- LandingWrite: a run of one parcel of 128 bytes to unit 6. -/
theorem test_meets_LandingWrite :
    let w := ldWord ldWRITE 6 1 7
    let s := waiting w unit1
    let en := LdEntry.ofBits w
    s.upsets = [] ∧ (s.liveLd 0 2 (s.gen 0)).find? (fun q => q.1 == 5) = some (5, en) ∧ s.prtState 0 = prtRUNNING ∧
    0 < en.run ∧ ((s.part 0).decision = true ∨ en.mark = true) ∧ en.action = ldWRITE ∧ (0, 2, 5, 0) ∉ s.ich.faulted ∧
    s.ich.staged.find? (fun k => k.part == 0 && k.bank == s.gen 0 && k.port == 2 && k.entry == 5 && k.i == 0) =
      some ⟨0, 0, 2, 5, 0, 0, unit1⟩ ∧ unit1.hdr.len = 128 ∧ 32 ≤ unit1.data.length ∧
    FabricPasses s ⟨(s.physOf 0 (s.gen 0) 2).getD 2, en.dueOf 0, en.tile, en.handle, en.off + 4 * 0, cFAR, true, none⟩ (en.dueOf 0) ∧
    s.inspMode en.tile en.handle = .off ∧ Calm s (pgTIL en.tile) := by
  dsimp only [FabricPasses, Calm]; decide +kernel

/-- LandingAddAndMiss: an ADD to unit 4, whose words are read clean. -/
theorem test_meets_LandingAdd :
    let w := ldWord ldADD 4 1 7
    let s := waiting w unit1
    let en := LdEntry.ofBits w
    let hd := s.handle en.tile en.handle
    s.upsets = [] ∧ (s.liveLd 0 2 (s.gen 0)).find? (fun q => q.1 == 5) = some (5, en) ∧ s.prtState 0 = prtRUNNING ∧
    0 < en.run ∧ ((s.part 0).decision = true ∨ en.mark = true) ∧ en.action = ldADD ∧ (0, 2, 5, 0) ∉ s.ich.faulted ∧
    s.ich.staged.find? (fun k => k.part == 0 && k.bank == s.gen 0 && k.port == 2 && k.entry == 5 && k.i == 0) =
      some ⟨0, 0, 2, 5, 0, 0, unit1⟩ ∧ unit1.hdr.len = 128 ∧ 32 ≤ unit1.data.length ∧ unit1.hdr.poison = false ∧
    (let acc := fun write => (⟨(s.physOf 0 (s.gen 0) 2).getD 2, en.dueOf 0, en.tile, en.handle, en.off, cFAR, write, none⟩ : FabAcc)
     FabricPasses s (acc false) (en.dueOf 0) ∧ FabricPasses s (acc true) (en.dueOf 0 + 2)) ∧
    s.inspMode en.tile en.handle = .off ∧ Calm s (pgTIL en.tile) ∧
    (∀ k, k < 32 → (s.tile en.tile).spd.get (wordKey hd.col (hd.phys en.off) k) 0 =
      storeWord (someWords.getD k 0) false false) := by
  dsimp only [FabricPasses, Calm]; decide +kernel

/-- LandingAddAndMiss: a PARK whose parcel never came. -/
theorem test_meets_LandingMiss :
    let s := withLd ldPark
    let en := LdEntry.ofBits ldPark
    s.upsets = [] ∧ (s.liveLd 0 2 (s.gen 0)).find? (fun q => q.1 == 5) = some (5, en) ∧ s.prtState 0 = prtRUNNING ∧
    0 < en.run ∧ ((s.part 0).decision = true ∨ en.mark = true) ∧ 1 < en.action ∧ (0, 2, 5, 0) ∉ s.ich.faulted ∧
    s.ich.staged = [] := by decide +kernel

/-- DrainAndReplay: a drain that ends 5 ns on, and a pending replay whose RETRY run has slot 22. -/
theorem test_meets_DrainAndReplay :
    let retry : BitVec 128 := BitVec.ofNat 128 (20 + 10 * 2 ^ 24 + ttRETRY * 2 ^ 36)
    let s := ((withTt retry).setF pgICH (Reg.ICH_SWAP_DRAINING.at 0) 1).modPart 0 (fun p => { p with swapNt := some (5 * nsUnit) })
    let s := s.modLink 1 (fun l => { l with sBuf := [unit1], pend := [⟨0, 4⟩], sNext := 1 })
    s.getB pgICH (Reg.ICH_SWAP_DRAINING.at 0) = true ∧ (s.part 0).swapNt = some (5 * nsUnit) ∧
    (s.link 1).pend.find? (s.replayFits 1 22) = some ⟨0, 4⟩ ∧ s.replayOf 1 ⟨0, 4⟩ = some unit1 ∧ Calm s (linkPage 1) := by
  dsimp only [Calm]; decide +kernel

/-! Link symbols and packets. -/

/-- A control symbol, with its CRC. -/
def sym (ty low : Nat) (body : List Byte) : BitVec 128 := BitVec.ofNat 128 (leNat (symWire ty low body))

/-- An unscheduled packet of n words on VC 0. -/
def packet (kind dst seq n : Nat) : Frame :=
  ⟨⟨1, 1, false, false, kind, false, false, false, false, 0, 5, dst, 0, 9, 15, seq, 4 * n, 8⟩, List.replicate n 7⟩

def scheduled (seq : Nat) : Frame :=
  let f := parcel 20 0x22 128 0
  { f with hdr := { f.hdr with seq := seq } }

/-- Port 1 in a state of its link, with packets of both classes held. -/
def linked (st : Nat) : State :=
  (fabric.setL 1 Reg.ICL_STATE_STATE st).modLink 1 (fun l =>
    { l with sBuf := [scheduled 3, scheduled 4], sNext := 5, uBuf := [packet 1 0 7 4, packet 1 0 8 4], uNext := 9,
             peer := [(0, 100)], ackS := 3, ackU := 2, lastGood := 5, lossNt := some 9, stateNt := 3 })

/-- ControlSymbols: each kind of symbol, and what each NAK of a kind asks for: SEQ 4 is held, 2 is not, 9 was never sent. -/
theorem test_meets_ControlSymbols :
    let s := linked lnkUP
    let l := s.link 1
    let seq := fun (n : Nat) => symField (sym 2 0 (beBytes n 2 ++ beBytes 0 2)) 2 3
    GoodSym s 1 (sym 1 0 (beBytes 4 2)) 1 ∧ GoodSym s 1 (sym 1 8 (beBytes 8 2)) 1 ∧ s.carriesFrames 1 = true ∧
    (∀ n ∈ [4, 2, 9], GoodSym s 1 (sym 2 0 (beBytes n 2 ++ beBytes 0 2)) 2 ∧
      symLow (sym 2 0 (beBytes n 2 ++ beBytes 0 2)) ≠ 8 ∧ symField (sym 2 0 (beBytes n 2 ++ beBytes 0 2)) 4 5 = 0) ∧
    32768 ≤ seqDiff (seq 4) l.sNext ∧ l.sBuf.find? (fun f => f.hdr.seq == seq 4) = some (scheduled 4) ∧ l.pend = [] ∧
    32768 ≤ seqDiff (seq 2) l.sNext ∧ (∀ f ∈ l.sBuf, f.hdr.seq ≠ seq 2) ∧ seqDiff (seq 9) l.sNext < 32768 ∧
    GoodSym s 1 (sym 2 8 (beBytes 8 2 ++ beBytes 0 2)) 2 ∧ symLow (sym 2 8 (beBytes 8 2 ++ beBytes 0 2)) = 8 ∧
    32768 ≤ seqDiff (seq 8) l.uNext ∧ (∃ f ∈ l.uBuf, f.hdr.seq = seq 8) ∧
    GoodSym s 1 (sym 3 0 (beBytes 150 4)) 3 ∧ GoodSym s 1 (sym 8 0 []) 8 := by
  dsimp only [GoodSym]; decide +kernel

/-- ControlSymbols: a NAK of the trial parcel in CAL and in HOLD, and one in UP of a parcel the exerciser sent. -/
theorem test_meets_ControlSymbols_trial :
    (∀ st ∈ [lnkCAL, lnkHOLD],
      let s := (linked st).modLink 1 (fun l => { l with calSent := some (scheduled 4) })
      let y := sym 2 0 (beBytes 4 2 ++ beBytes 0 2)
      GoodSym s 1 y 2 ∧ (s.linkState 1 = lnkCAL ∨ s.linkState 1 = lnkHOLD) ∧ symLow y ≠ 8 ∧ Calm s (linkPage 1) ∧
      (s.link 1).calSent = some (scheduled 4) ∧ (scheduled 4).hdr.seq = symField y 2 3) ∧
    ((linked lnkUP).setL 1 Reg.ICL_EXR_CTL_MODE 3).exercises 1 = true := by
  dsimp only [GoodSym, Calm]; decide +kernel

/-- TrainingSymbols: TRAIN in TRAIN and in HOLD, calibration reports of both kinds in CAL. -/
theorem test_meets_TrainingSymbols :
    (∀ st ∈ [lnkTRAIN, lnkHOLD], GoodSym (linked st) 1 (sym 5 2 (beBytes 0x0123 2 ++ [3, 1] ++ beBytes 8 2)) 5 ∧
      ((linked st).linkState 1 = lnkTRAIN ∨ (linked st).linkState 1 = lnkHOLD)) ∧
    (∀ k ∈ [1, 2], ∀ n ∈ [1022, 1023],
      let s := (linked lnkCAL).modLink 1 (fun l => { l with calT3 := some 700, rplTrials := n })
      GoodSym s 1 (sym 6 k (beBytes 300 8)) 6 ∧ symLow (sym 6 k (beBytes 300 8)) = k ∧
      (s.linkState 1 = lnkCAL ∨ s.linkState 1 = lnkHOLD) ∧ (s.link 1).calT3 = some 700 ∧ (s.link 1).rplTrials = n) := by
  dsimp only [GoodSym]; decide +kernel

/-- LinkLoss: HOLD received in UP, and a lane of sub-trunk TP0.2, port 17. -/
theorem test_meets_LinkLoss :
    (linked lnkUP).linkState 1 = lnkUP ∧ GoodSym (linked lnkUP) 1 (sym 7 1 []) 7 ∧
    (fabric.setL 17 Reg.ICL_STATE_STATE lnkUP).linkState 17 = lnkUP ∧ 17 = 15 + 4 * (0 : Fin 8).val + 2 := by
  dsimp only [GoodSym]; decide +kernel

/-- LinkTimers: ACKs owed in both classes, and a packet served. -/
theorem test_meets_LinkTimers :
    let s := (linked lnkUP).modLink 1 (fun l => { l with pool := [⟨1, 0, 2, packet 1 0 2 4, false, true, none⟩] })
    s.carriesFrames 1 = true ∧ Calm s (linkPage 1) ∧ 0 < (s.link 1).ackS ∧ 0 < (s.link 1).ackU ∧
    (s.link 1).pool.find? (·.done) = some ⟨1, 0, 2, packet 1 0 2 4, false, true, none⟩ := by
  dsimp only [Calm]; decide +kernel

/-- FailedFrames: sixteen bytes, which are no frame; the gap is of SEQ 3 and 5, with 6 the highest received, or long before it, and the
unscheduled class asked just now or never. -/
theorem test_meets_FailedFrames :
    let s := fun (h : Nat) (t : Option Nat) => (linked lnkUP).modLink 1 (fun l => { l with
      sHigh := some h, sSpan := h + 1, sExp := 3, sGot := [0, 1, 2, 4, 6], nakNt := t })
    (∀ e ∈ [(6, none), (500, some 0)], (s e.1 e.2).linkState 1 = lnkUP ∧ ((s e.1 e.2).link 1).framing = false ∧
      Calm (s e.1 e.2) (linkPage 1) ∧ (s e.1 e.2).getL 1 Reg.ICL_EXR_CTL_MODE ≠ 3) ∧
    (List.replicate 16 (0 : Byte)).length < 32 ∧ 3 ∈ ((s 6 none).link 1).missing ∧ 5 ∈ ((s 6 none).link 1).missing ∧
    ((s 500 (some 0)).link 1).missing.length ≤ 1024 ∧ 0 ≤ (s 500 (some 0)).nt ∧ (s 500 (some 0)).nt < 0 + 2000 * nsUnit := by
  dsimp only [Calm]; decide +kernel

/-- UnscheduledSend: a replay that fits, and a first packet that has credit. -/
theorem test_meets_UnscheduledSend :
    let q : Queued := ⟨packet 1 0 0 4, none⟩
    let s := (linked lnkUP).modLink 1 (fun l => { l with queue := [q] })
    let b := (linked lnkUP).modLink 1 (fun l => { l with uBack := [packet 1 0 8 4] })
    s.carriesFrames 1 = true ∧ Calm s (linkPage 1) ∧ (s.link 1).uBack = [] ∧ s.nextPacket 1 3 = some q ∧
    b.carriesFrames 1 = true ∧ Calm b (linkPage 1) ∧ (b.link 1).uBack = [packet 1 0 8 4] ∧ (packet 1 0 8 4).flits ≤ 3 ∧
    b.flitsFree 1 (packet 1 0 8 4).flits = true := by
  dsimp only [Calm]; decide +kernel

/-- Port 1 expects SEQ 4 and has room for one packet on VC 0. -/
def receiving : State := fabric.modLink 1 (fun l => { l with uExp := 4, lim := [(0, 61)], rcv := [(0, 60)] })

theorem packet_parse : Frame.parse (packet 1 0 4 4).wire = packet 1 0 4 4 ∧
    Frame.parse (packet 1 3 4 4).wire = packet 1 3 4 4 ∧ Frame.parse (packet 1 0 5 4).wire = packet 1 0 5 4 := by
  decide +kernel

/-- UnscheduledReceive: for this chip, for chip 3 by its own port, and out of order. -/
theorem test_meets_UnscheduledReceive :
    PacketTaken receiving 1 (packet 1 0 4 4).wire ∧ (packet 1 0 4 4).hdr.dst = receiving.chipId ∧
    PacketTaken receiving 1 (packet 1 3 4 4).wire ∧ (packet 1 3 4 4).hdr.hopsLeft ≠ 0 ∧
    (∃ y, receiving.route (packet 1 3 4 4).hdr.dst = .port y) ∧
    GoodFrame receiving 1 (packet 1 0 5 4).wire ∧ (packet 1 0 5 4).hdr.cls = 1 ∧
    (packet 1 0 5 4).hdr.unschValid (packet 1 0 5 4).wire.length (packet 1 0 5 4).data = true ∧
    (packet 1 0 5 4).hdr.seq ≠ (receiving.link 1).uExp ∧ (receiving.link 1).nakNt = none ∧ Calm receiving (linkPage 1) := by
  dsimp only [PacketTaken, GoodFrame, Calm]
  rw [packet_parse.1, packet_parse.2.1, packet_parse.2.2, crcHolds_wire, crcHolds_wire, crcHolds_wire]
  exact ⟨by decide +kernel, by decide +kernel, by decide +kernel, by decide +kernel, ⟨2, by decide +kernel⟩, by decide +kernel⟩

/-- A window on handle 1 of tile 0, 1,024 bytes from unit 2. -/
def windowed : State :=
  fabric.setFs 0x023 [(Reg.RWT_VALID.at 3, 1), (Reg.RWT_RD.at 3, 1), (Reg.RWT_WR.at 3, 1), (Reg.RWT_HANDLE.at 3, 1),
    (Reg.RWT_OFF.at 3, 2), (Reg.RWT_SIZE.at 3, 64), (Reg.RWT_EXPIRY_HI.at 3, 1), (Reg.RWT_TMASK.at 3, 0xFF),
    (Reg.RWT_TARGET.at 3, 0x77)]

/-- A request for window ROUND 0x77 that asks for, or brings, n words, and the window it matched. -/
def request (kind n : Nat) (first : Word) (win : Option WinEntry := none) : PoolPkt :=
  ⟨4, 0, 1, ⟨⟨1, 1, false, false, kind, false, false, false, false, 0, 5, 0, 0x77, 9, 15, 3, 4 * n, 8⟩,
    first :: List.replicate (n - 1) 0⟩, false, false, win⟩

/-- The window of `windowed` as a request keeps it, and that a request of `windowed` matches it. -/
def win3 : WinEntry := ⟨0, 1, 2, 64⟩

theorem test_windowOf : (windowed.windowOf (request 1 4 7).frame.hdr).1 = some win3 ∧
    (fabric.windowOf (request 1 4 7).frame.hdr).1 = none := by decide +kernel

def asked (s : State) (k : PoolPkt) : State := s.modLink 1 (fun l => { l with pool := [k] })

/-- WindowRequests: a WRITE of 16 bytes at byte 128 of the window, and a READ of the window's last 896 bytes. -/
theorem test_meets_WindowRequests :
    ∀ e ∈ [(1, (7 : Word), 16, rFAW), (3, 896, 896, rFAR)],
      let k := request e.1 4 e.2.1 (some win3)
      let s := asked windowed k
      let h := k.frame.hdr
      let lo := 128 * win3.off + 16 * h.offset
      s.upsets = [] ∧ s.waiting selfPort e.1 = none ∧ s.waiting 1 e.1 = some k ∧ k.win = some win3 ∧
      s.partInReset (h.postcode / 2 ^ 14) = false ∧ s.tileInReset win3.tile = false ∧ 16 * h.offset + e.2.2.1 ≤ 16 * win3.size ∧
      (if h.kind = 3 then (k.frame.data.headD 0).toNat else h.len) = e.2.2.1 ∧ h.poison = false ∧ e.2.2.1 % 16 = 0 ∧
      s.windowBarred win3.tile win3.handle lo (lo + e.2.2.1) e.2.2.2 = false := by decide +kernel

/-- A WRITEC that no window allows; one the chip made for itself; and one for a partition in reset. -/
theorem test_meets_WindowRequests_refused :
    let k := request 2 4 7
    let s := asked fabric k
    let own := fabric.modLink selfPort (fun l => { l with pool := [k] })
    let r : State := { s with mgmt := { s.mgmt with resets := [.part 0] } }
    s.upsets = [] ∧ s.waiting 1 2 = some k ∧ k.win = none ∧ s.partInReset (k.frame.hdr.postcode / 2 ^ 14) = false ∧
    own.waiting selfPort 2 = some k ∧ r.waiting 1 2 = some k ∧ r.partInReset (k.frame.hdr.postcode / 2 ^ 14) = true ∧
    (∃ y, s.route k.frame.hdr.src = .port y) :=
  ⟨by decide +kernel, by decide +kernel, by decide +kernel, by decide +kernel, by decide +kernel, by decide +kernel, by decide +kernel,
    4, by decide +kernel⟩

/-- A job on unit 4 of handle 1, whole. -/
def job (kind n : Nat) : WinJob := ⟨1, 4, (request kind n 7).frame, 0, 1, 512, 128, 0, []⟩
def working (kind n : Nat) : State :=
  let s := withPorts windowed 0 cWRD cWWR cFDP cFAR
  { s with ich := { s.ich with windows := [job kind n] } }

/-- WindowCompletion: a READ of a unit read clean, and a WRITE. -/
theorem test_meets_WindowCompletion :
    (∀ e ∈ [(3, 4), (1, 32)], let s := working e.1 e.2
      s.ich.windows = [job e.1 e.2] ∧ s.inspMode 0 1 = .off ∧ s.upsets = [] ∧ Calm s (pgTIL 0) ∧
      (∀ write, s.windowPort 0 write = true) ∧
      s.bgBusy 0 (s.tileBeat 0) (bankGroup ((s.handle 0 1).phys (512 / 128))) = false) ∧
    (job 3 4).byte % 128 = 0 ∧ (job 3 4).len = 128 ∧ (job 3 4).moved = 0 ∧ (job 3 4).buf = [] ∧
    (withPorts (working 3 4) 0 cDMV cSCR cCLR cDMV).windowPort 0 false = false ∧
    (∃ y, (working 3 4).route (job 3 4).frame.hdr.src = .port y) ∧
    (∀ k, k < 32 → ((working 3 4).tile 0).spd.get
      (wordKey ((working 3 4).handle 0 1).col (((working 3 4).handle 0 1).phys (512 / 128)) k) 0 =
        storeWord (someWords.getD k 0) false false) ∧
    32 ≤ (job 1 32).frame.data.length ∧ (job 1 32).frame.hdr.poison = false := by
  dsimp only [Calm]
  and_intros <;> first | decide +kernel | exact ⟨4, by decide +kernel⟩

/-- Responses: RDATA and CPL to the request with tag 9 on port 7, the only part of its operation or one of two, and a message. -/
theorem test_meets_Responses :
    ∀ e ∈ [(4, 32), (5, 4), (6, 4)],
      let k : PoolPkt := { request e.1 e.2 3 with frame := { (request e.1 e.2 3).frame with
        hdr := { (request e.1 e.2 3).frame.hdr with hops := 143 } } }
      let part : Request := ⟨9, 5, 0, 32, none⟩
      let s := (asked fabric k).modLink 7 (fun l => { l with requests := [⟨8, 5, 0, 32, none⟩, part] })
      let two := s.modLink 9 (fun l => { l with requests := [⟨9, 6, 0, 32, none⟩] })
      s.waiting selfPort e.1 = none ∧ s.waiting 1 e.1 = some k ∧ s.partInReset (k.frame.hdr.postcode / 2 ^ 14) = false ∧
      s.requestOf k.frame.hdr = some (7, part) ∧ s.operation k.frame.hdr.slot = [part] ∧
      two.waiting 1 e.1 = some k ∧ two.requestOf k.frame.hdr = some (7, part) ∧
      (∃ q ∈ two.operation k.frame.hdr.slot, q ≠ part ∧ q.answer = none) ∧
      k.frame.hdr.round ≠ 0xA00 ∧ k.frame.hdr.round ≠ 0xB00 ∧ (k.frame.hdr.round = clerkTarget → s.mgmt.clerkUp = false) := by
  decide +kernel

/-- Port 1 may train, and has heard its peer: chip 2's port 0, as the board wires it, or chip 5's. -/
def training (st tries : Nat) (peer : Nat) : State :=
  let s := ((linked st).setL 1 Reg.ICL_CTL_EN 1).setF pgDEV Reg.DEV_CHIP_ID_SET 1
  s.modLink 1 (fun l => { l with train := some ⟨peer, 0, 1, false, 4⟩, tries := tries, latTrials := 1024, rplTrials := 1024 })

def clerk (s : State) : State := { s with mgmt := { s.mgmt with clerkUp := true } }

/-- LinkTraining and CalibrationComplete. -/
theorem test_meets_LinkTraining :
    (∀ st ∈ [lnkDOWN, lnkFAILED], (training st 0 2).linkState 1 = st ∧ (training st 0 2).mayTrain 1 = true) ∧
    (training lnkTRAIN 1 2).linkState 1 = lnkTRAIN ∧ (training lnkTRAIN 1 2).mgmt.clerkUp = false ∧
    ((training lnkTRAIN 1 2).link 1).train = some ⟨2, 0, 1, false, 4⟩ ∧ (clerk (training lnkTRAIN 1 2)).wiredRight 1 2 0 = true ∧
    (clerk (training lnkTRAIN 1 5)).mgmt.clerkUp = true ∧ (clerk (training lnkTRAIN 1 5)).wiredRight 1 5 0 = false ∧
    ((training lnkTRAIN 2 2).link 1).tries < 3 ∧ 3 ≤ ((training lnkTRAIN 3 2).link 1).tries ∧
    (training lnkHOLD 1 2).linkState 1 = lnkHOLD ∧ ((training lnkHOLD 1 2).link 1).lossNt = some 9 ∧
    (training lnkCAL 1 2).linkState 1 = lnkCAL ∧ 1024 ≤ ((training lnkCAL 1 2).link 1).latTrials ∧
    1024 ≤ ((training lnkCAL 1 2).link 1).rplTrials := by decide +kernel

/-- LinkControl: a link out of use, one in use whose phases a running partition leases, and one that no one leases; the expert
key open; ICL_VC words at the edges of their rule. -/
theorem test_meets_LinkControl :
    let open1 := fabric.setF (linkPage 1) Reg.BLK_EXPERT_KEY_OPEN 1
    let free : State := { fabric with ich := { fabric.ich with lease := [] } }
    (linked lnkDOWN).linkState 1 = lnkDOWN ∧ (linked lnkUP).linkState 1 = lnkUP ∧
    open1.getB (linkPage 1) Reg.BLK_EXPERT_KEY_OPEN = true ∧ fabric.getB (linkPage 1) Reg.BLK_EXPERT_KEY_OPEN = false ∧
    fabric.leasedByHolder 1 = true ∧ free.leasedByHolder 1 = false ∧ (0x30400000 : BitVec 32).toNat / 2 ^ 28 ≠ 0 ∧
    bits (33 + 33 * 65536) 12 0 = 33 ∧ bits (33 + 33 * 65536) 28 16 = 33 ∧ bits (32 + 33 * 65536) 12 0 = 32 := by
  decide +kernel

theorem gfMul_zero (a : Nat) : gfMul a 0 = 0 := by
  have h : ∀ n a, gfMulN a 0 n = 0 := by
    intro n
    induction n with
    | zero => intro a; rfl
    | succ n ih => intro a; simp [gfMulN, ih]
  exact h 10 a

theorem gfEval_zeros (p : List Nat) (n x : Nat) : gfEval (p ++ List.replicate n 0) x = gfEval p x := by
  have h : ∀ n, (List.replicate n 0).foldr (fun c v => Nat.xor c (gfMul x v)) 0 = 0 := by
    intro n
    induction n with
    | zero => rfl
    | succ n ih => rw [List.replicate_succ, List.foldr_cons, ih, gfMul_zero]; rfl
  unfold gfEval
  rw [List.foldr_append, h]

/-- Symbols sent first that are zero do not count. -/
theorem rsSyndromes_zeros (n : Nat) (l : List Nat) : rsSyndromes (List.replicate n 0 ++ l) = rsSyndromes l := by
  unfold rsSyndromes
  rw [List.reverse_append, List.reverse_replicate]
  exact List.map_congr_left (fun j _ => gfEval_zeros _ _ _)

/-- Two message symbols and their parity, the last n symbols wrong. -/
def shortWord : List Nat := [5, 700] ++ rsParity [5, 700]
def hit (n : Nat) : List Nat := shortWord.zipIdx.map (fun e => if 32 ≤ e.2 + n then Nat.xor e.1 (37 * e.2 % 1023 + 1) else e.1)

/-- The symbols of a polynomial with the roots α^0 to α^28 and not α^29. -/
def nearWord : List Nat := ((List.range 29).foldl (fun g j => gfProd g [gfPow 2 j, 1]) [1]).reverse

/-- What the decoder answers (07 R204, R205): up to 15 symbols are put right, and a word that no codeword is near is lost. -/
theorem test_rs_decode :
    rsDecode shortWord = some (shortWord, 0) ∧ rsDecode (hit 1) = some (shortWord, 1) ∧ rsDecode (hit 15) = some (shortWord, 15) ∧
    rsDecode nearWord = none := by decide +kernel

/-- CodewordsAndExerciser: codewords that decode and one that does not, runs of 14 and 15 lost codewords, a block, mode 5 in DOWN
and in FAILED, and a slot of the exerciser. -/
theorem test_meets_CodewordsAndExerciser :
    let s := fun (n : Nat) => (((linked lnkUP).modLink 1 (fun l => { l with badRun := n, peerLock := true })).setFs (linkPage 1)
      [(Reg.ICL_EXR_CTL_MODE.shift (linkX 1), 3), (Reg.ICL_EXR_SLOTS_FIRST.shift (linkX 1), 4),
       (Reg.ICL_EXR_SLOTS_PERIOD.shift (linkX 1), 3)]).setF pgTMB Reg.TMB_STAT_HOLDOVER 1
    (s 14).linkState 1 ≠ lnkDOWN ∧ (s 14).linkState 1 ≠ lnkFAILED ∧
    ((s 14).link 1).badRun < 15 ∧ 15 ≤ ((s 15).link 1).badRun ∧ (s 15).linkState 1 = lnkUP ∧
    (s 0).exercises 1 = true ∧ (s 0).timedLink 1 = true ∧ (s 0).getL 1 Reg.ICL_EXR_CTL_INJ = 0 ∧
    (s 0).getL 1 Reg.ICL_EXR_SLOTS_FIRST < (7 : BitVec 24).toNat ∧
    ((7 : BitVec 24).toNat - (s 0).getL 1 Reg.ICL_EXR_SLOTS_FIRST) % max 1 ((s 0).getL 1 Reg.ICL_EXR_SLOTS_PERIOD) = 0 ∧
    ((s 0).link 1).sBuf.length < 1024 ∧ Calm (s 0) (linkPage 1) ∧
    (∀ st ∈ [lnkDOWN, lnkFAILED], ((linked st).linkState 1 = lnkDOWN ∨ (linked st).linkState 1 = lnkFAILED) ∧
      ((linked st).setL 1 Reg.ICL_EXR_CTL_MODE 5).getL 1 Reg.ICL_EXR_CTL_MODE = 5) ∧
    2 ^ 58 - 1 < 2 ^ 58 ∧ (List.replicate 20 (⟨true, 2 ^ 128 - 1, 7⟩ : Block)).length = 20 := by
  dsimp only [Calm]; decide +kernel

/-- Its codewords as operands: one received without a wrong symbol, and one lost. -/
theorem test_meets_CodewordReceive_good (z : Nat) :
    ∃ bs, (receiveCodeword z (List.replicate 544 0)).1 = some (0, bs) := by
  have h : rsDecode (List.replicate 544 0) = some (List.replicate 544 0, 0) := by
    unfold rsDecode
    rw [show List.replicate 544 0 = List.replicate 544 0 ++ ([] : List Nat) from (List.append_nil _).symm, rsSyndromes_zeros]
    rfl
  refine ⟨(decodeBlocks z (List.replicate 544 0)).1, ?_⟩
  unfold receiveCodeword
  rw [List.map_replicate, show (BitVec.toNat (0 : BitVec 10)) = 0 from rfl]
  simp only [h]

theorem test_meets_CodewordReceive_lost (z : Nat) :
    (receiveCodeword z (List.replicate 514 0 ++ nearWord.map (BitVec.ofNat 10))).1 = none ∧
    (List.replicate 514 0 ++ nearWord.map (BitVec.ofNat 10)).length = 544 := by
  have h : rsDecode (List.replicate 514 0 ++ nearWord) = none := by
    unfold rsDecode
    rw [rsSyndromes_zeros]
    have k : (rsSyndromes nearWord).all (· == 0) = false ∧ ¬ (rsLocator (rsSyndromes nearWord)).l ≤ 15 := by decide +kernel
    simp only [k.1, k.2, Bool.false_eq_true, if_false, false_and]
  refine ⟨?_, by decide +kernel⟩
  unfold receiveCodeword
  rw [List.map_append, List.map_replicate, show (nearWord.map (BitVec.ofNat 10)).map (·.toNat) = nearWord by decide +kernel]
  rw [show (BitVec.toNat (0 : BitVec 10)) = 0 from rfl]
  simp only [h]

/-! Rounds, time and gears. -/

def section0 : Section :=
  { chip := 0, tiles := 256, streams := [⟨0, 1, 8, []⟩], handles := [], wheels := [], changes := [], timetable := [],
    landing := [], names := [], leases := [], links := [], cellBase := 0, cellLimit := 0, resultCells := [], drainNs := 0, hostRun := [],
    windows := [] }

/-- A job of chips 0 to 2, governed by chip 0, in two districts. -/
def image0 : Image :=
  { raw := [], headerOk := true, badOffset := 0, signer := none, requirements := [], tag := 5, retainTag := 0, roundLen := 1000,
    elastic := false, onDemand := false, fast := 0, slow := 4, governor := 0, deputy := 1, seed := 9, chips := [0, 1, 2],
    entryChips := [], abortNs := 100, districts := [⟨3, [0, 1], 2, [], []⟩, ⟨5, [4], 6, [], []⟩], sections := [section0],
    detours := [], detourBytes := 0 }

/-- Partition 0 holds an image in state st, tile 0 in state ts. -/
def loaded (st ts : Nat) (f : Part → Part := id) (im : Image := image0) : State :=
  let s := ((State.reset.setPrtState 0 st).setF (pgPRT 0) Reg.PRT_ROUND_LEN_BT 1000).setSeqState 0 ts
  let s := (s.setF (pgTIL 0) Reg.TIL_SEQ_CODE_ENTRY 8).setTile 0 tile0
  s.modPart 0 (fun x => f { x with image := some im, nextNt := 100 * nsUnit, nextRound := 7 })

/-- RoundStarts: a running partition whose tiles have halted; a loaded one whose launch NT is set. -/
theorem test_meets_RoundStarts :
    (let s := loaded prtRUNNING seqHALTED
     let x := s.part 0
     (∀ t ∈ s.tilesOf 0, s.seqState t ≠ seqRUNNING) ∧ s.prtState 0 = prtRUNNING ∧ x.launchNt = none ∧
     s.gearDue x.nextNt = false ∧ s.holdoverLong x.nextNt = false ∧ x.fenceAsked = false ∧ x.stopNt = none) ∧
    (let s := loaded prtLOADED seqHALTED (fun x => { x with launchNt := some (7 * nsUnit) })
     (∀ t ∈ s.tilesOf 0, s.seqState t ≠ seqRUNNING) ∧ s.prtState 0 = prtLOADED ∧ (s.part 0).launchNt = some (7 * nsUnit) ∧
     s.gearDue (7 * nsUnit) = false ∧ s.holdoverLong (7 * nsUnit) = false) := by decide +kernel

/-- RoundPositions: a fence asked for, a stop NT at the position, a hold with no replay due, and a launch late in a holdover. -/
theorem test_meets_RoundPositions :
    let at1 := fun (s : State) => s.gearDue (s.part 0).nextNt = false ∧ (s.part 0).launchNt = none ∧
      (∀ t ∈ s.tilesOf 0, s.seqState t ≠ seqRUNNING) ∧ s.holdoverLong (s.part 0).nextNt = false
    let fence := loaded prtRUNNING seqHALTED (fun x => { x with fenceAsked := true })
    let stop := loaded prtRUNNING seqHALTED (fun x => { x with stopNt := some (100 * nsUnit) })
    let hold := loaded prtHOLDING seqHOLDING
    let late := loaded prtLOADED seqHALTED (fun x => { x with launchNt := some (7 * nsUnit) })
    let late : State := { late with time := { late.time with holdNt := some 0 } }
    late.prtState 0 = prtLOADED ∧ (late.part 0).launchNt = some (7 * nsUnit) ∧ late.gearDue (7 * nsUnit) = false ∧
    (late.setF pgTMB Reg.TMB_HOLD_NS_NS 7).holdoverLong (7 * nsUnit) = true ∧
    (∀ t ∈ late.tilesOf 0, late.seqState t ≠ seqRUNNING) ∧ at1 fence ∧ fence.prtState 0 = prtRUNNING ∧ (fence.part 0).fenceAsked = true ∧
    at1 stop ∧ stop.prtState 0 = prtRUNNING ∧ (stop.part 0).fenceAsked = false ∧ (stop.part 0).stopNt = some (100 * nsUnit) ∧
    100 * nsUnit ≤ (stop.part 0).nextNt ∧
    hold.gearDue (hold.part 0).nextNt = false ∧ hold.prtState 0 = prtHOLDING ∧ hold.replayDue 0 = false ∧
    (hold.part 0).fenceAsked = false := by decide +kernel

def armed (s : State) (next at0 cur : Nat) : State :=
  s.setFs pgTMB [(Reg.TMB_GEAR_NEXT, next), (Reg.TMB_GEAR_ARM, 1), (Reg.TMB_GEAR_AT_LO, at0), (Reg.TMB_GEAR_CUR, cur)]

/-- GearChanges: with no partition that runs, and with partition 0's next round start at the boundary; from G3 to the faster G2. -/
theorem test_meets_GearChanges :
    (let s := armed State.reset 2 50 3
     s.getB pgTMB Reg.TMB_GEAR_ARM = true ∧ (∀ p ∈ allParts, s.partRuns p = false) ∧ s.getF pgTMB Reg.TMB_GEAR_NEXT < s.gear ∧
     (15 ∈ s.regions)) ∧
    (let s := armed (loaded prtRUNNING seqHALTED) 4 100 3
     s.getB pgTMB Reg.TMB_GEAR_ARM = true ∧ allParts.find? s.partRuns = some 0 ∧
     s.getF pgTMB Reg.TMB_GEAR_AT_LO * nsUnit + s.getF pgTMB Reg.TMB_GEAR_AT_HI * 2 ^ 32 * nsUnit ≤ (s.part 0).nextNt) := by
  decide +kernel

/-- Domain A in state a with port 1 as its parent, domain B in state b; EXCHANGE 2 was sent at 990 ns. -/
def timed (a b sel : Nat) : State :=
  let s := fabric.setFs pgTMB [(Reg.TMB_STAT_STATE_A, a), (Reg.TMB_STAT_STATE_B, b), (Reg.TMB_STAT_SEL, sel), (Reg.TMB_TOL_NS_NS, 10)]
  let s := { s with nt := 1000 * nsUnit, time := { s.time with domA := { s.time.domA with parent := some 1, integ := 5000 } } }
  s.modLink 1 (fun l => { l with timeA := ⟨3, [(2, 990 * 256)], 4, none, none, none⟩ })

/-- An EXCHANGE of domain A that echoes number 2, and an ANNOUNCE of a good master. -/
def exchange1 : BitVec 128 := sym 4 0 (beBytes (1000 * 256) 5 ++ beBytes (2 * 256) 3 ++ [0x82])
def announce1 : BitVec 128 := sym 4 5 (beBytes 5 2 ++ [3, 9, 0] ++ beBytes 0 4)

/-- TimeExchange: the parent echoes the chip's own, and its offset is within the tolerance. -/
theorem test_meets_TimeExchange :
    let s := timed domTRACKING domNONE 0
    let t := (s.link 1).peerTime false
    let now : Nat := s.nt / 2 ^ 32
    let delay := (diff40 ((now : Int) - ((990 * 256 : Nat) : Int)) - symField exchange1 7 9).tdiv 2
    let off := diff40 ((symField exchange1 2 6 : Int) + delay - (now : Int)) - s.time.frozen
    s.carriesTime 1 = true ∧ t.count < 63 ∧ GoodSym s 1 exchange1 4 ∧ symLow exchange1 % 4 = 0 ∧
    (symLow exchange1 / 8 == 1) = false ∧ (s.dom false).parent = some 1 ∧ s.domState false = domTRACKING ∧
    s.selected false = true ∧ t.sent.find? (fun e => e.1 == symByte exchange1 10 % 16) = some (2, 990 * 256) ∧
    symField exchange1 7 9 ≠ 0xFFFFFF ∧ off.natAbs ≤ 256 * max 1 (s.getF pgTMB Reg.TMB_TOL_NS_NS) ∧ off.natAbs ≤ 256000 := by
  dsimp only [GoodSym]; decide +kernel

/-- DomainStates: an ANNOUNCE with LOCK heard first; a tracking domain with another link to follow, and with none. -/
theorem test_meets_DomainStates :
    (let s := timed domNONE domNONE 0
     GoodSym s 1 announce1 4 ∧ symLow announce1 % 4 = 1 ∧ s.carriesTime 1 = true ∧ (symLow announce1 / 8 == 1) = false ∧
     (symLow announce1 / 4 % 2 == 1) = true ∧ s.domState false = domNONE) ∧
    (let s := timed domTRACKING domNONE 0
     let other := (s.setL 3 Reg.ICL_STATE_STATE lnkUP).modLink 3 (fun l => { l with timeA := { l.timeA with ann := some ⟨true, 5, 2, 1, 0⟩ } })
     s.domState false = domTRACKING ∧ s.bestParent false (fun x => (s.dom false).parent != some x) = none ∧
     other.domState false = domTRACKING ∧ other.bestParent false (fun x => (other.dom false).parent != some x) = some 3 ∧
     s.bestParent false (fun _ => true) = none ∧ other.bestParent false (fun _ => true) = some 3) ∧
    (let s := timed domLOST domNONE 0
     let told : State := { s with time := { s.time with noMaster := true } }
     s.selected false = true ∧ s.domGood false = false ∧ s.bestParent false (fun _ => true) = none ∧
     s.getB pgTMB Reg.TMB_STAT_HOLDOVER = false ∧ s.time.noMaster = false ∧ told.selected false = true ∧
     told.domGood false = false ∧ told.bestParent false (fun _ => true) = none ∧
     told.getB pgTMB Reg.TMB_STAT_HOLDOVER = false ∧ told.time.noMaster = true) := by
  dsimp only [GoodSym]; decide +kernel

/-- No link but port 1 is listed in it, so no other has kept an ANNOUNCE. -/
theorem test_meets_DomainStates_first :
    ∀ y, y ≠ 1 → (((timed domNONE domNONE 0).link y).peerTime false).ann = none := by
  intro y h
  have k : ∀ e ∈ (timed domNONE domNONE 0).links, e.1 = 1 := by decide +kernel
  rw [State.link, Map.get_unlisted _ _ _ (fun e he => by rw [k e he]; exact Ne.symm h)]
  decide

/-- SwitchAndHoldover and ClerkTimeWrites. -/
theorem test_meets_TimeWrites :
    (timed domTRACKING domTRACKING 0).domState true = domTRACKING ∧ (timed domTRACKING domTRACKING 0).selected false = true ∧
    (timed domTRACKING domLOST 0).domState true ≠ domTRACKING ∧ (timed domTRACKING domLOST 0).domState true ≠ domMASTER ∧
    (0x80000000 : BitVec 32).getLsbD 31 = true ∧ (0x80000000 : BitVec 32).getLsbD 30 = false ∧
    (timed domTRACKING domLOST 0).domState false ≠ domMASTER ∧
    (State.reset.setF pgTMB Reg.TMB_STAT_STATE_A domMASTER).domState false = domMASTER ∧
    (∀ p ∈ allParts, (State.reset.setF pgTMB Reg.TMB_STAT_STATE_A domMASTER).partRuns p = false) ∧
    (∃ p ∈ allParts, (loaded prtRUNNING seqRUNNING).partRuns p = true) := by decide +kernel

/-- TimeReads: a PTM dialog on a link that is up. -/
theorem test_meets_TimeReads :
    let s := (State.reset.setF pgTMB Reg.TMB_PTM_CTL_EN 1).setF pgHIF Reg.HIF_STAT_LINKUP 1
    s.getB pgTMB Reg.TMB_PTM_CTL_EN = true ∧ s.dmaOk = true := by decide +kernel

/-- Every region is calibrated for every gear. -/
def calibrated (s : State) : State :=
  (List.range 16).foldl (fun s r => s.setFs (pgRGN r) ((List.range 6).map (fun g => (Reg.RGN_VF_VALID.at g, 1)))) s

/-- A governor at gear g, with gears 0 to 4 allowed. -/
def governing (g : Nat) (im : Image := image0) : State :=
  (calibrated (clerk (loaded prtRUNNING seqRUNNING id im))).setFs pgTMB [(Reg.TMB_GEAR_CUR, g)] |>.setF (pgPRT 0) Reg.PRT_GEARS_SLOW 4

/-- Governor, arming: the lowest and highest gears that can be armed and those beside them; a cancel in time and one too late. -/
theorem test_meets_Governor_arming :
    let top2 := State.reset.setF pgTMB Reg.TMB_GEAR_TOP 2
    let s := armed State.reset 4 50 3
    let late : State := { s with nt := 50 * nsUnit }
    top2.getF pgTMB Reg.TMB_GEAR_TOP = 2 ∧ 2 ≤ (2 : BitVec 3).toNat ∧ (2 : BitVec 3).toNat ≤ 5 ∧ (1 : BitVec 3).toNat < 2 ∧
    5 < (6 : BitVec 3).toNat ∧ s.gearNext = some (50 * nsUnit) ∧ s.nt < 50 * nsUnit ∧ late.gearNext = some (50 * nsUnit) ∧
    50 * nsUnit ≤ late.nt := by decide +kernel

/-- Governor, requests: for a slower gear, on another chip than the governor, and from the host for a faster one. -/
theorem test_meets_Governor_requests :
    (let s := governing 3
     s.mgmt.clerkUp = true ∧ s.governs 0 = true ∧ s.getB pgTMB Reg.TMB_GEAR_ARM = false ∧
     (List.range 6).find? (fun g => decide (s.gear < g) && s.gearValid g) = some 4 ∧ 4 ≤ min 4 s.gearRange.2 ∧
     s.getF pgTMB Reg.TMB_GEAR_TOP ≤ 4) ∧
    (let im := { image0 with governor := 2 }
     let s := governing 3 im
     s.mgmt.clerkUp = true ∧ s.governs 0 = false ∧ s.partRuns 0 = true ∧ s.image 0 = some im ∧
     s.route (s.governorOf 0 im) = .port 1) ∧
    (let s := governing 4
     s.governs 0 = true ∧ s.getB pgTMB Reg.TMB_GEAR_ARM = false ∧ s.gearRange.1 ≤ (1 : BitVec 3).toNat ∧
     (1 : BitVec 3).toNat < s.gear ∧ (1 : BitVec 3).toNat ≤ min 4 s.gearRange.2 ∧ s.gearValid (1 : BitVec 3).toNat = true) := by
  decide +kernel

/-- Governor, polls: NOGO, the last GO, a GO while others are silent, and a governor's poll that came here. -/
theorem test_meets_Governor_polls :
    let poll := fun (s : State) => ({ s with gov := { s.gov with poll := some 1 } } : State)
    let alone := poll (governing 2 { image0 with chips := [0] })
    let both := poll (governing 2)
    let asked := { governing 2 with gov := { (governing 2).gov with asked := some (1, 1) } }
    let slacks : List (BitVec 16) := List.replicate 16 9
    alone.gov.poll = some (1 : BitVec 3).toNat ∧ (poll State.reset).pollGo 1 [] = false ∧ (poll State.reset).gov.poll = some 1 ∧
    alone.pollGo 1 slacks = true ∧ alone.otherChips = [] ∧
    alone.getF pgTMB Reg.TMB_GEAR_TOP ≤ 1 ∧ both.gov.poll = some 1 ∧ both.pollGo 1 slacks = true ∧ 1 ∈ both.otherChips ∧
    both.gov.answers = [] ∧ asked.gov.poll ≠ some (1 : BitVec 3).toNat ∧ asked.gov.asked = some (1, (1 : BitVec 3).toNat) ∧
    (∃ y, asked.route 1 = .port y) := by
  and_intros <;> first | decide +kernel | exact ⟨0, by decide +kernel⟩

/-- Governor: an announcement that two chips have not acknowledged, the Clerk down, and a deputy whose governor's district is gone. -/
theorem test_meets_Governor_silence :
    let told : State := { governing 2 with gov := { (governing 2).gov with announced := some (3, 2 ^ 22), waiting := [1, 2] } }
    let im := { image0 with governor := 4, deputy := 0 }
    let gone := (governing 2 im).modPart 0 (fun x => { x with lost := [4] })
    told.gov.announced = some (3, 2 ^ 22) ∧ told.gov.waiting ≠ [] ∧ told.gov.resent = false ∧ told.mgmt.clerkUp = true ∧
    State.reset.mgmt.clerkUp = false ∧
    gone.image 0 = some im ∧ gone.districtGone 0 im.governor = true ∧ gone.governorOf 0 im = gone.chipId := by
  decide +kernel

/-- RegionMonitors: a slack below a guard of 20 ps, at it, at twice it and 1 ms above that; rails at the droop thresholds and just
above; a skew at and beyond 50 ps; a region of the smallest part and one it does not have. -/
theorem test_meets_RegionMonitors :
    let s0 := (State.reset.setFs (pgRGN 2) [(Reg.RGN_GUARD_MIN_PS, 20), (Reg.RGN_VOLT_MV, 800), (Reg.RGN_DROOP_WARN_MV, 40),
      (Reg.RGN_DROOP_EMERG_MV, 80)]).setF pgDEV Reg.DEV_CAPS_REGIONS 12
    let s : State := { s0 with nt := 1000005 * nsUnit, rmons := [(2, { Rmon.reset with offset := 50, above := some (5 * nsUnit) })] }
    let g := s.getF (pgRGN 2) Reg.RGN_GUARD_MIN_PS
    s.hasRegion 2 = true ∧ s.hasRegion 11 = true ∧ s.hasRegion 12 = false ∧
    (19 : BitVec 16).toNat < g ∧ g ≤ (20 : BitVec 16).toNat ∧ (40 : BitVec 16).toNat ≤ 2 * g ∧ 2 * g < (41 : BitVec 16).toNat ∧
    (s.rmon 2).above = some (5 * nsUnit) ∧ 5 * nsUnit + 1000000 * nsUnit ≤ s.nt ∧
    (760 : BitVec 12).toNat + s.rgnValue 2 Reg.RGN_DROOP_WARN_MV ≤ s.getF (pgRGN 2) Reg.RGN_VOLT_MV ∧
    s.getF (pgRGN 2) Reg.RGN_VOLT_MV < (761 : BitVec 12).toNat + s.rgnValue 2 Reg.RGN_DROOP_WARN_MV ∧
    (720 : BitVec 12).toNat + s.rgnValue 2 Reg.RGN_DROOP_EMERG_MV ≤ s.getF (pgRGN 2) Reg.RGN_VOLT_MV ∧
    s.getF (pgRGN 2) Reg.RGN_VOLT_MV < (721 : BitVec 12).toNat + s.rgnValue 2 Reg.RGN_DROOP_EMERG_MV ∧
    50 < (0xFFCD : BitVec 16).toInt.natAbs ∧ (0xFFCE : BitVec 16).toInt.natAbs ≤ 50 := by decide +kernel

/-! Franks, incidents and recovery. -/

/-- FrankTriggers: HELD 0; HELD 1 with OVERWRITE and without; a match armed by NT and by round; a frank of another timebase cycle
and one of this. -/
theorem test_meets_FrankTriggers :
    let s := loaded prtRUNNING seqRUNNING
    let held := s.setF pgSNP Reg.SNP_STAT_HELD 1
    let overw := held.setF pgSNP Reg.SNP_CTL_OVERWRITE 1
    let nt := s.setFs pgSNP [(Reg.SNP_CTL_ARM, 1), (Reg.SNP_CTL_PIN_IN, 1)]
    let round := s.setFs pgSNP [(Reg.SNP_CTL_ARM, 1), (Reg.SNP_CTL_AT_ROUND, 1), (Reg.SNP_AT_LO, 999)]
    let f : Frank := ⟨1000 * nsUnit, 3, 4⟩
    (∀ g ∈ [f], g.seen ≠ 4) ∧ f.seen = 3 ∧ s.getB pgSNP Reg.SNP_STAT_HELD = false ∧ s.franks.driveUntil = none ∧
    overw.getB pgSNP Reg.SNP_CTL_OVERWRITE = true ∧ held.getB pgSNP Reg.SNP_STAT_HELD = true ∧
    held.getB pgSNP Reg.SNP_CTL_OVERWRITE = false ∧
    nt.getB pgSNP Reg.SNP_CTL_ARM = true ∧ nt.getB pgSNP Reg.SNP_CTL_AT_ROUND = false ∧
    nt.getB pgSNP Reg.SNP_CTL_PIN_IN = true ∧
    round.getF pgSNP Reg.SNP_CTL_AT_PART = 0 ∧ round.getB pgSNP Reg.SNP_CTL_ARM = true ∧
    round.getB pgSNP Reg.SNP_CTL_AT_ROUND = true ∧ round.prtState 0 = prtRUNNING ∧
    round.round 0 = round.getF pgSNP Reg.SNP_AT_HI ∧ round.getF pgSNP Reg.SNP_AT_LO % 2 ^ 24 < round.roundLen 0 ∧
    round.nt ≤ round.beatNt 0 (round.getF pgSNP Reg.SNP_AT_LO % 2 ^ 24) ∧
    (0x10000000 : BitVec 32).getLsbD 31 = false ∧ (0x10000000 : BitVec 32).getLsbD 28 = true := by decide +kernel

/-- FrankLatches: a frank of an armed match that also fences, the earlier of two pending; a page that does not accept it; a snapshot
that is held; and a pin that is driven. -/
theorem test_meets_FrankLatches :
    let s := ((loaded prtRUNNING seqRUNNING).setF pgSNP Reg.SNP_CTL_FENCE 1).setF pgHIF Reg.BLK_CTRL_SNAP_EN 0
    let f : Frank := ⟨1000 * nsUnit, 3, 16⟩
    let s : State := { s with franks := { s.franks with pending := [⟨1008 * nsUnit, 4, 1⟩, f], driveUntil := some (9 * nsUnit) } }
    let held := s.setF pgSNP Reg.SNP_STAT_HELD 1
    firstFrank s.franks.pending = some f ∧ s.frankHeld = false ∧ firstFrank held.franks.pending = some f ∧ held.frankHeld = true ∧
    f.causes.testBit 4 = true ∧ pgMGT ∈ allPages ∧ s.getB pgMGT Reg.BLK_CTRL_SNAP_EN = true ∧
    s.pageOpen pgMGT = true ∧ pgHIF ∈ allPages ∧ s.getB pgHIF Reg.BLK_CTRL_SNAP_EN = false ∧
    s.getB pgSNP Reg.SNP_CTL_FENCE = true ∧ s.prtState 0 = prtRUNNING ∧ s.franks.driveUntil = some (9 * nsUnit) := by
  decide +kernel

/-- An incident of partition 0's round 7. -/
def incident (code : Nat) : Incident := ⟨5000 * nsUnit, 0x101, 0, code, some 7, 17, 3, 4, 5, some 0, some 9, 77, 88⟩

/-- Rounds 6 and 7 are kept; round 7 is under way. -/
def kept (n : Nat) : RoundStart := ⟨n, [(0, tile0.arch)], [], 55, true, 0, 0, 0, 0, none⟩
def inRound7 (st ts : Nat) : State :=
  (loaded st ts (fun x => { x with starts := [kept 7, kept 6], nextRound := 8 })).setF (pgPRT 0) Reg.PRT_ROUND_ROUND 7

/-- IncidentRecords: an aborting incident of a running round, with room in the host ring. -/
theorem test_meets_IncidentRecords :
    let s := ((inRound7 prtRUNNING seqRUNNING).setF pgETU Reg.ETU_CTL_EN 1).setF pgHIF Reg.HIF_STAT_LINKUP 1
    let s : State := { s with incidents := [incident 0x1001] }
    firstIncident s.incidents = some (incident 0x1001, []) ∧ codeClass 0x1001 ≠ 2 ∧ s.recordFull (incident 0x1001) = false ∧
    s.getB pgETU Reg.ETU_CTL_EN = true ∧ s.dmaOk = true ∧
    (s.getF pgETU Reg.ETU_RING_HEAD_RECORDS + 2 ^ 32 - s.getF pgETU Reg.ETU_RING_TAIL_RECORDS) % 2 ^ 32 <
      2 ^ max 6 (min 20 (s.getF pgETU Reg.ETU_RING_SIZE_LOG2)) ∧
    (incident 0x1001).code ∈ abortCodes ∧ (incident 0x1001).part.getD 0 < 4 ∧ s.prtState 0 = prtRUNNING ∧
    s.holdsRound 0 7 = true := by decide +kernel

/-- Notices: of the current epoch for round 7, of an epoch past, RESUME and ROLLCALL. -/
theorem test_meets_Notices :
    let s := inRound7 prtRUNNING seqRUNNING
    let x := s.part 0
    let later := s.setF pgETU (Reg.ETU_RCV_EPOCH.at 0) 4
    (0 : BitVec 16).toNat = s.epoch 0 ∧ s.prtState 0 = prtRUNNING ∧ x.notices = [] ∧ 7 ≠ x.nextRound ∧
    s.holdsRound 0 7 = true ∧ (0 : BitVec 16).toNat < later.epoch 0 ∧ s.partRuns 0 = true ∧
    s.nt ≤ (0 : BitVec 64).toNat * nsUnit := by decide +kernel

/-- RollcallDecision: both districts, half with the anchor, and half without it, on a chip whose Clerk is down; and on one that
governs with chips that are silent. -/
theorem test_meets_RollcallDecision :
    let s := fun (l : List Nat) => (inRound7 prtHOLDING seqHOLDING).modPart 0 (fun x => { x with rollcall := some 5, districts := l })
    (∀ l ∈ [[3, 5], [3], [5]], ((s l).part 0).rollcall = some 5 ∧ (s l).image 0 = some image0 ∧
      (s l).prtState 0 = prtHOLDING ∧ ((s l).part 0).districts = l ∧ (s l).mgmt.clerkUp = false ∧
      (clerk (s l)).mgmt.clerkUp = true) ∧
    (let z := ((s [3]).modPart 0 (fun x => { x with link := true, lossTold := [(1, 2)] }))
     z.silent 0 image0 2 = true ∧ (z.part 0).link = true ∧
      firstLeft image0 (fun c => !z.counted 0 c || (z.part 0).lost.contains c) = z.chipId) ∧ 2 ∈ image0.chips ∧
    image0.districts.length < 2 * [3, 5].length ∧ 2 * [3].length = image0.districts.length ∧
    (image0.districts.map (·.number)).foldl min 0xFFFF ∈ [3] ∧ (image0.districts.map (·.number)).foldl min 0xFFFF ∉ [5] := by
  decide +kernel

/-- ReplayStarts: the start NT that RESUME named is the next position. -/
theorem test_meets_ReplayStarts :
    let s := (inRound7 prtHOLDING seqHOLDING).setF pgETU (Reg.ETU_RCV_ABORT_ROUND.at 0) 6
    let s := s.modPart 0 (fun x => { x with replayAt := some x.nextNt })
    let x := s.part 0
    s.prtState 0 = prtHOLDING ∧ s.replayDue 0 = true ∧ s.gearDue x.nextNt = false ∧ x.fenceAsked = false ∧
    x.starts.find? (fun y => y.round == s.getF pgETU (Reg.ETU_RCV_ABORT_ROUND.at 0)) = some (kept 6) ∧ x.failovers = [] ∧
    s.holdoverLong x.nextNt = false := by
  decide +kernel

/-- ReplayStarts: a replay too late in a holdover. -/
theorem test_meets_ReplayStarts_late :
    let s := (inRound7 prtHOLDING seqHOLDING).setF pgETU (Reg.ETU_RCV_ABORT_ROUND.at 0) 6
    let s := s.setF pgTMB Reg.TMB_HOLD_NS_NS 0
    let s : State := { s with time := { s.time with holdNt := some 0 } }
    s.prtState 0 = prtHOLDING ∧ s.replayDue 0 = true ∧ s.gearDue (s.part 0).nextNt = false ∧ (s.part 0).fenceAsked = false ∧
    s.holdoverLong (s.part 0).nextNt = true := by decide +kernel

/-- ReplayComparison: a replay past its round, and a repeat of a hardware fault in the second attempt. -/
theorem test_meets_ReplayComparison :
    let past := clerk ((inRound7 prtRUNNING seqRUNNING).setFs pgETU
      [(Reg.ETU_RCV_ATTEMPTS.at 0, 1), (Reg.ETU_RCV_ABORT_ROUND.at 0, 6)])
    let f : Fault4 := ⟨0, 0x101, 0, 0x1007, 9, 88⟩
    let again := (clerk ((inRound7 prtHOLDING seqHOLDING).setF pgETU (Reg.ETU_RCV_ATTEMPTS.at 0) 2)).modPart 0
      (fun x => { x with attempt := [f], lastAttempt := [f] })
    past.mgmt.clerkUp = true ∧ past.getF pgETU (Reg.ETU_RCV_ATTEMPTS.at 0) ≠ 0 ∧ past.prtState 0 = prtRUNNING ∧
    past.round 0 ≠ past.getF pgETU (Reg.ETU_RCV_ABORT_ROUND.at 0) ∧
    again.mgmt.clerkUp = true ∧ 2 ≤ again.getF pgETU (Reg.ETU_RCV_ATTEMPTS.at 0) ∧ again.prtState 0 = prtHOLDING ∧
    ((again.part 0).attempt.filter (fun a => (again.part 0).lastAttempt.any (fun b =>
      a.chip == b.chip && a.block == b.block && a.inst == b.inst && a.code == b.code))).find?
        (fun a => repeatOf a.code == .hardware) = some f := by decide +kernel

/-- ReplayComparison: a repeat that is the image's, and a third attempt in which nothing repeats. -/
theorem test_meets_ReplayComparison_fence :
    let f : Fault4 := ⟨0, 0x101, 0, 0x1001, 9, 88⟩
    let again := fun (n : Nat) (l : List Fault4) =>
      (clerk ((inRound7 prtHOLDING seqHOLDING).setF pgETU (Reg.ETU_RCV_ATTEMPTS.at 0) n)).modPart 0
        (fun x => { x with attempt := [f], lastAttempt := l })
    let same := fun (a b : Fault4) => a.chip == b.chip && a.block == b.block && a.inst == b.inst && a.code == b.code
    let kept := fun (s : State) => (s.part 0).attempt.filter (fun a => (s.part 0).lastAttempt.any (same a))
    2 ≤ (again 2 [f]).getF pgETU (Reg.ETU_RCV_ATTEMPTS.at 0) ∧ (again 2 [f]).prtState 0 = prtHOLDING ∧
    (again 2 [f]).mgmt.clerkUp = true ∧ kept (again 2 [f]) = [f] ∧ repeatOf f.code = .image ∧ repeatOf f.code ≠ .hardware ∧
    3 ≤ (again 3 []).getF pgETU (Reg.ETU_RCV_ATTEMPTS.at 0) ∧ (again 3 []).prtState 0 = prtHOLDING ∧ kept (again 3 []) = [] := by
  decide +kernel

/-- Handle 1 of tile 0: units 0x100 to 0x1FF, Class W, shared, valid, its rowsums from unit 0x1000 on. -/
def restored : HandleInit := ⟨0, 1, [0x80000100, 0x200, 0x82000000, 0x1000]⟩

/-- Chip 0 is the spare of district 3, of which chip 1 is lost; chip 2 is the twin of chip 1. -/
def failoverImage : Image :=
  { image0 with
    sections := [section0, { section0 with chip := 1, handles := [restored] }, { section0 with chip := 2, handles := [restored] }]
    districts := [⟨3, [1], 0, [(1, 2)], [(1, [(0, 1)])]⟩, ⟨5, [4], 6, [], []⟩]
    detours := [⟨1, 0, [], [], [], []⟩] }

/-- Failovers: the spare, which also governs, with digests that agree, as the only lost chip and with another one not yet restored; the
swap's NT sent; and the twin. -/
theorem test_meets_Failovers :
    let begun := fun (l : List Failover) (s : State) => s.modPart 0 (fun x => { x with lost := [1], failovers := l })
    let f : Failover := ⟨1, some failoverImage, some 500, true, true, true, false⟩
    let s := clerk (loaded prtHOLDING seqHOLDING id failoverImage)
    let agree : State := begun [f] { s with gov := { s.gov with digests := [⟨0, 1, 0, 0, 77⟩, ⟨0, 1, 2, 0, 77⟩] } }
    let two := agree.modPart 0 (fun x => { x with lost := [1, 7] })
    let twin := s.setF pgDEV Reg.DEV_CHIP_ID_POSITION 2
    s.image 0 = some failoverImage ∧ s.prtState 0 = prtHOLDING ∧ s.mgmt.clerkUp = true ∧
    failoverImage.sections.find? (fun z => z.chip == 1) = some { section0 with chip := 1, handles := [restored] } ∧
    s.isSpareOf 0 1 = true ∧
    failoverImage.detours.find? (fun d => d.lost == 1 && d.chip == s.chipId) = some ⟨1, 0, [], [], [], []⟩ ∧
    s.failoverOf 0 1 = none ∧ agree.failoverOf 0 1 = some f ∧ f.swapAt = some 500 ∧
    s.failoverImage 0 1 = some failoverImage ∧ agree.failoverImage 0 1 = some failoverImage ∧ s.resealed 0 = true ∧
    (restorableOf failoverImage 1).length = 1 ∧
    (failoverImage.districts.find? (fun d => d.chips.contains 1)).map (·.spare) = some s.chipId ∧
    failoverImage.districts.any (fun d => d.twins.contains (1, s.chipId)) = false ∧
    s.keeperOf 0 failoverImage [] = s.chipId ∧ agree.keeps 0 = true ∧ agree.digestsAgree 0 1 failoverImage = true ∧
    (agree.part 0).lost = [1] ∧ 0 < agree.roundLen 0 ∧ agree.gear ≤ 5 ∧ agree.getB pgTMB Reg.TMB_GEAR_ARM = false ∧
    (two.part 0).lost = [1, 7] ∧ two.keeps 0 = true ∧ two.digestsAgree 0 1 failoverImage = true ∧
    (∀ g ∈ (two.part 0).failovers, g.lost = 7 → g.digests = false) ∧
    twin.chipId = 2 ∧ failoverImage.districts.any (fun d => d.twins.contains (1, twin.chipId)) = true := by decide +kernel

/-- Failovers: a spare with a Class W sheet that is not resealed. -/
theorem test_meets_Failovers_unsealed :
    let s := (clerk (loaded prtHOLDING seqHOLDING id failoverImage)).setFs (pgTIL 0)
      [(Reg.TIL_HND_VALID.at 1, 1), (Reg.TIL_HND_BASE.at 1, 0x100), (Reg.TIL_HND_BOUND.at 1, 0x200), (Reg.TIL_HND_CLASS.at 1, 1),
       (Reg.TIL_HND_RSUM.at 1, 0x1000), (Reg.TIL_HND_OWNER.at 1, 0x200)]
    s.resealed 0 = false := by decide +kernel

/-! Host and tenants. -/

/-- Tenant 2 is on, its function exists and the link to the host is up. -/
def tenanted (base : State) : State :=
  let s := (base.setF pgHIF Reg.HIF_STAT_LINKUP 1).setFs (pgIGT 2)
    [(Reg.IGQ_T_CFG_EN, 1), (Reg.IGQ_T_CFG_HWM, 4), (Reg.IGQ_T_CFG_LWM, 2), (Reg.IGQ_T_QUOTA_CELLS, 16),
     (Reg.IGQ_T_MAXLEN_BYTES, 4096), (Reg.IGQ_T_LEASE_HI, 5), (Reg.IGQ_T_SLOTS_COUNT, 2)]
  { s with hif := { s.hif with vfEnable := true, numVfs := 8 } }

def descriptor (addr len : Nat) : List Byte := leBytes addr 8 ++ leBytes len 4 ++ leBytes 1 4 ++ leBytes 5 8 ++ List.replicate 40 7

/-- IngestWrites: a good descriptor that fits, a bad one, one beyond the quota, a replayed partition, a tenant that is off, and
bytes that are no descriptor; and a tenant whose pointers differ. -/
theorem test_meets_IngestWrites :
    let s := tenanted (loaded prtRUNNING seqRUNNING)
    let bad := fun (s : State) (l : List Byte) => s.badDesc 2 (Desc.parse l (s.lbReserves (s.partOfTenant 2))) (leNat (slice l 12 16))
    let small := s.setF (pgIGT 2) Reg.IGQ_T_QUOTA_CELLS 0
    let replayed := s.setF pgHIF (Reg.HIF_RP_CTL_EN.at 0) 1
    let off := s.setF (pgIGT 2) Reg.IGQ_T_CFG_EN 0
    let struck : State := { s with upsets := [.pointer 2] }
    let good := descriptor 0x1000 100
    struck.tenantOn 2 = true ∧ struck.inTeardown 2 = false ∧ bad struck good = none ∧ struck.upsets.any (upPointer 2) = true ∧
    s.upsets = [] ∧ [s, small, replayed, off].map (fun s => (s.vfExists 2, s.dmaOk, s.partOfTenant 2)) = List.replicate 4 (true, true, 0) ∧
    good.length = 64 ∧
    s.getB pgHIF (Reg.HIF_RP_CTL_EN.at 0) = false ∧ replayed.getB pgHIF (Reg.HIF_RP_CTL_EN.at 0) = true ∧
    off.tenantOn 2 = false ∧ s.tenantOn 2 = true ∧ s.inTeardown 2 = false ∧
    (bad s (descriptor 0x1001 100)).isSome = true ∧ bad s good = none ∧ bad small good = none ∧
    (s.tenant 2).occ < 64 ∧ payloadCells 100 ≤ s.freeCells 2 ∧ s.lbReserves 0 = false ∧ ¬ payloadCells 100 ≤ small.freeCells 2 := by
  and_intros <;> decide +kernel

/-- PayloadFetches: a descriptor whose payload is on its way. -/
theorem test_meets_PayloadFetches :
    let d : Desc := ⟨0x1000, 100, 1, 5, [1, 2], 0, [], false, 3⟩
    let s := (tenanted State.reset).modTenant 2 (fun x => { x with fetching := [d] })
    (s.tenant 2).fetching[(0 : BitVec 6).toNat]? = some d ∧ s.dmaOk = true ∧ s.upsets = [] := by decide +kernel

/-- A host-run word for tile 0, handle 1, unit 6, slot 5 of tenant 2. -/
def runWord (result : Bool) (units beat : Nat) : BitVec 128 :=
  BitVec.ofNat 128 ((if result then 2 ^ 127 else 0) + 5 * 2 ^ 101 + 2 * 2 ^ 91 + 1 * 2 ^ 77 + 6 * 2 ^ 58 + (units - 1) * 2 ^ 48 +
    beat * 2 ^ 24 + 1)

def withRun (w : BitVec 128) : State :=
  let s := tenanted (withPorts stored 0 cFAR cFAR cFDP cFDP)
  { s with hif := { s.hif with hostRun := [(3, w)] } }

/-- IngestDistribution. -/
theorem test_meets_IngestDistribution :
    let w := runWord false 1 120
    let s := withRun w
    let h := HostRun.ofBits w
    s.hostRun 3 false = some h ∧ s.prtState h.part = prtRUNNING ∧ s.tileInReset h.tile = false ∧ s.upsets = [] ∧ h.units = 1 ∧
    s.collection h.part (s.round h.part) = none ∧
    FabricPasses s ⟨hostPort, h.beat, h.tile, h.handle, h.off, cFAR, true, some h.tenant⟩ h.beat ∧ s.inspMode h.tile h.handle = .off ∧
    Calm s (pgTIL h.tile) := by
  dsimp only [FabricPasses, Calm]; decide +kernel

/-- A frame of the greatest length, two units. -/
def frameWords : List Word := [128, 1, 0x55, 0x66] ++ List.replicate 28 3

/-- ResultRuns: not delivered before, with the ring open; and delivered. -/
theorem test_meets_ResultRuns :
    let w := runWord true 2 120
    let s := (withRun w).modTile 0 (fun x => { x with spd := unitOf 6 frameWords ++ unitOf 7 someWords })
    let opened := s.setF (pgVF 2) Reg.VF_RR_CTL_EN 1
    let again := opened.modPart 0 (fun x => { x with delivered := [(2, 0, 5)] })
    let h := HostRun.ofBits w
    let hd := opened.handle h.tile h.handle
    (∀ s ∈ [opened, again], s.hostRun 3 true = some h ∧ s.roundRuns h.part = true ∧ s.tileInReset h.tile = false ∧ s.upsets = [] ∧
      s.inspMode h.tile h.handle = .off ∧ s.round h.part = 0) ∧ h.units = 2 ∧
    FabricPasses opened ⟨hostPort, h.beat, h.tile, h.handle, h.off, cFDP, false, some h.tenant⟩ h.beat ∧
    FabricPasses opened ⟨hostPort, h.beat, h.tile, h.handle, h.off + 1, cFDP, false, some h.tenant⟩ (h.beat + 1) ∧
    (∀ k, k < 32 → (opened.tile h.tile).spd.get (wordKey hd.col (hd.phys h.off) k) 0 = storeWord (frameWords.getD k 0) false false ∧
      (opened.tile h.tile).spd.get (wordKey hd.col (hd.phys (h.off + 1)) k) 0 = storeWord (someWords.getD k 0) false false) ∧
    frameWords.getD 1 0 = 1 ∧ 64 ≤ (frameWords.getD 0 0).toNat ∧ (frameWords.getD 0 0).toNat ≤ 128 ∧
    (h.tenant, 0, h.rslot) ∉ (opened.part h.part).delivered ∧ opened.ringOpen h.tenant = true ∧
    (opened.tenant h.tenant).results = [] ∧ (h.tenant, 0, h.rslot) ∈ (again.part h.part).delivered := by
  dsimp only [FabricPasses]
  and_intros <;> decide +kernel

def item : ResultItem := ⟨3, true, 0x1234, 77, 5, [], none⟩

/-- A ring of tenant 2 with one entry posted: a buffer of 64 bytes. -/
def ring (head tail : Nat) : State :=
  let s := (tenanted mid).setFs (pgVF 2) [(Reg.VF_RR_CTL_EN, 1), (Reg.VF_RR_HEAD_COUNT, head), (Reg.VF_RR_TAIL_COUNT, tail),
    (Reg.VF_RR_BASE_LO, 0x10000)]
  let s := s.modTenant 2 (fun x => { x with results := [item] })
  { s with hostMem := [(0x10001, 0x40), (0x10008, 0x40)] }

/-- ResultRingWrites: an entry posted, for a completion and for a frame that fills its buffer; none; a stopped and a closed ring. -/
theorem test_meets_ResultRingWrites :
    let stopped := (ring 0 1).setF (pgVF 2) Reg.VF_RR_STAT_STOPPED 1
    let frame : ResultItem := { item with noframe := false, data := List.replicate 64 7 }
    let full := (ring 0 1).modTenant 2 (fun x => { x with results := [frame] })
    stopped.ringOpen 2 = true ∧ stopped.getV 2 Reg.VF_RR_STAT_STOPPED = 1 ∧ (full.tenant 2).results = [frame] ∧
    full.ringOpen 2 = true ∧ full.rrEmpty 2 = false ∧ (full.rrBuffer 2).2.2 = true ∧
    frame.data.length ≤ (full.rrBuffer 2).2.1 ∧
    let closed := (ring 0 1).setF (pgVF 2) Reg.VF_RR_CTL_EN 0
    ((ring 0 1).tenant 2).results = [item] ∧ (ring 0 1).ringOpen 2 = true ∧ (ring 0 1).getV 2 Reg.VF_RR_STAT_STOPPED = 0 ∧
    (ring 0 1).rrEmpty 2 = false ∧ ((ring 0 1).rrBuffer 2).2.2 = true ∧ item.noframe = true ∧
    (ring 1 1).ringOpen 2 = true ∧ (ring 1 1).rrEmpty 2 = true ∧ (closed.tenant 2).results = [item] ∧ closed.ringOpen 2 = false := by
  decide +kernel

/-- RingControlAndInterrupts: a TAIL that fills the ring exactly, and one past that; a ring to enable; a vector held off and
one pending. -/
theorem test_meets_RingControlAndInterrupts :
    let s := ring 1 1
    let n := fun (v : Nat) => (v + 2 ^ 32 - s.getV 2 Reg.VF_RR_HEAD_COUNT) % 2 ^ 32
    let off := s.setF (pgVF 2) Reg.VF_RR_CTL_EN 0
    let held := (s.modVector 3 4 (fun x => { x with since := some 1000, masked := false })).modVector 0 5 (fun x => { x with pending := true })
    s.vfExists 2 = true ∧ n (s.rrSize 2 + 1) ≤ s.rrSize 2 ∧ s.rrSize 2 < n (s.rrSize 2 + 2) ∧ off.inTeardown 2 = false ∧
    off.getV 2 Reg.VF_RR_CTL_EN = 0 ∧ (held.vector (2 + 1) 4).since = some 1000 ∧ (held.vector (2 + 1) 4).masked = false ∧
    held.dmaOk = true ∧ (held.vector 0 5).pending = true ∧ (s.tenant 2).ringBad = false ∧ s.vfExists (3 - 1) = true ∧
    ((held.modVector 3 7 (fun x => { x with pending := true })).vector 3 7).pending = true := by decide +kernel

/-- ResetsOfTenants: no teardown in progress under a loaded partition; one that is clearing with no tile left to clear. -/
theorem test_meets_ResetsOfTenants :
    let s := tenanted (loaded prtLOADED seqHALTED)
    let clearing := s.modTenant 2 (fun x => { x with teardown := .clearing })
    s.vfExists 2 = true ∧ s.prtState (s.partOfTenant 2) ≠ prtRUNNING ∧ s.prtState (s.partOfTenant 2) ≠ prtHOLDING ∧
    (s.tenant 2).teardown = .none ∧ (clearing.tenant 2).teardown = .clearing ∧
    (∀ e ∈ clearing.tiles, ∀ j ∈ e.2.clear, j.tenant ≠ some 2) := by decide +kernel

/-- TenantConfiguration: HWM 64 over LWM 63, HWM 0, EN of the quota off, no tenant on, and a function that appears. -/
theorem test_meets_TenantConfiguration :
    let s := State.reset
    let busy := tenanted (loaded prtRUNNING seqRUNNING)
    let clearing := s.modTenant 2 (fun x => { x with teardown := .clearing })
    let hwm := fun (v : Nat) => bits v Reg.IGQ_T_CFG_HWM.hi Reg.IGQ_T_CFG_HWM.lo
    let lwm := fun (v : Nat) => bits v Reg.IGQ_T_CFG_LWM.hi Reg.IGQ_T_CFG_LWM.lo
    let v := 64 * 2 ^ Reg.IGQ_T_CFG_HWM.lo + 63 * 2 ^ Reg.IGQ_T_CFG_LWM.lo
    s.inTeardown 2 = false ∧ hwm v = 64 ∧ lwm v = 63 ∧ bits v Reg.IGQ_T_CFG_EN.hi Reg.IGQ_T_CFG_EN.lo = 0 ∧ hwm 0 = 0 ∧
    s.getT 2 Reg.IGQ_T_CFG_EN ≠ 1 ∧ clearing.inTeardown 2 = true ∧ s.tenantsOn = [] ∧ s.anyRuns = false ∧ busy.tenantsOn ≠ [] ∧
    511 < 512 ∧ 511 + 1 ≤ (512 : BitVec 16).toNat ∧ s.vfExists 511 = false ∧ s.selTenant = 0 ∧
    (∀ s ∈ [State.reset, busy, clearing], (s.setF pgIGQ Reg.IGQ_SEL_TENANT 2).selTenant = 2) := by decide +kernel

/-- Letterbook: EN rising, a record under way, and partitions that run no image and one. -/
theorem test_meets_Letterbook :
    let s := State.reset.setF pgHIF Reg.HIF_STAT_LINKUP 1
    let w : State := { s with hif := { s.hif with lbWriting := [⟨List.replicate 130 7⟩] } }
    (0x80000000 : BitVec 32).getLsbD 31 = true ∧ s.getB pgHIF Reg.HIF_LB_CTL_EN = false ∧
    w.hif.lbWriting = [⟨List.replicate 130 7⟩] ∧ w.dmaOk = true ∧ (List.replicate 130 (7 : Byte)).length ≤ w.lbSize ∧
    (loaded prtLOADED seqHALTED).prtState 0 ≤ prtLOADED ∧ prtLOADED < (loaded prtRUNNING seqHALTED).prtState 0 := by
  decide +kernel

/-! Management. -/

/-- A mailbox command waits, with its argument words. -/
def asks (op : Nat) (args : List Nat) (s : State) : State :=
  (s.setFs pgMGT [(Reg.MGT_CMD_GO, 1), (Reg.MGT_CMD_OP, op), (Reg.MGT_CMD_TAG, 0x1234)]).setFs pgMGT
    (args.zipIdx.map (fun e => (Reg.MGT_ARG_WORD.at e.2, e.1)))

/-- The part is ready, the Clerk runs copy A, and the link to the host is up. -/
def ready (s : State) : State :=
  let s := (s.setF pgMGT Reg.MGT_BOOT_READY 1).setF pgHIF Reg.HIF_STAT_LINKUP 1
  { s with mgmt := { s.mgmt with clerkUp := true, runningCopy := some false } }

/-- The module with some of its inputs changed. -/
def withModule (f : Module → Module) (s : State) : State := { s with module := f s.module }

/-- MailboxAnswers: over SMBus at the address of position 0, with main power and without it, and at another address. -/
theorem test_meets_MailboxAnswers :
    (asks 0x01 [] State.reset).asks 0x01 = true ∧ State.reset.module.aux = true ∧ State.reset.module.powered = true ∧
    (0x40 : BitVec 7).toNat = 0x40 + State.reset.module.pos.toNat % 16 ∧ (0x41 : BitVec 7).toNat ≠ 0x40 + State.reset.module.pos.toNat % 16 ∧
    (withModule (fun m => { m with rails := [] }) State.reset).module.powered = false ∧ (0x16 : BitVec 8) ≠ 0x01 ∧
    (asks 0x55 [] State.reset).mailboxWaits = true ∧ (asks 0x55 [] State.reset).mailboxOp ∉ mailboxOps ∧
    (State.reset.setF pgMGT Reg.MGT_RSP_BUSY 1).getB pgMGT Reg.MGT_RSP_BUSY = true ∧
    (∀ op ∈ [0x02, 0x03, 0x10, 0x11, 0x12, 0x13, 0x14, 0x16],
      (asks op [] State.reset).asks op = true ∧ (asks op [] State.reset).isReady = false) := by decide +kernel

/-- HostDumps: an aligned address, a misaligned one, and a link that is down. -/
theorem test_meets_HostDumps :
    ∀ op ∈ [0x02, 0x03],
      let s := asks op [0x40, 0, 64] (ready State.reset)
      let odd := asks op [0x41, 0, 64] (ready State.reset)
      let down := s.setF pgHIF Reg.HIF_STAT_LINKUP 0
      Served s op ∧ s.arg64 0 % 64 = 0 ∧ s.dmaOk = true ∧ s.arg 2 < 2 ^ 32 ∧ Served odd op ∧ odd.arg64 0 % 64 ≠ 0 ∧
      Served down op ∧ down.arg64 0 % 64 = 0 ∧ down.dmaOk = false := by
  dsimp only [Served]; decide +kernel

/-- PartitionSet: region 15 to partition 1, with no image and with one loaded. -/
theorem test_meets_PartitionSet :
    let s := asks 0x10 [0x40000000] (ready State.reset)
    let b := asks 0x10 [0x40000000] (ready (loaded prtLOADED seqHALTED))
    Served s 0x10 ∧ (∀ r, r < 16 → s.partOfRegion r = some 0) ∧ s.holdsImage 0 = false ∧ s.holdsImage 1 = false ∧
    s.getF pgDEV Reg.DEV_CAPS_REGIONS ≤ 16 ∧ s.mgmt.resets = [] ∧ s.arg 0 / 4 ^ 15 % 4 = 1 ∧ 15 ∈ s.regions ∧
    s.ownsRegion 1 15 = false ∧ Served b 0x10 ∧ 15 ∈ b.regions ∧ b.arg 0 / 4 ^ 15 % 4 = 1 ∧ b.ownsRegion 1 15 = false ∧
    b.partOfRegion 15 = some 0 ∧ b.holdsImage 0 = true := by
  dsimp only [Served]; decide +kernel

/-- FieldScan: region 15, a region that the part lacks, and a region in use. -/
theorem test_meets_FieldScan :
    let s := asks 0x16 [0x8000] (ready State.reset)
    let few := s.setF pgDEV Reg.DEV_CAPS_REGIONS 15
    let used := asks 0x16 [0x8000] (ready (loaded prtLOADED seqHALTED))
    Served s 0x16 ∧ s.arg 0 % 65536 = 2 ^ 15 ∧ 15 < s.getF pgDEV Reg.DEV_CAPS_REGIONS ∧ s.partOfRegion 15 = some 0 ∧
    s.holdsImage 0 = false ∧ s.mgmt.resets = [] ∧ Served few 0x16 ∧ few.arg 0 % 65536 = 2 ^ 15 ∧
    few.getF pgDEV Reg.DEV_CAPS_REGIONS ≤ 15 ∧ Served used 0x16 ∧ used.arg 0 % 65536 = 2 ^ 15 ∧
    used.partOfRegion 15 = some 0 ∧ used.holdsImage 0 = true := by
  dsimp only [Served]; decide +kernel

/-- ClerkRestart: two valid copies of one SVN, and none. -/
theorem test_meets_ClerkRestart :
    let with2 := fun (a b : Option ClerkImage) =>
      let s := State.reset.setF pgMGT Reg.MGT_BOOT_STAGE 2
      ({ s with mgmt := { s.mgmt with copyA := a, copyB := b, runningCopy := some true } } : State)
    let s := with2 (some ⟨some 0, 2, []⟩) (some ⟨some 0, 2, []⟩)
    (ready State.reset).mgmt.clerkUp = true ∧ s.mgmt.clerkUp = false ∧ s.mgmt.runningCopy ≠ none ∧
    s.module.flashBoard = false ∧ 2 ≤ s.getF pgMGT Reg.MGT_BOOT_STAGE ∧
    s.mgmt.copyA.filter s.imageValid = some ⟨some 0, 2, []⟩ ∧ s.mgmt.copyB.filter s.imageValid = some ⟨some 0, 2, []⟩ ∧
    (with2 none none).mgmt.copyA.filter (with2 none none).imageValid = none ∧
    ({ (ready State.reset).mgmt with mbxScope := some (Scope.tile 3) } : Mgmt).mbxScope.isSome = true ∧
    ({ (ready State.reset).gov with launching := some ⟨0, 5, [1]⟩ } : Governor).launching.isSome = true := by decide +kernel

/-- An authorisation of one pair, for the nonce 7. -/
def auth (word key : Nat) : FuseAuth := ⟨0, 7, key, [(word, 5)]⟩

/-- Fuses: words at the edges of the table; an authorisation that passes, one whose key does not, one of a word that no command
may blow; and a partition that runs. -/
theorem test_meets_Fuses :
    let s := asks 0x21 [0x100, 0, 124] (ready (State.reset.setF pgMGT Reg.MGT_NONCE_LO 7))
    let runs := asks 0x21 [0x100, 0, 124] (ready (loaded prtRUNNING seqRUNNING))
    (∀ w ∈ [0x82, 0x83, 0xFF, 0x100], (asks 0x20 [w] State.reset).asks 0x20 = true ∧ (asks 0x20 [w] State.reset).arg 0 = w) ∧
    s.asks 0x21 = true ∧ s.isReady = true ∧ s.arg64 0 % 64 = 0 ∧ s.dmaOk = true ∧ (∀ p, p < 4 → s.prtState p < prtRUNNING) ∧
    (auth 0x48 0).pairs ≠ [] ∧ (auth 0x48 0).pairs.length ≤ 16 ∧ s.arg 2 = 116 + 8 * (auth 0x48 0).pairs.length ∧
    s.keyGood 0 = true ∧ (0 : BitVec 64).toNat = s.fuse 0x081 + 2 ^ 32 * s.fuse 0x082 ∧
    (7 : BitVec 64).toNat = s.get64 pgMGT Reg.MGT_NONCE_LO Reg.MGT_NONCE_HI ∧ s.keyGood 9 = false ∧
    s.fieldWord 0x48 = true ∧ s.fieldWord 0x60 = false ∧
    runs.asks 0x21 = true ∧ runs.isReady = true ∧ runs.dmaOk = true ∧ prtRUNNING ≤ runs.prtState 0 := by decide +kernel

/-- FlashUpdate: copy B while A runs, copy A, and an image whose signer is none. -/
theorem test_meets_FlashUpdate :
    let s := fun (n : Nat) => asks 0x22 [0x100, 0, 5, n] (ready State.reset)
    (s 1).asks 0x22 = true ∧ (s 1).module.flashBoard = false ∧ (s 1).arg64 0 % 64 = 0 ∧ (s 1).dmaOk = true ∧ (s 1).imageValid ⟨some 0, 1, []⟩ = true ∧
    (s 1).imageValid ⟨none, 1, []⟩ = false ∧ ((s 1).arg 3).testBit 0 = true ∧ (s 1).mgmt.runningCopy ≠ some true ∧
    ((s 0).arg 3).testBit 0 = false ∧ (s 0).mgmt.runningCopy = some false := by decide +kernel

/-- An image that passes every check on a chip that has time, and one with a round of 77 beats, which does not. -/
def image1 : Image :=
  { image0 with raw := [1, 2, 3], roundLen := 5760, chips := [0],
                sections := [{ section0 with tiles := 3, streams := [], names := List.range 47, leases := [(2, 5), (46, 63)], cellBase := 0x10, cellLimit := 0x40 }] }

/-- ImageLoad. -/
theorem test_meets_ImageLoad :
    let s := asks 0x11 [0x100, 0, 12] (ready (State.reset.setF pgTMB Reg.TMB_STAT_STATE_A 2))
    let c := image1.sections.headD section0
    let busy := asks 0x11 [0x100, 0, 12] (ready (loaded prtRUNNING seqRUNNING))
    Served s 0x11 ∧ s.arg64 0 % 64 = 0 ∧ s.arg64 4 % 64 = 0 ∧ s.arg 3 % 4 = 0 ∧ s.prtState 0 = prtEMPTY ∧
    s.scopeInReset (.part 0) = false ∧ s.dmaOk = true ∧ image1.sections.find? (fun c => c.chip == s.chipId) = some c ∧
    image1.headerOk = true ∧ s.arg 2 = 4 * image1.raw.length ∧
    (s.refusal 0 { image1 with roundLen := 77 } c).isSome = true ∧ ({ image1 with roundLen := 77 } : Image).roundLen % 180 ≠ 0 ∧
    (∀ e ∈ c.timetable ++ c.landing, e.port < 47 ∧ e.index < 32768) ∧ busy.prtState 0 ≠ prtEMPTY ∧
    (s.setF pgHIF Reg.HIF_STAT_LINKUP 0).dmaOk = false ∧ ({ image1 with headerOk := false } : Image).headerOk = false ∧
    (∃ g ∈ [1], g < (s.setF pgDEV Reg.DEV_CAPS_GRADE 2).getF pgDEV Reg.DEV_CAPS_GRADE) ∧ (s.tilesOf 0).length < 257 ∧
    (s.setF pgTMB Reg.TMB_STAT_STATE_A 0).hasTime = false ∧ s.linkState 3 ≠ lnkUP ∧ s.arg 6 < 1 ∧ 9 ∉ image1.chips := by
  dsimp only [Served]; decide +kernel

theorem test_meets_ImageLoad_passes :
    (asks 0x11 [0x100, 0, 12] (ready (State.reset.setF pgTMB Reg.TMB_STAT_STATE_A 2))).refusal 0 image1
      (image1.sections.headD section0) = none := by decide +kernel

/-- ImageUnload: a partition LOADED, and one RUNNING. -/
theorem test_meets_ImageUnload :
    let s := asks 0x12 [0] (ready (loaded prtLOADED seqHALTED))
    Served s 0x12 ∧ s.arg 0 % 4 = 0 ∧ s.prtState 0 = prtLOADED ∧ s.image 0 = some image0 ∧ (s.part 0).launchNt = none ∧
    (asks 0x12 [0] (ready (loaded prtRUNNING seqHALTED))).prtState 0 ≠ prtLOADED ∧
    ((asks 0x12 [0] (ready (loaded prtLOADED seqHALTED (fun x => { x with launchNt := some 5 })))).part 0).launchNt.isSome = true := by
  dsimp only [Served]; decide +kernel

/-- Launch: on the governor chip with STEP0 and JOB_SEED, every chip having reported, as the only chip and with two others; with a
chip that has not; on another chip; and with no image. -/
theorem test_meets_Launch :
    let one := { image0 with chips := [0] }
    let told := fun (l : List (Nat × Nat × Nat)) (s : State) => ({ s with gov := { s.gov with loaded := l } } : State)
    let s := fun (im : Image) l => told l (asks 0x13 [0x300, 5, 6, 7, 8] (ready (loaded prtLOADED seqHALTED id im)))
    let all := s image0 [(0, 0, 3), (0, 1, 9), (0, 2, 4)]
    let alone := s one [(0, 0, 3)]
    let other := asks 0x13 [0] (ready (loaded prtLOADED seqHALTED id { image0 with governor := 5 }))
    (∀ e ∈ [(all, image0, 9), (alone, one, 3)], let s := e.1
      Served s 0x13 ∧ s.image 0 = some e.2.1 ∧ s.governs 0 = true ∧ s.lastReport 0 e.2.1 = some e.2.2 ∧
      s.prtState 0 = prtLOADED ∧ (s.part 0).launchNt = none ∧
      (∀ q ∈ s.governed, (s.partRuns q = true ∨ (s.part q).launchNt.isSome = true) → 0 < s.roundLen q) ∧
      (s.arg 0).testBit 8 = true ∧ (s.arg 0).testBit 9 = true) ∧
    image0.chips.filter (fun c => c != all.chipId) = [1, 2] ∧ one.chips.filter (fun c => c != alone.chipId) = [] ∧
    (s image0 [(0, 0, 3)]).lastReport 0 image0 = none ∧
    Served other 0x13 ∧ other.governs 0 = false ∧ (asks 0x13 [0] (ready State.reset)).image 0 = none := by
  dsimp only [Served]; decide +kernel

/-- Stop: of a running partition on the governor chip, of a loaded one, and on another chip. -/
theorem test_meets_Stop :
    let s := asks 0x14 [0] (ready (loaded prtRUNNING seqRUNNING))
    let other := asks 0x14 [0] (ready (loaded prtRUNNING seqRUNNING id { image0 with governor := 5 }))
    Served s 0x14 ∧ s.image 0 = some image0 ∧ s.governs 0 = true ∧ s.partRuns 0 = true ∧ 0 < s.roundLen 0 ∧
    s.getB pgTMB Reg.TMB_GEAR_ARM = false ∧ (asks 0x14 [0] (ready (loaded prtLOADED seqHALTED))).partRuns 0 = false ∧
    Served other 0x14 ∧ other.governs 0 = false := by
  dsimp only [Served]; decide +kernel

/-! Resets, bring-up, power, tables and registers. -/

/-- Partition 0 keeps regions 8 to 15, partition 1 has the others; no tile of a partition that runs is in regions 0 to 7. -/
def parted : State :=
  ((loaded prtRUNNING seqRUNNING).setF (pgPRT 0) Reg.PRT_STAT_REGIONS 0xFF00).setF (pgPRT 1) Reg.PRT_STAT_REGIONS 0x00FF

def withResets (l : List Scope) (s : State) : State := { s with mgmt := { s.mgmt with resets := l } }

/-- ScopeResets: tile 3 and region 0 of a partition that does not run, partition 0 with its image, tile 200 of a partition that
runs, the mailbox asking for a tile of either, and resets under way, one of them the mailbox's. -/
theorem test_meets_ScopeResets :
    let free := fun (s : State) (q : Option Nat) => ∀ k ∈ q, s.partRuns k = false
    let s := parted
    let ask := fun (t : Nat) => ready (asks 0x15 [1, t] s)
    let r := withResets [.region 0, .part 0] s
    let r : State := { r with mgmt := { r.mgmt with mbxScope := some (.part 0) } }
    s.mgmt.resets = [] ∧ 3 < s.getF pgDEV Reg.DEV_CAPS_TILES ∧ free s (s.partOfTile 3) ∧ 0 < s.getF pgDEV Reg.DEV_CAPS_REGIONS ∧
    free s (s.partOfRegion 0) ∧ (s.image 0).isSome = true ∧ s.partOfTile 200 = some 0 ∧ s.partRuns 0 = true ∧
    s.module.aux = true ∧ (0x40 : BitVec 7).toNat = 0x40 + s.module.pos.toNat % 16 ∧ s.module.powered = true ∧ Served (ask 3) 0x15 ∧ (ask 3).arg 0 % 8 = 1 ∧ (ask 3).arg 1 = 3 ∧ free (ask 3) ((ask 3).partOfTile 3) ∧
    (ask 3).mgmt.resets = [] ∧ Served (ask 200) 0x15 ∧ (ask 200).arg 1 = 200 ∧ (ask 200).partOfTile 200 = some 0 ∧
    (ask 200).partRuns 0 = true ∧ Scope.part 0 ∈ r.mgmt.resets ∧ r.mgmt.mbxScope = some (.part 0) ∧ Scope.region 0 ≠ .part 0 := by
  dsimp only [Served]; decide +kernel

/-- ChipResets: in use and in recovery; RESET_N high, low for long enough, and low too briefly. -/
theorem test_meets_ChipResets :
    let s := State.reset
    let low := fun (clock : Nat) => ({ s with module := { s.module with resetN := false, resetHigh := false, clock := clock } } : State)
    let m := (low (3000000000 * nsUnit)).module
    let b := (low 5).module
    let held := { s.module with resetN := false }
    s.module.aux = true ∧ (0x40 : BitVec 7).toNat = 0x40 + s.module.pos.toNat % 16 ∧ s.module.powered = true ∧
    (asks 0x15 [4] s).asks 0x15 = true ∧ (asks 0x15 [4] s).arg 0 % 8 = 4 ∧
    (asks 0x15 [4] s).getF pgMGT Reg.MGT_BOOT_STAGE ≠ 0xF ∧
    ((asks 0x15 [4] s).setF pgMGT Reg.MGT_BOOT_STAGE 0xF).getF pgMGT Reg.MGT_BOOT_STAGE = 0xF ∧
    s.module.resetHigh = true ∧ s.module.resetN = true ∧ held.resetHigh = true ∧ held.resetN = false ∧
    s.module.railsOffNt ≤ s.module.clock ∧ m.resetHigh = false ∧ m.railsOffNt ≤ m.clock ∧ m.pwrGood = true ∧
    m.pwrGoodNt + 100000000 * nsUnit ≤ m.clock ∧ b.resetHigh = false ∧ b.railsOffNt ≤ b.clock ∧
    ¬ (b.pwrGood = true ∧ b.pwrGoodNt + 100000000 * nsUnit ≤ b.clock) := by decide +kernel

/-- A board configuration record. -/
def boardRecord (rack roles board : Nat) : List Byte :=
  let b := leBytes 0x4E474346 4 ++ leBytes 1 2 ++ leBytes rack 2 ++ leBytes roles 1 ++ leBytes board 1 ++ List.replicate 50 0
  b ++ leBytes (crc32c b).toNat 4

/-- Stage 2 of bring-up, with a record. -/
def booting (l : List Byte) : State :=
  let s := State.reset.setF pgMGT Reg.MGT_BOOT_STAGE 2
  { s with mgmt := { s.mgmt with clerkUp := true, boardRecord := l } }

/-- BringUp: a record with rack 511 and both roles for any board, one for another board; every region calibrated, and one not;
no copy of the Clerk; a region whose spare tile is unused, and one whose fuses name it. -/
theorem test_meets_BringUp :
    let s := booting (boardRecord 511 3 0xFF)
    let other := booting (boardRecord 511 3 1)
    let n := s.getF pgDEV Reg.DEV_CAPS_REGIONS
    let none_ : State := { s with mgmt := { s.mgmt with copyA := none, copyB := none } }
    let used : State := { s with mgmt := { s.mgmt with fuses := s.mgmt.fuses.put 0x04D 0x60 0 } }
    s.bringingUp = true ∧ s.mgmt.clerkUp = true ∧ s.getF pgMGT Reg.MGT_BOOT_STAGE < 3 ∧
    boardRecordValid s.mgmt.boardRecord (s.getF pgDEV Reg.DEV_CHIP_ID_BOARD) = true ∧ (∀ x, x < 47 → s.linkState x = lnkDOWN) ∧
    (∀ p, p < 4 → s.holdsImage p = false) ∧ other.bringingUp = true ∧
    boardRecordValid other.mgmt.boardRecord (other.getF pgDEV Reg.DEV_CHIP_ID_BOARD) = false ∧ n ≤ 16 ∧
    0xFFFF % 2 ^ n = 2 ^ n - 1 ∧ 0xFFFE % 2 ^ n ≠ 2 ^ n - 1 ∧ none_.bringingUp = true ∧ none_.chooseClerk = none ∧ 0 < n ∧
    s.mgmt.hidden.get 0 16 ≠ 3 ∧ 16 < s.spareFuse (s.physRegion 0) ∧ s.retiredTile (s.physRegion 0) = none ∧
    used.bringingUp = true ∧ used.spareFuse (used.physRegion 0) ≤ 16 ∧
    (∀ k ∈ [0, 4, 5], let z := s.setF pgMGT Reg.MGT_BOOT_STAGE k; z.bringingUp = true ∧ z.mgmt.clerkUp = true ∧
      z.getF pgMGT Reg.MGT_BOOT_STAGE = k) := by decide +kernel

/-- Power: the edges of the auxiliary input's range and of the 48 V input's; with the main rails off, after a shutdown, before PWR_GOOD, in
operation; averages at the limit and past it, on a chip that governs no job; and TJ_WARN at a region's reading. -/
theorem test_meets_Power :
    let s := State.reset
    let off := withModule (fun m => { m with rails := [], pwrGood := false, main48 := false }) s
    let again := withModule (fun m => { m with restartNeeded := true }) off
    let rising := withModule (fun m => { m with pwrGood := false }) s
    let busy := ready (loaded prtRUNNING seqRUNNING id { image0 with governor := 5 })
    11400 ≤ (11400 : BitVec 16).toNat ∧ (12600 : BitVec 16).toNat ≤ 12600 ∧ (11399 : BitVec 16).toNat < 11400 ∧
    40000 < (40001 : BitVec 16).toNat ∧ off.module.lost48Nt ≤ (0 : BitVec 64).toNat * nsUnit ∧ ¬ 40000 < (40000 : BitVec 16).toNat ∧
    off.module.aux = true ∧ off.module.auxGood = true ∧ off.module.powered = false ∧ off.module.restartNeeded = false ∧
    off.module.trip = false ∧ again.module.restartNeeded = true ∧ rising.module.powered = true ∧ rising.module.pwrGood = false ∧
    (37999 : BitVec 16).toNat < 38000 ∧ (10799 : BitVec 16).toNat < 10800 ∧
    s.module.powered = true ∧ s.module.pwrGood = true ∧ s.module.aux = true ∧ (0x40 : BitVec 7).toNat = 0x40 + s.module.pos.toNat % 16 ∧
    (2000 : BitVec 16).toNat ≤ s.module.pwrLimit ∧ busy.module.pwrLimit < (2001 : BitVec 16).toNat ∧ busy.mgmt.clerkUp = true ∧
    (∀ p, p < 4 → busy.governs p = false) ∧ busy.partRuns 0 = true ∧ 3 ∈ s.regions ∧
    (max 1120 (min 1664 (sgn 16 (1200 : BitVec 16).toNat)) : Int) ≤ sgn 16 ((s.setF (pgRGN 3) Reg.RGN_TEMP_T 1200).getF (pgRGN 3) Reg.RGN_TEMP_T) := by
  decide +kernel

/-- Thermal: every sensor cool, one still warm; 115 °C at the boundary and just below it, and 95 °C at the boot after a trip; each kind of
PLDM sensor. -/
theorem test_meets_Thermal :
    let s := State.reset
    let warm := s.setF (pgRGN 1) Reg.RGN_TEMP_T 1599
    let off := withModule (fun m => { m with rails := [] }) s
    let boot := withModule (fun m => { m with coolCheck := true }) s
    (∀ r ∈ s.regions, sgn 16 (s.getF (pgRGN r) Reg.RGN_TEMP_T) ≤ s.module.tjLimit - 48) ∧
    1 ∈ s.regions ∧ (1 : RegionId).val = 1 ∧ 1 ∈ warm.regions ∧ warm.module.tjLimit - 48 < sgn 16 (warm.getF (pgRGN 1) Reg.RGN_TEMP_T) ∧
    s.module.tjLimit ≤ sgn 16 s.module.tjLimit.toNat ∧ sgn 16 0xFFFF < s.module.tjLimit ∧
    1840 ≤ sgn 16 (1840 : BitVec 16).toNat ∧ sgn 16 (1839 : BitVec 16).toNat < 1840 ∧
    ¬ (s.module.coolCheck = true ∧ s.module.resetN = true ∧ 1520 ≤ sgn 16 (1839 : BitVec 16).toNat) ∧
    (boot.module.coolCheck = true ∧ boot.module.resetN = true ∧ 1520 ≤ sgn 16 (1520 : BitVec 16).toNat) ∧
    s.module.aux = true ∧ off.module.aux = true ∧ off.module.powered = false ∧ off.module.trip = false ∧ s.module.powered = true ∧
    (0x40 : BitVec 7).toNat = 0x40 + s.module.pos.toNat % 16 ∧ (0x41 : BitVec 7).toNat ≠ 0x40 + s.module.pos.toNat % 16 ∧
    (38, s.gear) ∈ [(34, s.module.power), (38, s.gear)] := by decide +kernel

/-- The 96 bits of a debug command, the lowest first. -/
def debugBits (op rest : Nat) : List Bool := (List.range 96).map (op * 2 ^ 92 + rest).testBit

/-- TestPort: each state of the port that a clause names, with BYPASS and with EXTEST selected, and the debug commands. -/
theorem test_meets_TestPort :
    let w := fun (t : Tap) (i : BitVec 4) => (withModule (fun m => { m with tap := t, ir := i }) State.reset).module
    let v := fun (l : List Bool) => (l.zipIdx).foldl (fun (n : Nat) e => n + Machine.bit e.1 e.2) 0
    (w .exit1Dr 8).tap = .exit1Dr ∧ (w .exit1Dr 8).ir = 8 ∧
    ({ State.reset.mgmt with daport := true } : Mgmt).daport = true ∧
    bits (v (debugBits 1 5)) 95 92 = 1 ∧ bits (v (debugBits 2 5)) 95 92 = 2 ∧ bits (v (debugBits 2 5)) 83 65 < spdUnits ∧
    bits (v (debugBits 3 (pgMGT * 2 ^ 80 + 0x104 * 2 ^ 68))) 95 92 = 3 ∧ bits (v (debugBits 3 (pgMGT * 2 ^ 80 + 0x104 * 2 ^ 68))) 91 80 = pgMGT ∧
    bits (v (debugBits 3 (pgMGT * 2 ^ 80 + 0x104 * 2 ^ 68))) 79 68 = 0x104 ∧ State.reset.devMet pgMGT (Reg.MGT_ARG_WORD.at 0) = false ∧
    bits (v (debugBits 5 0)) 95 92 = 5 ∧ State.reset.pageOpen (pgTIL 0) = true ∧
    (w .selIr 0).tap = .selIr ∧ (w .shiftDr 0xF).tap = .shiftDr ∧ (w .shiftDr 0xF).ir = 0xF ∧ (w .shiftIr 0).tap = .shiftIr ∧
    (w .capDr 1).tap = .capDr ∧ (w .capDr 1).ir = 1 ∧ (w .capDr 0).ir = 0 ∧ (List.replicate 30 true).length = 30 ∧
    (w .shiftDr 0).ir = 0 ∧ (w .exit1Dr 1).tap = .exit1Dr ∧ (w .exit1Dr 1).ir = 1 ∧ (w .selIr 0).aux = true := by decide +kernel

/-- Attestation: before and after each step of the exchange; slot 0 holds a chain, slot 1 none. -/
theorem test_meets_Attestation :
    let s := State.reset.setF pgHIF Reg.HIF_STAT_LINKUP 1
    let z : State := { s with mgmt := { s.mgmt with spdmVersion := true, spdmCaps := true, spdmAlgs := true } }
    s.dmaOk = true ∧ s.getF pgMGT Reg.MGT_BOOT_STAGE ≠ 0xF ∧ z.dmaOk = true ∧ z.mgmt.spdmVersion = true ∧ z.mgmt.spdmCaps = true ∧ z.mgmt.spdmAlgs = true ∧
    s.mgmt.spdmVersion = false ∧ s.mgmt.spdmCaps = false ∧ s.mgmt.spdmAlgs = false ∧ (1 : BitVec 3) ≠ 0 := by decide +kernel

theorem test_meets_Attestation_chain : (0 : BitVec 16).toNat < (Config.certificate 0).length := by
  simp [Config.certificate]

/-- An announcement of chip `o`, version `v`. -/
def announced (o v : Nat) : List Byte :=
  leBytes o 2 ++ leBytes v 2 ++ [47, 0, 0, 0] ++
    (List.range 47).flatMap (fun x => leBytes x 1 ++ leBytes (x % 6) 1 ++ leBytes (128 * (x % 5)) 2 ++ [0, 0, 0, 0])

/-- Two origins known, and one announcement of this chip's own sent. -/
def mapped : State :=
  let s := State.reset
  { s with mgmt := { s.mgmt with
      clerkUp := true, topo := [⟨300, 7, announced 300 7, 99⟩, ⟨129, 65535, announced 129 65535, 5⟩], topoVersion := 65535,
      topoSent := [announced 0 4] } }

/-- Topology: versions that are newer (one past the wrap), the same, and older; an origin not known; own announcements. -/
theorem test_meets_Topology :
    let s := mapped
    let d := fun (b : List Byte) (t : Topo) => (leNat (slice b 2 4) + 65536 - t.version % 65536) % 65536
    s.mgmt.clerkUp = true ∧ s.chipId = 0 ∧
    (∀ b ∈ [announced 300 8, announced 300 7, announced 300 6, announced 129 0, announced 5 5, announced 0 4, announced 0 5],
      b.length = 384 ∧ leNat (slice b 4 5) = 47 ∧ (slice b 5 8).all (· == 0) = true) ∧
    s.mgmt.topo.find? (fun t => t.origin == leNat (slice (announced 300 8) 0 2)) = some ⟨300, 7, announced 300 7, 99⟩ ∧
    d (announced 300 8) ⟨300, 7, announced 300 7, 99⟩ = 1 ∧ d (announced 300 7) ⟨300, 7, announced 300 7, 99⟩ = 0 ∧
    32768 ≤ d (announced 300 6) ⟨300, 7, announced 300 7, 99⟩ ∧
    d (announced 129 0) ⟨129, 65535, announced 129 65535, 5⟩ = 1 ∧
    s.mgmt.topo.find? (fun t => t.origin == leNat (slice (announced 5 5) 0 2)) = none ∧
    leNat (slice (announced 0 5) 0 2) = s.chipId ∧ announced 0 5 ∉ s.mgmt.topoSent ∧ announced 0 4 ∈ s.mgmt.topoSent ∧
    s.mgmt.topo.find? (fun t => t.origin == (129 : BitVec 16).toNat) = some ⟨129, 65535, announced 129 65535, 5⟩ := by
  decide +kernel

/-- RouteTable: a neighbour of rack 2 in UP behind port 16, and no lower port to its rack. -/
theorem test_meets_RouteTable :
    let s := ((mapped.setL 16 Reg.ICL_STATE_STATE lnkUP).setL 16 Reg.ICL_LEDGER0_PEER_CHIP 300)
    s.mgmt.clerkUp = true ∧ s.linkState 16 = lnkUP ∧ chipRack (s.peerChip 16) ≠ chipRack s.chipId ∧
    s.entersAt (chipRack (s.peerChip 16)) (s.peerChip 16) = true ∧
    (∀ y, y < 16 → s.linkState y = lnkUP → s.entersAt (chipRack (s.peerChip 16)) (s.peerChip y) = false) := by decide +kernel

/-- The table window at an entry, with data. -/
def window (s : State) (table bank port index : Nat) (data : List Nat) : State :=
  (s.setFs pgTBL [(Reg.ICH_TBL_ADDR_TABLE, table), (Reg.ICH_TBL_ADDR_BANK, bank), (Reg.ICH_TBL_ADDR_PORT, port),
    (Reg.ICH_TBL_ADDR_INDEX, index)]).setFs pgTBL (data.zipIdx.map (fun e => (Reg.ICH_TBL_DATA_WORD.at e.2, e.1)))

/-- TableWindow: no such table, port or slot (each at its boundary), an entry of each table, an entry of a bank that is kept,
and one that is not, on pages without an injection. -/
theorem test_meets_TableWindow :
    let v := fun (s : State) => BitVec.ofNat 128
      ([0, 1, 2, 3].foldl (fun n k => n + s.getF pgTBL (Reg.ICH_TBL_DATA_WORD.at k) * 2 ^ (32 * k)) 0)
    let names := fun (a : TblAddr) => a.table ≤ 2 ∧ a.port < 47 ∧ (a.table = 2 → a.index < 64)
    let s := window State.reset 0 0 46 5 [1, 2, 3, 4]
    let lease := window State.reset 2 0 46 63 [7]
    let held := window fabric 2 0 1 5 [7]
    let held : State := { held with ich := { held.ich with lease := held.ich.lease.put (64 * 1 + 5) 4 0 } }
    ¬ names (window State.reset 3 0 0 0 []).tblAddr ∧ ¬ names (window State.reset 0 0 47 0 []).tblAddr ∧
    ¬ names (window State.reset 2 0 0 64 []).tblAddr ∧ names s.tblAddr ∧ s.tblAddr.table < 2 ∧ s.tblRefused s.tblAddr (v s) = false ∧
    names lease.tblAddr ∧ lease.tblAddr.table = 2 ∧ lease.tblRefused lease.tblAddr (v lease) = false ∧
    names held.tblAddr ∧ held.tblRefused held.tblAddr (v held) = true ∧
    (∀ pg ∈ [0x020, 0x021, 0x022, 0x023], s.getF pg Reg.BLK_ERR_INJ_ARM = 0) := by decide +kernel

/-- PortRegisters: bank 0 of partition 0 is its running bank, bank 1 is kept by nothing; a partition with an image and none. -/
theorem test_meets_PortRegisters :
    let s := State.reset
    s.devMet pgICH (Reg.ICH_SWAP_ARM.at 0) = false ∧
    (s.devSet pgICH (Reg.ICH_SWAP_ARM.at 0) 0 s.ns).devMet pgICH (Reg.ICH_SWAP_ARM.at 0) = true ∧ s.bankKept 0 0 = true ∧ s.bankKept 0 1 = false ∧ (loaded prtRUNNING seqRUNNING).holdsImage 0 = true ∧
    s.holdsImage 0 = false := by decide +kernel

/-- HaltedWrites, GuardedRegisters: a tile HALTED and one that runs; pages with and without a target for an injection; links
DOWN with no image, and each of the two broken. -/
theorem test_meets_GuardedRegisters :
    let s := State.reset
    s.seqState 0 = seqHALTED ∧ running.seqState 0 ≠ seqHALTED ∧ s.pageOpen (pgTIL 0) = true ∧
    (0x400 ≤ (0x7FF : BitVec 12).toNat ∧ (0x27F : BitVec 12).toNat ≤ 0x27F) ∧ injects (0x050 : BitVec 12).toNat = false ∧
    (∀ x, x < 47 → s.linkState x = lnkDOWN) ∧ (∀ p, p < 4 → s.holdsImage p = false) ∧
    (s.setL 16 Reg.ICL_STATE_STATE lnkUP).linkState 16 ≠ lnkDOWN ∧ (loaded prtRUNNING seqRUNNING).holdsImage 0 = true ∧
    s.pageOpen 0x050 = true ∧ s.devNt = [] ∧
    (s.devSet (pgTIL 0) Reg.BLK_ERR_INJ_ARM 0 s.ns).devMet (pgTIL 0) Reg.BLK_ERR_INJ_ARM = true := by decide +kernel

/-- Where the device has changed nothing, no write of a field meets it. -/
theorem test_still : ∀ n f, State.reset.devMet n f = false := by
  intro n f
  have h : State.reset.devNt = [] := rfl
  simp [State.devMet, h]

/-- PlainAccesses: a write of MGT_CMD with GO, not BUSY and BUSY; a bit cleared by 1 and kept by 0; a partition in reset, not in
reset, RUNNING and not. -/
theorem test_meets_PlainAccesses :
    let s := State.reset
    let r := loaded prtRUNNING seqRUNNING
    (0x80000004 : BitVec 32).getLsbD 31 = true ∧ (0x80000004 : BitVec 32).getLsbD 2 = true ∧ (0 : BitVec 32).getLsbD 2 = false ∧
    s.getF pgDEV Reg.BLK_ERR_CONTROL ≤ 1 ∧ s.getB pgMGT Reg.MGT_RSP_BUSY = false ∧
    (s.setF pgMGT Reg.MGT_RSP_BUSY 1).getB pgMGT Reg.MGT_RSP_BUSY = true ∧ Scope.part 0 ∈ (withResets [.part 0] s).mgmt.resets ∧
    Scope.part 0 ∉ s.mgmt.resets ∧ s.getF (pgPRT 0) Reg.PRT_STEP_LO < 2 ^ 32 ∧ s.round 0 < 2 ^ 32 ∧ s.regWord (pgPRT 0) 0x100 < 2 ^ 32 ∧
    s.getF (pgPRT 0) Reg.PRT_STEP_HI < 2 ^ 32 ∧ s.pageOpen 0x051 = true ∧ s.prtState 0 ≠ prtRUNNING ∧ r.prtState 0 = prtRUNNING ∧
    (tenanted s).vfExists 2 = true ∧ (0x80000001 : BitVec 32).getLsbD 0 = true ∧
    (s.setF pgDEV Reg.DEV_CAPS_REGIONS 12).getF pgDEV Reg.DEV_CAPS_REGIONS ≤ 12 ∧
    15 < s.getF pgDEV Reg.DEV_CAPS_REGIONS ∧ (withResets [.region 15] s).scopeInReset (.region 15) = true := by decide +kernel

/-- StepRunsFront, EveryStepKeeps: the queue of the state after reset is empty; it is canonical, and fuse word 0x04C has bit 0. -/
theorem test_meets_StepRunsFront :
    State.reset.pending = [] ∧ (∃ t, step State.reset = .next t) ∧ (State.reset.fuse 0x04C).testBit 0 = true :=
  ⟨rfl, ⟨_, rfl⟩, by decide +kernel⟩

/-- EveryStepKeeps: a canonical state. -/
theorem test_meets_EveryStepKeeps : State.reset.Canonical := by
  unfold State.Canonical State.CanonicalStores; decide +kernel

/-- CommandFrames: a command that completes, and a component it may not change. -/
theorem test_meets_CommandFrames :
    (∃ u, exec .getVersion State.reset = .next u) ∧ Comp.tiles ∉ mayChange .getVersion := ⟨⟨_, rfl⟩, by decide +kernel⟩

/-- SlotWordsAgree: a bundle that is well formed, and words that decode. -/
theorem test_meets_SlotWordsAgree :
    (⟨.alui .shli 1 2 31, .nop, .nop, .nop⟩ : Bundle).WF = true ∧ decodeSc (encodeSc (.alui .shli 1 2 31)) = .ok (.alui .shli 1 2 31) := by
  decide +kernel

end Sys2Proof.Tests
end

section
/-! SUPPORT. What a write of a register leaves of the module (13 R371, R372; 14): everything but the always-on clock, which
moves only where a latched frank lets time pass. -/

namespace Sys2Proof.Machine

variable (s : State)

/-! ### Updates for each member of a list, branches and outcomes -/

/-- Updates that each leave the module leave it together. (Where the law of f that simp finds holds by rfl, simp hands its side
condition over only with -implicitDefEqProofs.) -/
@[simp] theorem State.forEach_module {α : Type} (l : List α) (f : State → α → State)
    (hf : ∀ u x, (f u x).module = u.module) : (s.forEach l f).module = s.module :=
  State.forEach_same s State.module f l (fun u x _ => hf u x)

@[simp] theorem State.orNext_next (u : State) : s.orNext (.next u) = u := rfl

/-! ### Registers, domains of time and the region monitors -/

@[simp] theorem State.setFs_module (pg : Nat) (l : List (Fld × Nat)) : (s.setFs pg l).module = s.module := by
  rw [State.setFs_only]

@[simp] theorem State.hostSet_module (pg : Nat) (f : Fld) (v : Nat) : (s.hostSet pg f v).module = s.module := by
  simp [State.hostSet, apply_ite State.module]

@[simp] theorem State.devSet_module (pg : Nat) (f : Fld) (v c : Nat) : (s.devSet pg f v c).module = s.module := rfl

@[simp] theorem State.setL_module (x : Nat) (f : Fld) (v : Nat) : (s.setL x f v).module = s.module := rfl

@[simp] theorem State.setV_module (t : Nat) (f : Fld) (v : Nat) : (s.setV t f v).module = s.module := rfl

@[simp] theorem State.addF_module (pg : Nat) (f : Fld) (n : Nat) : (s.addF pg f n).module = s.module := rfl

@[simp] theorem State.set64_module (pg : Nat) (lo hi : Fld) (v : Nat) : (s.set64 pg lo hi v).module = s.module := rfl

@[simp] theorem State.injected_module (pg : Nat) : (s.injected pg).module = s.module := by simp [State.injected]

@[simp] theorem State.modRmon_module (r : Nat) (f : Rmon → Rmon) : (s.modRmon r f).module = s.module := rfl

@[simp] theorem State.modDom_module (b : Bool) (f : Domain → Domain) : (s.modDom b f).module = s.module := rfl

@[simp] theorem State.modTenant_module (t : Nat) (f : Tenant → Tenant) : (s.modTenant t f).module = s.module := rfl

@[simp] theorem State.noteTime_module : s.noteTime.module = s.module := rfl

@[simp] theorem State.setDomState_module (b : Bool) (st : Nat) : (s.setDomState b st).module = s.module := rfl

@[simp] theorem State.endHoldover_module (b : Bool) : (s.endHoldover b).module = s.module := by
  simp [State.endHoldover, apply_ite State.module]

@[simp] theorem State.setParent_module (b : Bool) (o : Option Nat) : (s.setParent b o).module = s.module := by
  cases b <;> rfl

@[simp] theorem State.chooseParent_module (b : Bool) : (s.chooseParent b).module = s.module := by
  simp [State.chooseParent, apply_ite State.module]

@[simp] theorem State.timeLoss_module : s.timeLoss.module = s.module := rfl

@[simp] theorem State.enterHoldover_module : s.enterHoldover.module = s.module := rfl

@[simp] theorem State.loseDomain_module (b : Bool) (st : Nat) : (s.loseDomain b st).module = s.module := by
  simp [State.loseDomain, apply_ite State.module]

@[simp] theorem State.setMaster_module (b on : Bool) : (s.setMaster b on).module = s.module := by
  simp [State.setMaster, apply_ite State.module]

/-! ### Gears, rails and the Letterbook -/

@[simp] theorem State.trackRail_module (r : Nat) : (s.trackRail r).module = s.module := rfl

@[simp] theorem State.prelock_module : s.prelock.module = s.module := by
  simp -implicitDefEqProofs [State.prelock, apply_ite State.module]

@[simp] theorem State.reverifyRegion_module (g r : Nat) : (s.reverifyRegion g r).module = s.module := by
  simp [State.reverifyRegion, State.freeBits, apply_ite State.module]

@[simp] theorem State.reverify_module (g : Nat) : (s.reverify g).module = s.module := by simp [State.reverify]

@[simp] theorem State.lbPut_module (r : LbData) : (s.lbPut r).module = s.module := rfl

@[simp] theorem State.lbRecord_module (r : LbData) (n : Nat) : (s.lbRecord r n).module = s.module := by
  unfold State.lbRecord
  split
  · rfl
  · cases s.hif.lbGap <;> simp [apply_ite State.module]

@[simp] theorem State.applyGear_module (x : Nat) : (s.applyGear x).module = s.module := by
  simp -implicitDefEqProofs [State.applyGear, apply_ite State.module]

@[simp] theorem State.gearCatch_module : s.gearCatch.module = s.module := by
  unfold State.gearCatch
  split <;> simp [apply_ite State.module]

@[simp] theorem State.armGear_module (g tb : Nat) : (s.armGear g tb).module = s.module := by
  simp [State.armGear, apply_ite State.module]

/-! ### Interrupts and tenants -/

@[simp] theorem State.modVector_module (fn v : Nat) (f : MsixVec → MsixVec) : (s.modVector fn v f).module = s.module := by
  rw [State.modVector_only]

@[simp] theorem State.msix_module (fn v : Nat) : (s.msix fn v).module = s.module := by rw [State.msix_only]

@[simp] theorem State.vfEvent_module (t v : Nat) : (s.vfEvent t v).module = s.module := by
  simp [State.vfEvent, apply_ite State.module]

@[simp] theorem State.cause_module (t c : Nat) : (s.cause t c).module = s.module := by
  simp [State.cause, apply_ite State.module]

@[simp] theorem State.showTenant_module (t : Nat) : (s.showTenant t).module = s.module := by simp [State.showTenant]

@[simp] theorem State.showPins_module : s.showPins.module = s.module := rfl

@[simp] theorem State.watermark_module (t : Nat) : (s.watermark t).module = s.module := by
  simp [State.watermark, apply_ite State.module]

@[simp] theorem State.settleTenant_module (t : Nat) : (s.settleTenant t).module = s.module := by simp [State.settleTenant]

@[simp] theorem State.keepLease_module (t : Nat) : (s.keepLease t).module = s.module := by
  unfold State.keepLease
  split <;> rfl

@[simp] theorem State.unmask_module (fn v : Nat) : (s.unmask fn v).module = s.module := by
  simp [State.unmask, apply_ite State.module]

@[simp] theorem State.writeMsix_module (fn v k w : Nat) : (s.writeMsix fn v k w).module = s.module := by
  simp [State.writeMsix, apply_ite State.module]

/-! ### Links -/

@[simp] theorem State.setLinkState_module (x st : Nat) : (s.setLinkState x st).module = s.module := rfl

@[simp] theorem State.putWire_module (x : Nat) (l : List Byte) (c : Nat) : (s.putWire x l c).module = s.module := by
  simp [State.putWire, apply_ite State.module]

@[simp] theorem State.sendSym_module (x ty low : Nat) (l : List Byte) : (s.sendSym x ty low l).module = s.module := by
  simp [State.sendSym]

@[simp] theorem State.sendTrain_module (x : Nat) (r : Bool) : (s.sendTrain x r).module = s.module := by
  simp [State.sendTrain]

@[simp] theorem State.startTraining_module (x : Nat) : (s.startTraining x).module = s.module := by
  simp [State.startTraining, State.enterTrain]

@[simp] theorem State.sendPattern_module (x : Nat) : (s.sendPattern x).module = s.module := by
  simp [State.sendPattern, apply_ite State.module]

@[simp] theorem State.leaveParent_module (x : Nat) : (s.leaveParent x).module = s.module := by
  simp [State.leaveParent, apply_ite State.module]

@[simp] theorem State.rwtMatch_module (h : Hdr) : (s.rwtMatch h).2.module = s.module := by
  unfold State.rwtMatch
  split <;> simp

@[simp] theorem State.windowOf_module (h : Hdr) : (s.windowOf h).2.module = s.module := by
  have kept := s.rwtMatch_module h
  unfold State.windowOf
  split
  · split <;> simp_all
  · rfl

@[simp] theorem State.toPool_module (x : Nat) (f : Frame) (fwd done : Bool) : (s.toPool x f fwd done).module = s.module := by
  simp [State.toPool]

@[simp] theorem State.submit_module (f : Frame) : (s.submit f).module = s.module := by
  unfold State.submit
  split
  · rfl
  · simp
  · rfl

@[simp] theorem State.answer_module (h : Hdr) (st : Nat) : (s.answer h st).module = s.module := by
  simp [State.answer, State.sendCpl, apply_ite State.module]

@[simp] theorem State.endOperation_module (tag : Nat) : (s.endOperation tag).module = s.module := by
  simp -implicitDefEqProofs [State.endOperation]

@[simp] theorem State.answered_module (x : Nat) (r : Request) (st : Nat) (d : List Word) :
    (s.answered x r st d).module = s.module := by
  simp -implicitDefEqProofs [State.answered, apply_ite State.module]

@[simp] theorem State.poolDone_module (x id : Nat) : (s.poolDone x id).module = s.module := rfl

@[simp] theorem State.dropUnscheduled_module (x : Nat) : (s.dropUnscheduled x).module = s.module := by
  simp -implicitDefEqProofs [State.dropUnscheduled]

@[simp] theorem State.forceDown_module (x : Nat) : (s.forceDown x).module = s.module := by
  simp [State.forceDown, apply_ite State.module]

@[simp] theorem State.disablePort_module (x : Nat) : (s.disablePort x).module = s.module := by
  simp [State.disablePort, State.noteLinks, apply_ite State.module]

@[simp] theorem State.declareLoss_module (x c : Nat) : (s.declareLoss x c).module = s.module := by
  unfold State.declareLoss
  split
  · rfl
  · dsimp only
    split <;> simp [State.raiseLink]

/-! ### Rows of registers that have rows of their own -/

@[simp] theorem State.writeField_module (pg : Nat) (f : Fld) (w : Nat) : (s.writeField pg f w).module = s.module := by
  have kept : (s.keepOld pg f).module = s.module := by simp [State.keepOld, apply_ite State.module]
  cases h : f.acc <;> simp [State.writeField, h, kept, apply_ite State.module]

@[simp] theorem State.tblDone_module (r : Bool) : (s.tblDone r).module = s.module := by simp [State.tblDone]

@[simp] theorem State.strikeEntry_module (a : TblAddr) : (s.strikeEntry a).module = s.module := by
  unfold State.strikeEntry
  split
  · rfl
  · split <;> simp

@[simp] theorem orNext_execCounterWrite_module (pg : PageRef) (o : BitVec 12) (v : BitVec 32) :
    (s.orNext (execCounterWrite pg o v s)).module = s.module := by
  simp -implicitDefEqProofs [execCounterWrite, apply_ite State.module]

@[simp] theorem orNext_execResultRingTailWrite_module (t : TenantId) (v : BitVec 32) :
    (s.orNext (execResultRingTailWrite t v s)).module = s.module := by
  simp [execResultRingTailWrite, apply_ite State.module]

@[simp] theorem orNext_execErrorInjectionArm_module (n : BitVec 12) (v : BitVec 32) :
    (s.orNext (execErrorInjectionArm n v s)).module = s.module := by
  simp [execErrorInjectionArm, apply_ite State.module]

@[simp] theorem orNext_execExpertKeyWrite_module (n : BitVec 12) (v : BitVec 32) :
    (s.orNext (execExpertKeyWrite n v s)).module = s.module := by
  simp [execExpertKeyWrite, State.writeKeyOf, apply_ite State.module]

@[simp] theorem orNext_execRackWrite_module (v : BitVec 32) : (s.orNext (execRackWrite v s)).module = s.module := by
  simp [execRackWrite, State.writeRack, apply_ite State.module]

@[simp] theorem orNext_execLetterbookEnable_module (v : BitVec 32) :
    (s.orNext (execLetterbookEnable v s)).module = s.module := by
  simp [execLetterbookEnable, apply_ite State.module]

@[simp] theorem orNext_execHostAreaWrite_module (l : Bool) (v : BitVec 32) :
    (s.orNext (execHostAreaWrite l v s)).module = s.module := by
  simp [execHostAreaWrite, apply_ite State.module]

@[simp] theorem orNext_execIgqConfigWrite_module (v : BitVec 32) :
    (s.orNext (execIgqConfigWrite v s)).module = s.module := by
  simp [execIgqConfigWrite, apply_ite State.module]

@[simp] theorem orNext_execIgqQuotaWrite_module (v : BitVec 32) :
    (s.orNext (execIgqQuotaWrite v s)).module = s.module := by
  simp [execIgqQuotaWrite, apply_ite State.module]

@[simp] theorem orNext_execLeaseWrite_module (hi : Bool) (v : BitVec 32) :
    (s.orNext (execLeaseWrite hi v s)).module = s.module := by
  simp [execLeaseWrite, apply_ite State.module]

@[simp] theorem orNext_execHandleEntryWrite_module (t : TileId) (o : BitVec 12) (v : BitVec 32) :
    (s.orNext (execHandleEntryWrite t o v s)).module = s.module := by
  simp [execHandleEntryWrite, apply_ite State.module]

@[simp] theorem orNext_execInspectorModeWrite_module (t : TileId) (m : Fin 4) (v : BitVec 32) :
    (s.orNext (execInspectorModeWrite t m v s)).module = s.module := by
  simp [execInspectorModeWrite, apply_ite State.module]

@[simp] theorem orNext_execTmbMasterWrite_module (v : BitVec 32) :
    (s.orNext (execTmbMasterWrite v s)).module = s.module := by
  simp [execTmbMasterWrite]

@[simp] theorem orNext_execUseA_module : (s.orNext (execUseA s)).module = s.module := by
  simp [execUseA, apply_ite State.module]

@[simp] theorem orNext_execNtSet_module (v : BitVec 32) : (s.orNext (execNtSet v s)).module = s.module := by
  simp [execNtSet, apply_ite State.module]

@[simp] theorem orNext_execGearArm_module (g : BitVec 3) : (s.orNext (execGearArm g s)).module = s.module := by
  simp [execGearArm]

@[simp] theorem orNext_execGearCancel_module (g : BitVec 3) : (s.orNext (execGearCancel g s)).module = s.module := by
  simp [execGearCancel, apply_ite State.module]

@[simp] theorem orNext_execTableWindowRead_module : (s.orNext (execTableWindowRead s)).module = s.module := by
  simp [execTableWindowRead, apply_ite State.module]

@[simp] theorem orNext_execTableWindowWrite_module : (s.orNext (execTableWindowWrite s)).module = s.module := by
  simp -implicitDefEqProofs [execTableWindowWrite, apply_ite State.module]

@[simp] theorem orNext_execSdsWrite_module (hi : Bool) (v : BitVec 32) :
    (s.orNext (execSdsWrite hi v s)).module = s.module := rfl

@[simp] theorem orNext_execAliasEntryWrite_module (p : PartId) (b : Bool) (w : Fin 12) (v : BitVec 32) :
    (s.orNext (execAliasEntryWrite p b w v s)).module = s.module := by
  simp -implicitDefEqProofs [execAliasEntryWrite, apply_ite State.module]

@[simp] theorem orNext_execPigeonholeRangeWrite_module (p : PartId) (l : Bool) (v : BitVec 32) :
    (s.orNext (execPigeonholeRangeWrite p l v s)).module = s.module := by
  simp [execPigeonholeRangeWrite, apply_ite State.module]

@[simp] theorem orNext_execUrtDataWrite_module (v : BitVec 32) : (s.orNext (execUrtDataWrite v s)).module = s.module := rfl

@[simp] theorem orNext_execRwtEntryWrite_module (i : Fin 32) (w : Fin 8) (v : BitVec 32) :
    (s.orNext (execRwtEntryWrite i w v s)).module = s.module := by
  simp [execRwtEntryWrite]

@[simp] theorem orNext_execTxffeWrite_module (x : PortId) (l : Fin 8) (v : BitVec 32) :
    (s.orNext (execTxffeWrite x l v s)).module = s.module := by
  simp [execTxffeWrite, apply_ite State.module]

@[simp] theorem orNext_execLinkEnable_module (x : PortId) (en : Bool) :
    (s.orNext (execLinkEnable x en s)).module = s.module := by
  simp [execLinkEnable, apply_ite State.module]

@[simp] theorem orNext_execRetrain_module (x : PortId) : (s.orNext (execRetrain x s)).module = s.module := by
  simp [execRetrain, apply_ite State.module]

@[simp] theorem orNext_execHoldreq_module (x : PortId) : (s.orNext (execHoldreq x s)).module = s.module := by
  simp [execHoldreq, apply_ite State.module]

@[simp] theorem orNext_execExerciserModeWrite_module (x : PortId) (v : BitVec 32) :
    (s.orNext (execExerciserModeWrite x v s)).module = s.module := by
  simp [execExerciserModeWrite, State.freeBits, apply_ite State.module]

@[simp] theorem orNext_execLinkControlWrite_module (x : PortId) (r : LinkReg) (v : BitVec 32) :
    (s.orNext (execLinkControlWrite x r v s)).module = s.module := by
  cases r <;> simp [execLinkControlWrite, apply_ite State.module]

@[simp] theorem orNext_execSwapArm_module (p : PartId) : (s.orNext (execSwapArm p s)).module = s.module := by
  simp [execSwapArm]

@[simp] theorem orNext_execReplayEnable_module (p : PartId) : (s.orNext (execReplayEnable p s)).module = s.module := by
  simp [execReplayEnable, apply_ite State.module]

@[simp] theorem orNext_execResultRingEnable_module (t : TenantId) :
    (s.orNext (execResultRingEnable t s)).module = s.module := by
  simp [execResultRingEnable, apply_ite State.module]

/-! ### Writes of a word -/

@[simp] theorem State.writeTmb_module (o : Nat) (v : BitVec 32) : (s.writeTmb o v).module = s.module := by
  simp [State.writeTmb, apply_ite State.module]

@[simp] theorem State.writeIch_module (n o : Nat) (v : BitVec 32) : (s.writeIch n o v).module = s.module := by
  unfold State.writeIch
  split
  · split <;> simp
  · simp [apply_ite s.orNext, apply_ite State.module]

@[simp] theorem State.writeLinkCtl_module (x : PortId) (w : Nat) : (s.writeLinkCtl x w).module = s.module := by
  simp [State.writeLinkCtl, apply_ite State.module]

@[simp] theorem State.writeLinkPage_module (n o : Nat) (v : BitVec 32) : (s.writeLinkPage n o v).module = s.module := by
  simp [State.writeLinkPage, apply_ite State.module]

@[simp] theorem State.writeSets_module (n o : Nat) : (s.writeSets n o).module = s.module := by
  unfold State.writeSets
  split_ifs
  · exact orNext_execSwapArm_module s _
  · exact orNext_execReplayEnable_module s _
  · exact orNext_execResultRingEnable_module s _
  · rfl

@[simp] theorem State.writeVf_module (t o w : Nat) : (s.writeVf t o w).module = s.module := by
  simp [State.writeVf, apply_ite State.module]

@[simp] theorem State.writeCommand_module (w : Nat) : (s.writeCommand w).module = s.module := by
  simp [State.writeCommand, apply_ite State.module]

@[simp] theorem State.writeSwapCtl_module (p w : Nat) : (s.writeSwapCtl p w).module = s.module := by
  simp [State.writeSwapCtl, apply_ite State.module]

@[simp] theorem State.writeReplayCtl_module (p w : Nat) : (s.writeReplayCtl p w).module = s.module := by
  simp [State.writeReplayCtl, apply_ite State.module]

@[simp] theorem State.plainWrite_module (n o w : Nat) : (s.plainWrite n o w).module = s.module := by
  simp [State.plainWrite, apply_ite State.module]

/-! ### What passing time leaves of the module -/

/-- The module but for its clock. -/
def State.still (s : State) : Module := { s.module with clock := 0 }

theorem State.still_of_module {s u : State} (h : u.module = s.module) : u.still = s.still := by simp [State.still, h]

theorem State.forEach_still {α : Type} (l : List α) (f : State → α → State) (hf : ∀ u x, (f u x).still = u.still) :
    (s.forEach l f).still = s.still :=
  State.forEach_same s State.still f l (fun u x _ => hf u x)

theorem State.atLeast_still (x : Nat) : (s.atLeast x).still = s.still := by rw [State.atLeast_only]; rfl

@[simp] theorem State.trigger_module (c y x : Nat) : (s.trigger c y x).module = s.module := by
  simp [State.trigger, apply_ite State.module]

@[simp] theorem State.latchPage_module (x pg : Nat) : (s.latchPage x pg).module = s.module := by
  simp [State.latchPage, apply_ite State.module]

@[simp] theorem State.takeFrank_module (f : Frank) : (s.takeFrank f).module = s.module := by
  simp -implicitDefEqProofs [State.takeFrank, apply_ite State.module]

theorem State.latchFrank_still (f : Frank) : (s.latchFrank f).still = s.still := by
  refine Eq.trans (State.still_of_module ?_) (s.atLeast_still f.nt)
  simp [State.latchFrank, apply_ite State.module]

theorem State.frankCatch_still : s.frankCatch.still = s.still := by
  refine Eq.trans (State.still_of_module ?_)
    (s.forEach_still (s.franks.pending.filter (fun f => f.isMatch && decide (f.nt / nsUnit < s.ns))) State.latchFrank
      (fun u f => u.latchFrank_still f))
  unfold State.frankCatch
  dsimp only
  split <;> simp [apply_ite State.module]

theorem orNext_execFrankMatchArm_still (v : BitVec 32) : (s.orNext (execFrankMatchArm v s)).still = s.still := by
  refine Eq.trans (State.still_of_module ?_) s.frankCatch_still
  simp [execFrankMatchArm, State.triggerAt, apply_ite State.module]

/-- An outcome that leaves the module leaves what time leaves of it. -/
theorem State.orNext_still {o : Host.Outcome State Fault Refusal} (h : (s.orNext o).module = s.module) :
    (s.orNext o).still = s.still := State.still_of_module h

/-- Of the registers with rows of their own only SNP_CTL lets time pass. -/
theorem State.writeOwn_still (n o : Nat) (v : BitVec 32) : (s.writeOwn n o v).still = s.still := by
  simp only [State.writeOwn, apply_ite State.still, apply_ite s.orNext, orNext_execFrankMatchArm_still,
    State.still_of_module (s.writeTmb_module o v), State.still_of_module (s.writeIch_module n o v),
    State.still_of_module (s.writeLinkPage_module n o v), s.orNext_still, orNext_execCounterWrite_module,
    orNext_execResultRingTailWrite_module, orNext_execErrorInjectionArm_module, orNext_execExpertKeyWrite_module,
    orNext_execRackWrite_module, orNext_execLetterbookEnable_module, orNext_execHostAreaWrite_module,
    orNext_execIgqConfigWrite_module, orNext_execIgqQuotaWrite_module, orNext_execLeaseWrite_module,
    orNext_execHandleEntryWrite_module, orNext_execInspectorModeWrite_module, ite_self]

/-- A write of a word to a page leaves the module but for its clock. -/
theorem State.writeWord_still (n o : Nat) (v : BitVec 32) : (s.writeWord n o v).still = s.still := by
  unfold State.writeWord
  split
  · exact s.writeOwn_still n o v
  · exact State.still_of_module (by simp [apply_ite State.module])

end Sys2Proof.Machine
end

section
/-! SUPPORT. The test access port: what a rising and a falling edge of TCK do, and what the debug access port leaves of the
module (14 R397; IEEE 1149.1). -/

namespace Sys2Proof.Machine

variable (s : State)

/-! ### The rising edge -/

/-- A rising edge shifts or captures: nothing else changes, and a free value is asked for where pins are captured. -/
theorem State.tapRise_only (tdi : Bool) :
    s.tapRise tdi = { s with free := (s.tapRise tdi).free,
                             module := { s.module with irShift := (s.tapRise tdi).module.irShift,
                                                       dr := (s.tapRise tdi).module.dr,
                                                       bypass := (s.tapRise tdi).module.bypass } } := by
  unfold State.tapRise
  dsimp only
  split
  · rfl
  · rfl
  · split_ifs <;> rfl
  · split_ifs <;> rfl
  · rfl

@[simp] theorem State.tapRise_regs (tdi : Bool) : (s.tapRise tdi).regs = s.regs := by rw [State.tapRise_only]

@[simp] theorem State.tapRise_tiles (tdi : Bool) : (s.tapRise tdi).tiles = s.tiles := by rw [State.tapRise_only]

@[simp] theorem State.tapRise_mgmt (tdi : Bool) : (s.tapRise tdi).mgmt = s.mgmt := by rw [State.tapRise_only]

@[simp] theorem State.tapRise_tap (tdi : Bool) : (s.tapRise tdi).module.tap = s.module.tap := by rw [State.tapRise_only]

@[simp] theorem State.tapRise_ir (tdi : Bool) : (s.tapRise tdi).module.ir = s.module.ir := by rw [State.tapRise_only]

@[simp] theorem State.tapRise_aux (tdi : Bool) : (s.tapRise tdi).module.aux = s.module.aux := by rw [State.tapRise_only]

/-- The instruction register shifts toward its first cell. -/
theorem State.tapRise_shiftIr (tdi : Bool) (h : s.module.tap = .shiftIr) :
    (s.tapRise tdi).module.irShift = (s.module.irShift >>> 1) ||| (if tdi then 8 else 0) := by
  simp [State.tapRise, h]

/-- With BYPASS selected the one bit takes TDI. -/
theorem State.tapRise_bypass (tdi : Bool) (h : s.module.tap = .shiftDr) (hs : irScans s.module.ir = false)
    (hd : s.debugs = false) : (s.tapRise tdi).module.bypass = tdi := by
  simp [State.tapRise, h, hs, hd]

/-- The boundary-scan register captures its cells. -/
theorem State.tapRise_capture (tdi : Bool) (h : s.module.tap = .capDr) (hs : irScans s.module.ir = true) :
    (s.tapRise tdi).module.dr = s.captureCells.1 := by
  simp [State.tapRise, h, hs]

/-- The boundary-scan register shifts. -/
theorem State.tapRise_shift (tdi : Bool) (h : s.module.tap = .shiftDr) (hs : irScans s.module.ir = true) :
    (s.tapRise tdi).module.dr = shiftIn s.module.dr tdi := by
  simp [State.tapRise, h, hs]

/-- In the states before Update-DR a rising edge does nothing. -/
theorem State.tapRise_exit (tdi : Bool) (h : s.module.tap = .exit1Dr ∨ s.module.tap = .exit2Dr) : s.tapRise tdi = s := by
  rcases h with h | h <;> simp [State.tapRise, h]

/-! ### The cells of the boundary-scan register -/

/-- Which values were asked for is no concern of a pin. -/
theorem State.pin_free (n i : Nat) : ({ s with free := n } : State).pin i = s.pin i := rfl

@[simp] theorem State.captureCells_length : s.captureCells.1.length = 30 := by
  simp [State.captureCells, State.freeBits, boundaryLen]

/-- A cell captures the level of its pin, where the part decides it. -/
theorem State.captureCells_getElem? {i : Nat} {b : Bool} (hi : i < 30) (h : s.pin i = some b) :
    s.captureCells.1[i]? = some b := by
  simp [State.captureCells, State.freeBits, State.pin_free, boundaryLen, hi, h]

/-- With another instruction than EXTEST, the pins show what the part drives or reads. -/
theorem State.pin_of_sample (haux : s.module.aux = true) (hir : s.module.ir ≠ irEXTEST) {i : Nat} {b : Bool}
    (h : (i, b) ∈ [(0, s.module.resetHigh), (1, s.module.pwrGood), (2, !s.alertLow), (3, !s.module.trip)] ++
      (List.range 4).map (fun k => (5 + k, s.hif.ingrdy.testBit k)) ++
      (List.range 7).map (fun k => (9 + k, s.module.pos.getLsbD k))) : s.pin i = some b := by
  simp only [List.mem_append, List.mem_cons, List.not_mem_nil, or_false, List.mem_map, List.mem_range, Prod.mk.injEq] at h
  rcases h with ((⟨rfl, rfl⟩ | ⟨rfl, rfl⟩ | ⟨rfl, rfl⟩ | ⟨rfl, rfl⟩) | ⟨k, hk, rfl, rfl⟩) | ⟨k, hk, rfl, rfl⟩
  · simp [State.pin, hir]
  · simp [State.pin, hir]
  · simp [State.pin, hir]
  · simp [State.pin, hir, haux]
  · interval_cases k <;> simp [State.pin, hir]
  · interval_cases k <;> simp [State.pin, hir]

/-- FRANK_N is low while the part drives it. -/
theorem State.pin_frank (hir : s.module.ir ≠ irEXTEST) (h : s.franks.driveUntil.isSome = true) : s.pin 4 = some false := by
  simp [State.pin, hir, h]

/-- EXTEST drives the pins that are driven from the boundary-scan register. -/
theorem State.pin_of_extest (hir : s.module.ir = irEXTEST) (ht : s.module.tap ≠ .reset) {i : Nat}
    (hi : 1 ≤ i ∧ i ≤ 8 ∨ i = 17 ∨ 20 ≤ i ∧ i ≤ 23) : s.pin i = s.module.boundary[i]? := by
  have drives : cellDrives i = true := by simp [cellDrives]; omega
  simp [State.pin, hir, ht, drives]

/-! ### The falling edge -/

/-- The module after a falling edge in the state that the port is in: updates, and TDO while shifting. -/
def Module.fall (m : Module) (scans : Bool) : Module :=
  { m with
    ir := match m.tap with | .reset => irBYPASS | .updIr => m.irShift | _ => m.ir
    boundary := if m.tap = .updDr && irScans m.ir then m.dr else m.boundary
    tdo := match m.tap with
      | .shiftIr => some (m.irShift.getLsbD 0)
      | .shiftDr => some (if scans then m.dr.headD false else m.bypass)
      | _ => none }

section fall
variable (m : Module) (scans : Bool)

@[simp] theorem Module.fall_tap : (m.fall scans).tap = m.tap := rfl
@[simp] theorem Module.fall_aux : (m.fall scans).aux = m.aux := rfl

/-- Test-Logic-Reset selects BYPASS and drives no TDO. -/
theorem Module.fall_reset (h : m.tap = .reset) : (m.fall scans).ir = irBYPASS ∧ (m.fall scans).tdo = none := by
  simp [Module.fall, h]

/-- At Update-DR the boundary-scan register, where it is selected, takes what was shifted. -/
theorem Module.fall_updDr (h : m.tap = .updDr) (hs : irScans m.ir = true) : (m.fall scans).boundary = m.dr := by
  simp [Module.fall, h, hs]

/-- In Shift-DR the BYPASS bit leaves on TDO where no longer register is selected. -/
theorem Module.fall_tdo_bypass (h : m.tap = .shiftDr) : (m.fall false).tdo = some m.bypass := by
  simp [Module.fall, h]

end fall

/-- The state in which a falling edge finds the port after the debug access port has acted. -/
def State.tapActed (s : State) : State :=
  if s.module.tap = .updDr && s.debugs then s.debugAccess ((s.module.dr.zipIdx).foldl (fun n e => n + bit e.1 e.2) 0) else s

/-- A falling edge lets the debug access port act, and then changes the module. -/
theorem State.tapFall_eq :
    s.tapFall = s.tapActed.modModule (fun m => m.fall (irScans s.tapActed.module.ir || s.tapActed.debugs)) := by
  unfold State.tapFall
  refine congrArg s.tapActed.modModule (funext fun m => ?_)
  unfold Module.fall
  rcases h : m.tap
  case updDr => cases irScans m.ir <;> simp [h]
  all_goals simp [h, State.tapActed]

/-- Outside Update-DR, and where the debug access port is not selected, it does not act. -/
theorem State.tapActed_of_quiet (h : s.module.tap ≠ .updDr ∨ s.debugs = false) : s.tapActed = s := by
  rcases h with h | h <;> simp [State.tapActed, h]

/-- At Update-DR the debug access port, where it is selected, acts on the updated register. -/
theorem State.tapActed_of_update (h : s.module.tap = .updDr) (hd : s.debugs = true) :
    s.tapActed = s.debugAccess ((s.module.dr.zipIdx).foldl (fun n e => n + bit e.1 e.2) 0) := by
  simp [State.tapActed, h, hd]

/-! ### The debug access port -/

@[simp] theorem State.latchRead_module (pg o : Nat) : (s.latchRead pg o).module = s.module := by
  unfold State.latchRead
  split_ifs <;> simp -implicitDefEqProofs

/-- The debug access port leaves the module, but for its clock and the word that it holds for the next capture. -/
theorem State.debugAccess_still (w : Nat) : ∃ v, (s.debugAccess w).still = { s.still with debug := v } := by
  unfold State.debugAccess
  dsimp only
  split
  case h_1 => exact ⟨_, by simp [State.still, State.readWord]; rfl⟩
  case h_2 => exact ⟨_, rfl⟩
  case h_3 =>
    refine ⟨s.module.debug, ?_⟩
    split
    · exact s.writeWord_still _ _ _
    · rfl
  case h_4 =>
    refine ⟨s.module.debug, ?_⟩
    split <;> rfl
  case h_5 =>
    refine ⟨s.module.debug, ?_⟩
    split <;> rfl
  case h_6 => exact ⟨_, rfl⟩
  case h_7 => exact ⟨s.module.debug, rfl⟩

theorem State.tapActed_still : ∃ v, s.tapActed.still = { s.still with debug := v } := by
  unfold State.tapActed
  split
  · exact s.debugAccess_still _
  · exact ⟨s.module.debug, rfl⟩

@[simp] theorem State.tapFall_tap : s.tapFall.module.tap = s.module.tap := by
  obtain ⟨v, h⟩ := s.tapActed_still
  have kept : s.tapActed.module.tap = s.module.tap := by simpa [State.still] using congrArg Module.tap h
  simp [State.tapFall_eq, kept]

@[simp] theorem State.tapFall_aux : s.tapFall.module.aux = s.module.aux := by
  obtain ⟨v, h⟩ := s.tapActed_still
  have kept : s.tapActed.module.aux = s.module.aux := by simpa [State.still] using congrArg Module.aux h
  simp [State.tapFall_eq, kept]

/-- A falling edge without an access changes the module only. -/
theorem State.tapFall_of_quiet (h : s.module.tap ≠ .updDr ∨ s.debugs = false) :
    s.tapFall = s.modModule (fun m => m.fall (irScans s.module.ir || s.debugs)) := by
  rw [State.tapFall_eq, s.tapActed_of_quiet h]

/-! ### A period of TCK -/

/-- The state between the edges of a period: the rising edge has acted, and the port is in its next state. -/
def State.tapMoved (s : State) (tms tdi : Bool) : State :=
  (s.tapRise tdi).modModule (fun m => { m with tap := m.tap.next tms })

/-- With TRST_N low the port is in Test-Logic-Reset. -/
def State.tapHeld (s : State) : State := s.modModule (fun m => { m with tap := .reset })

theorem exec_jtagTapClock (haux : s.module.aux = true) (tms tdi trst : Bool) :
    exec (.jtagTapClock tms tdi trst) s = .next (if trst then s.tapHeld else s.tapMoved tms tdi).tapFall := by
  show execJtagTapClock tms tdi trst s = _
  cases trst <;> simp [execJtagTapClock, haux, State.tapHeld, State.tapMoved]

@[simp] theorem State.tapMoved_tap (tms tdi : Bool) : (s.tapMoved tms tdi).module.tap = s.module.tap.next tms := by
  simp [State.tapMoved]

@[simp] theorem State.tapMoved_aux (tms tdi : Bool) : (s.tapMoved tms tdi).module.aux = s.module.aux := by
  simp [State.tapMoved]

@[simp] theorem State.tapMoved_ir (tms tdi : Bool) : (s.tapMoved tms tdi).module.ir = s.module.ir := by
  simp [State.tapMoved]

@[simp] theorem State.tapMoved_debugs (tms tdi : Bool) : (s.tapMoved tms tdi).debugs = s.debugs := by
  simp [State.tapMoved, State.debugs]

theorem State.debugs_of_ir (h : s.module.ir ≠ irDEBUG) : s.debugs = false := by simp [State.debugs, h]

/-- A period in which the debug access port does not act. -/
theorem exec_period_of_quiet (haux : s.module.aux = true) (tms tdi : Bool)
    (h : s.module.tap.next tms ≠ .updDr ∨ s.debugs = false) :
    exec (.jtagTapClock tms tdi false) s =
      .next ((s.tapMoved tms tdi).modModule (fun m => m.fall (irScans s.module.ir || s.debugs))) := by
  rw [exec_jtagTapClock s haux]
  simp only [Bool.false_eq_true, if_false]
  rw [(s.tapMoved tms tdi).tapFall_of_quiet (by simpa using h)]
  simp

/-- Every period takes the port to its next state, and Test-Logic-Reset selects BYPASS. -/
theorem exec_period (haux : s.module.aux = true) (tms tdi : Bool) :
    ∃ u, exec (.jtagTapClock tms tdi false) s = .next u ∧ u.module.aux = true ∧ u.module.tap = s.module.tap.next tms ∧
      (u.module.tap = .reset → u.module.ir = irBYPASS) := by
  refine ⟨(s.tapMoved tms tdi).tapFall, by simp [exec_jtagTapClock s haux], by simp [haux], by simp, fun h => ?_⟩
  rw [State.tapFall_tap] at h
  rw [State.tapFall_of_quiet _ (.inl (by rw [h]; decide))]
  exact (Module.fall_reset _ _ h).1

/-- Five periods with TMS high lead to Test-Logic-Reset from every state of the port. -/
theorem Tap.next_five (t : Tap) : ((((t.next true).next true).next true).next true).next true = .reset := by
  cases t <;> rfl

end Sys2Proof.Machine
end

section
/-! SUPPORT. The debug access port: what each of its operations does, and the theorem about the test access port (00 R6;
12 R346, R355; 14 R397). -/

namespace Sys2Proof.Machine

variable (s : State)

/-! ### Operations of the debug access port -/

/-- What a register reads as does not depend on the module. -/
theorem State.modModule_regWord (f : Module → Module) (pg o : Nat) : (s.modModule f).regWord pg o = s.regWord pg o :=
  rfl

/-- Operation 1 holds a register's word. -/
theorem State.debugAccess_read {w : Nat} (h : bits w 95 92 = 1) :
    (s.debugAccess w).module.debug = s.regWord (bits w 91 80) (bits w 79 68) := by
  simp [State.debugAccess, h, State.readWord]

/-- Operation 2 holds a stored word of a scratchpad. -/
theorem State.debugAccess_scratchpad {w : Nat} (h : bits w 95 92 = 2) (hu : bits w 83 65 < spdUnits) :
    (s.debugAccess w).module.debug = ((s.tile (bits w 91 84)).spd.get (bits w 83 65 * 32 + bits w 64 60) 0).toNat := by
  simp [State.debugAccess, h, hu]

/-- Operation 3 writes a register of a page that takes accesses, and no GO of the mailbox. -/
theorem State.debugAccess_write {w : Nat} (h : bits w 95 92 = 3) (ho : s.pageOpen (bits w 91 80) = true) :
    s.debugAccess w = s.writeWord (bits w 91 80) (bits w 79 68) (BitVec.ofNat 32
      (if bits w 91 80 = pgMGT ∧ bits w 79 68 = 0x100 then bits w 31 0 % 2 ^ 31 else bits w 31 0)) := by
  simp [State.debugAccess, h, ho]

/-- Operation 5 halts a tile. -/
theorem State.debugAccess_halt {w : Nat} (h : bits w 95 92 = 5) (ho : s.pageOpen (pgTIL (bits w 91 84)) = true) :
    (s.debugAccess w).seqState (bits w 91 84) = seqHALTED := by
  simp [State.debugAccess, h, ho, State.seqState, State.setSeqState, seqHALTED]

/-! ### The mailbox registers -/

/-- The page of the management complex always takes accesses. -/
theorem State.pageOpen_mgt : s.pageOpen pgMGT = true := by
  simp [State.pageOpen, State.pageDisabled, State.pageInReset, regionOfPage, pgMGT, allPages]

theorem State.keepOld_mgt (f : Fld) : s.keepOld pgMGT f = s := by simp [State.keepOld, pgMGT]

/-- A field of the management page that hosts write takes its bits, where the device has not just changed it. -/
theorem State.writeField_mgt_rw (f : Fld) (w : Nat) (hf : f.acc = .rw) :
    s.writeField pgMGT f w = s.hostSet pgMGT f (bits w f.hi f.lo) := by
  simp [State.writeField, State.keepOld_mgt, hf]

/-- No register of the management page is shut to writes by a ring that is on. -/
theorem State.writable_mgt (o : Nat) : s.writable pgMGT o = true := by
  simp [State.writable, pgMGT, pgHIF, pgETU]

theorem State.writeSets_mgt (o : Nat) : s.writeSets pgMGT o = s := by simp [State.writeSets, pgMGT, pgICH, pgHIF]

/-- ARG0 is the one field at its offset. -/
theorem State.plainWrite_arg0 (w : Nat) :
    s.plainWrite pgMGT 0x104 w = s.writeField pgMGT (Reg.MGT_ARG_WORD.at 0) w := by
  have own : hasOwnRow pgMGT 0x104 = false := by decide
  simp only [State.plainWrite, own, s.writable_mgt]
  rfl

theorem State.plainWrite_cmd (w : Nat) : s.plainWrite pgMGT 0x100 w = s.writeCommand w := by
  have own : hasOwnRow pgMGT 0x100 = false := by decide
  simp only [State.plainWrite, own, s.writable_mgt]
  rfl

/-- A word with no row of its own on the management page is written by the access codes of its fields alone. -/
theorem State.writeWord_mgt (o : Nat) (v : BitVec 32) (own : hasOwnRow pgMGT o = false) :
    s.writeWord pgMGT o v = s.plainWrite pgMGT o v.toNat := by
  simp only [State.writeWord, own, State.writeSets_mgt, ite_self, Bool.false_eq_true, if_false]

/-- A write of ARG0. -/
theorem State.writeWord_arg0 (v : BitVec 32) (hm : s.devMet pgMGT (Reg.MGT_ARG_WORD.at 0) = false) :
    (s.writeWord pgMGT 0x104 v).arg 0 = v.toNat := by
  rw [s.writeWord_mgt _ _ (by decide), s.plainWrite_arg0, s.writeField_mgt_rw _ _ rfl]
  have whole : bits v.toNat 31 0 % 2 ^ 32 = v.toNat := by
    have := v.isLt
    simp only [bits, Nat.shiftRight_zero]
    omega
  simp only [State.hostSet, hm, Bool.false_eq_true, if_false, State.arg, State.getF_setF_same]
  exact whole

/-- A write of MGT_CMD without GO leaves GO. -/
theorem State.writeWord_cmd_go (v : BitVec 32) (hv : v.toNat.testBit 31 = false) :
    (s.writeWord pgMGT 0x100 v).getF pgMGT Reg.MGT_CMD_GO = s.getF pgMGT Reg.MGT_CMD_GO := by
  have kept : ∀ (u : State) (f : Fld), f.acc = .rw → f.off < 0x10000 → f.lo < 31 →
      (u.writeField pgMGT f v.toNat).getF pgMGT Reg.MGT_CMD_GO = u.getF pgMGT Reg.MGT_CMD_GO := by
    intro u f ha ho hl
    rw [u.writeField_mgt_rw f _ ha, State.hostSet]
    split
    · rfl
    · exact u.getF_setF_place pgMGT f Reg.MGT_CMD_GO _ ho (by decide) (by omega) (by decide) (.inr (by simp [Reg.MGT_CMD_GO]; omega))
  rw [s.writeWord_mgt _ _ (by decide), s.plainWrite_cmd]
  simp only [State.writeCommand, hv, Bool.not_false, if_true]
  rw [kept _ _ rfl (by decide) (by decide), kept _ _ rfl (by decide) (by decide)]

/-! ### The debug access port in Update-DR -/

/-- The word that is in the debug register at Update-DR. -/
def Module.debugWord (m : Module) : Nat := (m.dr.zipIdx).foldl (fun (n : Nat) e => n + bit e.1 e.2) 0

/-- The state in which the debug access port acts. -/
def State.updating (s : State) : State := s.modModule (fun m => { m with tap := .updDr })

/-- A period that leads to Update-DR with the debug access port selected: it acts, and the falling edge changes the module. -/
theorem exec_debug_period (haux : s.module.aux = true) (tdi : Bool) (ht : s.module.tap = .exit1Dr ∨ s.module.tap = .exit2Dr)
    (hir : s.module.ir = 8) (hd : s.mgmt.daport = true) : ∃ scans : Bool, exec (.jtagTapClock true tdi false) s =
      .next ((s.updating.debugAccess s.module.debugWord).modModule (fun m => m.fall scans)) := by
  have moved : s.tapMoved true tdi = s.updating := by
    rw [State.tapMoved, s.tapRise_exit tdi ht]
    rcases ht with h | h <;> simp [State.updating, State.modModule, h, Tap.next]
  have acts : s.updating.tapActed = s.updating.debugAccess s.module.debugWord :=
    s.updating.tapActed_of_update rfl (by simp [State.debugs, State.updating, hir, hd, irDEBUG])
  rw [exec_jtagTapClock s haux]
  simp only [Bool.false_eq_true, if_false]
  rw [moved, State.tapFall_eq, acts]
  exact ⟨_, rfl⟩

/-! ### The parts of the statement -/

section parts
variable {s}

/-- TRST_N low, and TMS high in Select-IR-Scan or Test-Logic-Reset, lead to Test-Logic-Reset, where BYPASS is selected. -/
theorem completes_test_logic_reset (haux : s.module.aux = true) (tdi trst : Bool)
    (h : trst = true ∨ s.module.tap = .selIr ∨ s.module.tap = .reset) :
    Completes (.jtagTapClock true tdi trst) s (fun u =>
      u.module.tap = .reset ∧ u.module.ir = 0xF ∧ u.module.tdo = none) := by
  have fallen : ∀ z : State, z.module.tap = .reset →
      z.tapFall.module.tap = .reset ∧ z.tapFall.module.ir = 0xF ∧ z.tapFall.module.tdo = none := by
    intro z hz
    rw [z.tapFall_of_quiet (.inl (by rw [hz]; decide))]
    exact ⟨hz, z.module.fall_reset _ hz⟩
  refine ⟨_, exec_jtagTapClock s haux true tdi trst, fallen _ ?_⟩
  cases trst
  · rcases h with h | h | h
    · cases h
    · simp [h, Tap.next]
    · simp [h, Tap.next]
  · rfl

/-- Five periods with TMS high reach Test-Logic-Reset. -/
theorem exec_five_periods (haux : s.module.aux = true) (t1 t2 t3 t4 t5 : Bool) :
    ∃ u1 u2 u3 u4 u5, exec (.jtagTapClock true t1 false) s = .next u1 ∧
      exec (.jtagTapClock true t2 false) u1 = .next u2 ∧ exec (.jtagTapClock true t3 false) u2 = .next u3 ∧
      exec (.jtagTapClock true t4 false) u3 = .next u4 ∧ exec (.jtagTapClock true t5 false) u4 = .next u5 ∧
      u5.module.tap = .reset ∧ u5.module.ir = 0xF := by
  obtain ⟨u1, e1, a1, n1, -⟩ := exec_period s haux true t1
  obtain ⟨u2, e2, a2, n2, -⟩ := exec_period u1 a1 true t2
  obtain ⟨u3, e3, a3, n3, -⟩ := exec_period u2 a2 true t3
  obtain ⟨u4, e4, a4, n4, -⟩ := exec_period u3 a3 true t4
  obtain ⟨u5, e5, a5, n5, r5⟩ := exec_period u4 a4 true t5
  have last : u5.module.tap = .reset := by rw [n5, n4, n3, n2, n1, Tap.next_five]
  exact ⟨u1, u2, u3, u4, u5, e1, e2, e3, e4, e5, last, r5 last⟩

/-- BYPASS delays TDI by one period. -/
theorem completes_bypass (haux : s.module.aux = true) (tdi : Bool) (ht : s.module.tap = .shiftDr) (hir : s.module.ir = 0xF) :
    Completes (.jtagTapClock false tdi false) s (fun u =>
      u.module.bypass = tdi ∧ u.module.tdo = some tdi ∧ u.module.tap = .shiftDr) := by
  have hs : irScans s.module.ir = false := by rw [hir]; decide
  have hd : s.debugs = false := s.debugs_of_ir (by rw [hir]; decide)
  have next : (s.tapMoved false tdi).module.tap = .shiftDr := by simp [ht, Tap.next]
  have taken : (s.tapMoved false tdi).module.bypass = tdi := s.tapRise_bypass tdi ht hs hd
  refine ⟨_, exec_period_of_quiet s haux false tdi (.inr hd), taken, ?_, next⟩
  rw [hs, hd]
  exact (Module.fall_tdo_bypass _ next).trans (congrArg some taken)

/-- The instruction register shifts toward its first cell, and TDI enters at the last. -/
theorem completes_shift_ir (haux : s.module.aux = true) (tms tdi : Bool) (ht : s.module.tap = .shiftIr) :
    Completes (.jtagTapClock tms tdi false) s (fun u =>
      u.module.irShift.toNat = s.module.irShift.toNat / 2 + (if tdi then 8 else 0)) := by
  have shifted : ∀ (x : BitVec 4) (b : Bool), ((x >>> 1) ||| (if b then 8 else 0)).toNat = x.toNat / 2 + (if b then 8 else 0) := by
    decide
  refine ⟨_, exec_period_of_quiet s haux tms tdi (.inl (by rw [ht]; cases tms <;> decide)), ?_⟩
  show (s.tapRise tdi).module.irShift.toNat = _
  rw [s.tapRise_shiftIr tdi ht, shifted]

theorem irScans_of {ir : BitVec 4} (h : ir = 0 ∨ ir = 1) : irScans ir = true := by
  rcases h with rfl | rfl <;> rfl

theorem State.debugs_of_scans (h : s.module.ir = 0 ∨ s.module.ir = 1) : s.debugs = false := by
  refine s.debugs_of_ir ?_
  rcases h with h | h <;> rw [h] <;> decide

/-- The boundary-scan register captures the pins, or what EXTEST drives. -/
theorem completes_capture (haux : s.module.aux = true) (tms tdi : Bool) (ht : s.module.tap = .capDr)
    (hir : s.module.ir = 0 ∨ s.module.ir = 1) : Completes (.jtagTapClock tms tdi false) s (fun u =>
      u.module.dr.length = 30 ∧
      (s.module.ir = 1 → ∀ i b, (i, b) ∈ [(0, s.module.resetHigh), (1, s.module.pwrGood), (2, !s.alertLow),
          (3, !s.module.trip)] ++ (List.range 4).map (fun k => (5 + k, s.hif.ingrdy.testBit k)) ++
          (List.range 7).map (fun k => (9 + k, s.module.pos.getLsbD k)) → u.module.dr[i]? = some b) ∧
      (s.module.ir = 1 → s.franks.driveUntil.isSome = true → u.module.dr[4]? = some false) ∧
      (s.module.ir = 0 → s.module.boundary.length = 30 → ∀ i, (1 ≤ i ∧ i ≤ 8 ∨ i = 17 ∨ 20 ≤ i ∧ i ≤ 23) →
        u.module.dr[i]? = s.module.boundary[i]?)) := by
  have captured : (s.tapRise tdi).module.dr = s.captureCells.1 := s.tapRise_capture tdi ht (irScans_of hir)
  have samples : s.module.ir = 1 → s.module.ir ≠ irEXTEST := fun h => by rw [h]; decide
  refine ⟨_, exec_period_of_quiet s haux tms tdi (.inr (State.debugs_of_scans hir)), ?_⟩
  show (s.tapRise tdi).module.dr.length = 30 ∧ (s.module.ir = 1 → ∀ i b, _ → (s.tapRise tdi).module.dr[i]? = some b) ∧
    (s.module.ir = 1 → _ → (s.tapRise tdi).module.dr[4]? = some false) ∧
    (s.module.ir = 0 → _ → ∀ i, _ → (s.tapRise tdi).module.dr[i]? = s.module.boundary[i]?)
  rw [captured]
  refine ⟨s.captureCells_length, fun h i b hb => ?_, fun h hf => ?_, fun h hl i hi => ?_⟩
  · refine s.captureCells_getElem? ?_ (s.pin_of_sample haux (samples h) hb)
    simp only [List.mem_append, List.mem_cons, List.not_mem_nil, or_false, List.mem_map, List.mem_range, Prod.mk.injEq] at hb
    omega
  · exact s.captureCells_getElem? (by decide) (s.pin_frank (samples h) hf)
  · have hi30 : i < s.module.boundary.length := by omega
    rw [List.getElem?_eq_getElem hi30]
    refine s.captureCells_getElem? (by omega) ?_
    rw [s.pin_of_extest h (by rw [ht]; decide) hi, List.getElem?_eq_getElem hi30]

/-- The boundary-scan register shifts. -/
theorem completes_shift_boundary (haux : s.module.aux = true) (tms tdi : Bool) (ht : s.module.tap = .shiftDr)
    (hir : s.module.ir = 0 ∨ s.module.ir = 1) :
    Completes (.jtagTapClock tms tdi false) s (fun u => u.module.dr = s.module.dr.drop 1 ++ [tdi]) :=
  ⟨_, exec_period_of_quiet s haux tms tdi (.inr (State.debugs_of_scans hir)), s.tapRise_shift tdi ht (irScans_of hir)⟩

/-- At Update-DR the boundary-scan register takes what was shifted. -/
theorem completes_update_boundary (haux : s.module.aux = true) (tdi : Bool)
    (ht : s.module.tap = .exit1Dr ∨ s.module.tap = .exit2Dr) (hir : s.module.ir = 0 ∨ s.module.ir = 1) :
    Completes (.jtagTapClock true tdi false) s (fun u => u.module.tap = .updDr ∧ u.module.boundary = s.module.dr) := by
  have next : (s.tapMoved true tdi).module.tap = .updDr := by rcases ht with h | h <;> simp [h, Tap.next]
  have shifted : (s.tapMoved true tdi).module.dr = s.module.dr := by simp [State.tapMoved, s.tapRise_exit tdi ht]
  refine ⟨_, exec_period_of_quiet s haux true tdi (.inr (State.debugs_of_scans hir)), next, ?_⟩
  rw [← shifted]
  exact Module.fall_updDr _ _ next (by rw [s.tapMoved_ir]; exact irScans_of hir)

/-- What the debug access port does to a part that is not sealed. -/
theorem completes_debug (haux : s.module.aux = true) (tdi : Bool) (ht : s.module.tap = .exit1Dr ∨ s.module.tap = .exit2Dr)
    (hir : s.module.ir = 8) (hd : s.mgmt.daport = true) :
    let w := (s.module.dr.zipIdx).foldl (fun (n : Nat) e => n + bit e.1 e.2) 0
    let op := bits w 95 92
    let pg := bits w 91 80
    let off := bits w 79 68
    let runs := Completes (.jtagTapClock true tdi false) s
    (op = 1 → runs (fun u => u.module.debug = s.regWord pg off)) ∧
    (op = 2 → bits w 83 65 < spdUnits → runs (fun u =>
      u.module.debug = ((s.tile (bits w 91 84)).spd.get (bits w 83 65 * 32 + bits w 64 60) 0).toNat)) ∧
    (op = 3 → pg = pgMGT → off = 0x104 → s.devMet pgMGT (Reg.MGT_ARG_WORD.at 0) = false →
      runs (fun u => u.arg 0 = bits w 31 0)) ∧
    (op = 3 → pg = pgMGT → off = 0x100 → runs (fun u => u.getF pgMGT Reg.MGT_CMD_GO = s.getF pgMGT Reg.MGT_CMD_GO)) ∧
    (op = 5 → s.pageOpen (pgTIL (bits w 91 84)) = true → runs (fun u => u.seqState (bits w 91 84) = seqHALTED)) := by
  intro w op pg off runs
  obtain ⟨scans, ends⟩ := exec_debug_period s haux tdi ht hir hd
  have opened : s.updating.pageOpen pgMGT = true := s.updating.pageOpen_mgt
  refine ⟨fun ho => ⟨_, ends, ?_⟩, fun ho hu => ⟨_, ends, ?_⟩, fun ho hp hf hm => ⟨_, ends, ?_⟩,
    fun ho hp hf => ⟨_, ends, ?_⟩, fun ho hp => ⟨_, ends, ?_⟩⟩
  · exact (s.updating.debugAccess_read ho).trans (s.modModule_regWord _ _ _)
  · exact s.updating.debugAccess_scratchpad ho hu
  · have word : bits w 31 0 < 2 ^ 32 := Nat.mod_lt _ (by decide)
    have page : bits w 91 80 = pgMGT := hp
    have offset : bits w 79 68 = 0x104 := hf
    show (s.updating.debugAccess w).arg 0 = bits w 31 0
    rw [s.updating.debugAccess_write ho (by rw [page]; exact opened), page, offset, s.updating.writeWord_arg0 _ hm]
    simpa using word
  · have page : bits w 91 80 = pgMGT := hp
    have offset : bits w 79 68 = 0x100 := hf
    show (s.updating.debugAccess w).getF pgMGT Reg.MGT_CMD_GO = s.getF pgMGT Reg.MGT_CMD_GO
    rw [s.updating.debugAccess_write ho (by rw [page]; exact opened), page, offset, s.updating.writeWord_cmd_go]
    · rfl
    · simp only [and_self, if_true, BitVec.toNat_ofNat]
      exact Nat.testBit_lt_two_pow (by omega)
  · exact s.updating.debugAccess_halt ho hp

/-- Where the debug access port is not selected, or sealed away, a period leaves registers, tiles and the management complex. -/
theorem completes_without_debug (haux : s.module.aux = true) (tms tdi trst : Bool)
    (h : s.module.ir ≠ 8 ∨ s.mgmt.daport = false) :
    Completes (.jtagTapClock tms tdi trst) s (fun u => u.regs = s.regs ∧ u.tiles = s.tiles ∧ u.mgmt = s.mgmt) := by
  have hd : s.debugs = false := by
    rcases h with h | h
    · exact s.debugs_of_ir h
    · simp [State.debugs, h]
  cases trst
  · exact ⟨_, exec_period_of_quiet s haux tms tdi (.inr hd), by simp [State.tapMoved]⟩
  · refine ⟨_, exec_jtagTapClock s haux tms tdi true, ?_⟩
    simp only [if_true, s.tapHeld.tapFall_of_quiet (.inr hd)]
    exact ⟨rfl, rfl, rfl⟩

end parts

/-- Settles O50: each part follows from what the two edges of TCK do; that five periods always reach Test-Logic-Reset needs that
an access of the debug port leaves the port's own state. -/
theorem testPort : Obligations.TestPort := by
  unfold Obligations.TestPort
  intro s haux
  exact ⟨completes_test_logic_reset haux, exec_five_periods haux, completes_bypass haux, completes_shift_ir haux,
    completes_capture haux, completes_shift_boundary haux, completes_update_boundary haux, completes_debug haux,
    completes_without_debug haux⟩

end Sys2Proof.Machine
end

section
/-! SUPPORT. What the collection of a round, teardowns, links that resume and the Letterbook leave of the state a round begins from
(01 R24, R28; 10 R292, R300): the registers of the device and of the partitions, the bank in force, the tiles' registers and where
the partitions' rounds stand. -/

namespace Sys2Proof.Machine

variable (s : State)

/-! ### The view that a round begins from -/

/-- Registers that a round begins from: of the pages below the regions', the bank in force, and those that start a tile. -/
def RoundReg (pg : Nat) (f : Fld) : Prop :=
  (pg < 0x010 ∧ f.off < 0x10000 ∧ f.lo < 32) ∨
  (∃ q, q < 4 ∧ pg = pgICH ∧ f = Reg.ICH_SWAP_GEN.at q) ∨
  ∃ t, pg = pgTIL t ∧ (f = Reg.TIL_SEQ_STAT_STATE ∨ f = Reg.TIL_SEQ_CODE_ENTRY)

/-- What of a partition only its own round starts, stops and recovery change. -/
def Part.steady (x : Part) : Part :=
  { x with launchNt := none, manifests := [], collections := [], delivered := [], maxRound := none, swapNt := none, heldBank := none,
           fenceAsked := false, deputyNext := false, deputy := false }

section steady
variable (x : Part)

@[simp] theorem Part.steady_image : x.steady.image = x.image := rfl
@[simp] theorem Part.steady_gear : x.steady.gear = x.gear := rfl
@[simp] theorem Part.steady_startNt : x.steady.startNt = x.startNt := rfl
@[simp] theorem Part.steady_nextNt : x.steady.nextNt = x.nextNt := rfl
@[simp] theorem Part.steady_nextRound : x.steady.nextRound = x.nextRound := rfl
@[simp] theorem Part.steady_stopNt : x.steady.stopNt = x.stopNt := rfl
@[simp] theorem Part.steady_decision : x.steady.decision = x.decision := rfl
@[simp] theorem Part.steady_starts : x.steady.starts = x.starts := rfl

end steady

/-- What a round begins from: time, the registers, what is steady of each partition, and the tiles' registers. -/
structure RoundView where
  nt : Nat
  reg : { r : Nat × Fld // RoundReg r.1 r.2 } → Nat
  part : Nat → Part
  arch : Nat → Arch

def State.roundView (s : State) : RoundView :=
  ⟨s.nt, fun r => s.getF r.1.1 r.1.2, fun q => (s.part q).steady, fun t => (s.tile t).arch⟩

section read
variable {s} {u : State} (h : u.roundView = s.roundView)
include h

theorem nt_of_roundView : u.nt = s.nt := congrArg RoundView.nt h

theorem getF_of_roundView {pg : Nat} {f : Fld} (hr : RoundReg pg f) : u.getF pg f = s.getF pg f :=
  congrFun (congrArg RoundView.reg h) ⟨(pg, f), hr⟩

theorem part_of_roundView (q : Nat) : (u.part q).steady = (s.part q).steady := congrFun (congrArg RoundView.part h) q

theorem arch_of_roundView (t : Nat) : (u.tile t).arch = (s.tile t).arch := congrFun (congrArg RoundView.arch h) t

end read

/-! ### Registers aside from it -/

/-- A field at another place than those of the tiles that a round begins from. -/
def Fld.apart (f : Fld) : Bool :=
  decide (f.off < 0x10000) && decide (f.lo < 32) && !(f.off == 0x100 && f.lo == 29) && !(f.off == 0x160 && f.lo == 0)

/-- A register that no round begins from. -/
def aside (pg : Nat) (f : Fld) : Bool := decide (0x010 ≤ pg) && f.apart && (pg != pgICH || f.lo != 0)

/-- On the pages of tiles and of tenants. -/
theorem aside_far {pg : Nat} {f : Fld} (h : 0x100 ≤ pg) (hf : f.apart = true) : aside pg f = true := by
  have : 0x010 ≤ pg ∧ pg ≠ pgICH := by simp only [pgICH]; omega
  simp [aside, hf, this]

theorem key_ne_of_aside {pg pg' : Nat} {f f' : Fld} (h : aside pg f = true) (hr : RoundReg pg' f') : f.key pg ≠ f'.key pg' := by
  simp only [aside, Fld.apart, Bool.and_eq_true, Bool.or_eq_true, bne_iff_ne, Bool.not_eq_true', Bool.and_eq_false_iff,
    beq_eq_false_iff_ne, decide_eq_true_eq] at h
  obtain ⟨⟨hp, ⟨⟨ho, hl⟩, hs⟩, he⟩, hg⟩ := h
  intro e
  obtain ⟨hp', ho', hl'⟩ | ⟨q, hq, rfl, rfl⟩ | ⟨t, rfl, rfl | rfl⟩ := hr
  · have := ((Fld.key_inj ho ho' hl hl').mp e).1
    omega
  · obtain ⟨hpg, -, hlo⟩ := (Fld.key_inj ho (by simp [Fld.at, Reg.ICH_SWAP_GEN]; omega) hl (by simp [Fld.at, Reg.ICH_SWAP_GEN])).mp e
    exact hg.elim (fun h => h hpg) (fun h => h hlo)
  · obtain ⟨-, hoff, hlo⟩ := (Fld.key_inj ho (by decide) hl (by decide)).mp e
    exact hs.elim (fun h => h hoff) (fun h => h hlo)
  · obtain ⟨-, hoff, hlo⟩ := (Fld.key_inj ho (by decide) hl (by decide)).mp e
    exact he.elim (fun h => h hoff) (fun h => h hlo)

/-! ### The primitive updates -/

theorem State.roundView_ite {c : Prop} [Decidable c] {a b : State} (ha : a.roundView = s.roundView) (hb : b.roundView = s.roundView) :
    (if c then a else b).roundView = s.roundView := by
  split
  · exact ha
  · exact hb

/-- Where time, registers, partitions and tiles stay, the view stays. -/
theorem State.roundView_of {u : State} (hn : u.nt = s.nt) (hr : u.regs = s.regs) (hp : u.parts = s.parts) (ht : u.tiles = s.tiles) :
    u.roundView = s.roundView := by
  simp only [State.roundView, State.getF, State.part, State.tile, hn, hr, hp, ht]

theorem State.setF_roundView {pg : Nat} {f : Fld} (v : Nat) (h : aside pg f = true) : (s.setF pg f v).roundView = s.roundView := by
  have : (fun r : { r : Nat × Fld // RoundReg r.1 r.2 } => (s.setF pg f v).getF r.1.1 r.1.2) = fun r => s.getF r.1.1 r.1.2 :=
    funext (fun r => s.getF_setF_ne pg _ f _ v (key_ne_of_aside h r.2))
  simp only [State.roundView, this, State.setF_nt, State.setF_part, State.setF_tile]

theorem State.addF_roundView {pg : Nat} {f : Fld} (n : Nat) (h : aside pg f = true) : (s.addF pg f n).roundView = s.roundView :=
  s.setF_roundView _ h

theorem State.setFs_roundView {pg : Nat} (l : List (Fld × Nat)) (h : ∀ e ∈ l, aside pg e.1 = true) :
    (s.setFs pg l).roundView = s.roundView := by
  induction l generalizing s with
  | nil => rfl
  | cons e l ih =>
    rw [State.setFs_cons, ih _ (fun x hx => h x (List.mem_cons_of_mem _ hx))]
    exact s.setF_roundView _ (h e List.mem_cons_self)

theorem State.modPart_roundView (p : Nat) (f : Part → Part) (h : ∀ x : Part, (f x).steady = x.steady) :
    (s.modPart p f).roundView = s.roundView := by
  have : (fun q => ((s.modPart p f).part q).steady) = fun q => (s.part q).steady := by
    funext q
    by_cases e : p = q
    · subst e; rw [s.part_modPart_same]; exact h _
    · rw [s.part_modPart_ne _ _ _ e]
  simp only [State.roundView, this, State.modPart_nt, State.modPart_getF, State.modPart_tile]

theorem State.modTile_roundView (t : Nat) (f : Tile → Tile) (h : ∀ x : Tile, (f x).arch = x.arch) :
    (s.modTile t f).roundView = s.roundView := by
  have : (fun k => ((s.modTile t f).tile k).arch) = fun k => (s.tile k).arch := by
    funext k
    by_cases e : t = k
    · subst e; rw [s.tile_modTile_same]; exact h _
    · rw [s.tile_modTile_ne _ _ _ e]
  simp only [State.roundView, this, State.modTile_nt, State.modTile_getF, State.modTile_part]

@[simp] theorem State.modHif_roundView (f : Hif → Hif) : (s.modHif f).roundView = s.roundView :=
  s.roundView_of rfl rfl rfl rfl
@[simp] theorem State.modIch_roundView (f : Ich → Ich) : (s.modIch f).roundView = s.roundView :=
  s.roundView_of rfl rfl rfl rfl
@[simp] theorem State.modLink_roundView (x : Nat) (f : Link → Link) : (s.modLink x f).roundView = s.roundView :=
  s.roundView_of rfl rfl rfl rfl
@[simp] theorem State.modTenant_roundView (t : Nat) (f : Tenant → Tenant) : (s.modTenant t f).roundView = s.roundView :=
  s.roundView_of rfl rfl rfl rfl
@[simp] theorem State.raise_roundView (i : Incident) : (s.raise i).roundView = s.roundView :=
  s.roundView_of rfl rfl rfl rfl
@[simp] theorem State.raiseCode_roundView (c b i : Nat) (p : Option Nat) : (s.raiseCode c b i p).roundView = s.roundView :=
  s.roundView_of rfl rfl rfl rfl
@[simp] theorem State.rewriteControl_roundView (g : Upset → Bool) : (s.rewriteControl g).roundView = s.roundView :=
  s.roundView_of rfl rfl rfl rfl
@[simp] theorem State.dma_roundView (fn : Nat) (w : Bool) (a n : Nat) : (s.dma fn w a n).roundView = s.roundView :=
  s.roundView_of rfl rfl rfl rfl
@[simp] theorem State.pfTransfer_roundView (n : Nat) : (s.pfTransfer n).roundView = s.roundView :=
  s.roundView_of rfl rfl rfl rfl
@[simp] theorem State.askWrite_roundView (r n : Nat) : (s.askWrite r n).roundView = s.roundView :=
  s.roundView_of rfl rfl rfl rfl

/-! ### Interrupts and tenants -/

@[simp] theorem State.modVector_roundView (fn v : Nat) (f : MsixVec → MsixVec) :
    (s.modVector fn v f).roundView = s.roundView := by
  rw [State.modVector_only]; rfl

@[simp] theorem State.msix_roundView (fn v : Nat) : (s.msix fn v).roundView = s.roundView := by
  rw [State.msix_only]; rfl

@[simp] theorem State.vfEvent_roundView (t v : Nat) : (s.vfEvent t v).roundView = s.roundView := by
  simp [State.vfEvent, apply_ite State.roundView]

/-- A register of a tenant's virtual function. -/
theorem State.setV_roundView (t : Nat) {f : Fld} (v : Nat) (h : f.apart = true) : (s.setV t f v).roundView = s.roundView :=
  s.setF_roundView v (aside_far (Nat.le_add_right_of_le (by decide)) h)

@[simp] theorem State.cause_roundView (t c : Nat) : (s.cause t c).roundView = s.roundView := by
  have latched : ∀ v, (s.setV t Reg.VF_INT_STAT_CAUSE v).roundView = s.roundView := fun v => s.setV_roundView t v (by decide)
  simp [State.cause, apply_ite State.roundView, latched]

@[simp] theorem State.showTenant_roundView (t : Nat) : (s.showTenant t).roundView = s.roundView := by
  simp only [State.showTenant]
  rw [State.setFs_roundView, State.setFs_roundView]
  · refine fun e he => aside_far (Nat.le_add_right_of_le (by decide)) ?_
    revert e
    simp only [List.forall_mem_cons, List.not_mem_nil, false_imp_iff, implies_true]
    decide
  · refine fun e he => aside_far (Nat.le_add_right_of_le (by decide)) ?_
    revert e
    simp only [List.forall_mem_cons, List.not_mem_nil, false_imp_iff, implies_true]
    decide

@[simp] theorem State.showPins_roundView : s.showPins.roundView = s.roundView := by
  simp only [State.showPins]
  rw [State.setF_roundView _ _ (by decide), State.setF_roundView _ _ (by decide), State.modHif_roundView]

@[simp] theorem State.settleTenant_roundView (t : Nat) : (s.settleTenant t).roundView = s.roundView := by
  simp [State.settleTenant, State.watermark, apply_ite State.roundView]

@[simp] theorem State.complete_roundView (t st tag r x : Nat) (run : Option (Nat × Nat)) :
    (s.complete t st tag r x run).roundView = s.roundView :=
  s.roundView_of rfl rfl rfl rfl

@[simp] theorem State.completeAll_roundView (t st r : Nat) (l : List Desc) : (s.completeAll t st r l).roundView = s.roundView :=
  s.forEach_same State.roundView _ l (fun u d _ => u.complete_roundView t st d.tag r 0xFFFF none)

@[simp] theorem State.completeUncollected_roundView (t st : Nat) (l : List Desc) :
    (s.completeUncollected t st l).roundView = s.roundView :=
  s.forEach_same State.roundView _ l (fun u _ _ => u.roundView_of rfl rfl rfl rfl)

@[simp] theorem State.removeGathered_roundView (t : Nat) (undr : Bool) : (s.removeGathered t undr).roundView = s.roundView :=
  s.forEach_same State.roundView _ [0, 1, 2, 3] (fun u p _ => u.modPart_roundView p _ (by intro _; simp only [Part.steady]))

@[simp] theorem State.queueReset_roundView (t : Nat) : (s.queueReset t).roundView = s.roundView := by
  have noted : ∀ u : State, (u.setV t Reg.VF_IGQ_STAT_QRST 1).roundView = u.roundView :=
    fun u => u.setV_roundView t 1 (by decide)
  simp [State.queueReset, noted]

@[simp] theorem State.usePointers_roundView (t : Nat) : (s.usePointers t).2.roundView = s.roundView := by
  unfold State.usePointers
  split
  · simp
  · rfl

/-! ### Teardowns -/

theorem State.closeTenant_roundView (k t : Nat) : (s.closeTenant k t).roundView = s.roundView := by
  have closed : ∀ h : Fin 64, (Reg.TIL_HND_CLOSED.at h.val).apart = true := by decide
  simp only [State.closeTenant]
  split
  · rfl
  · refine (State.modTile_roundView _ _ _ (by intro _; rfl)).trans (s.forEach_same State.roundView _ _ (fun u h hh =>
      u.setF_roundView 1 (aside_far (Nat.le_add_right _ _) ?_)))
    have hlt : h < 64 := by
      simp only [State.tenantHandles, List.mem_filter, List.mem_range] at hh
      exact hh.1
    exact closed ⟨h, hlt⟩

theorem State.teardownEffect_roundView (t : Nat) : (s.teardownEffect t).roundView = s.roundView := by
  have far : 0x100 ≤ pgIGT t := Nat.le_add_right_of_le (by decide)
  simp only [State.teardownEffect]
  split
  · rw [State.showTenant_roundView, State.modTenant_roundView,
      State.forEach_same _ State.roundView _ _ (fun u k _ => u.closeTenant_roundView k t), State.set64,
      State.setF_roundView _ _ (aside_far far (by decide)), State.setF_roundView _ _ (aside_far far (by decide))]
  · rfl

@[simp] theorem State.teardowns_roundView (p before : Nat) : (s.teardowns p before).roundView = s.roundView :=
  s.forEach_same State.roundView _ _ (fun u t _ => u.teardownEffect_roundView t)

/-! ### The Letterbook -/

@[simp] theorem State.lbPut_roundView (r : LbData) : (s.lbPut r).roundView = s.roundView :=
  s.roundView_of rfl rfl rfl rfl

@[simp] theorem State.lbRecord_roundView (r : LbData) (n : Nat) : (s.lbRecord r n).roundView = s.roundView := by
  have lost : ∀ u : State, ((u.setF pgHIF Reg.HIF_LB_STAT_LOST 1).addF pgHIF Reg.HIF_LB_LOSTCNT_COUNT 1).roundView = u.roundView :=
    fun u => (State.addF_roundView _ _ (by decide)).trans (u.setF_roundView _ (by decide))
  unfold State.lbRecord
  split
  · rfl
  · cases s.hif.lbGap <;> simp [apply_ite State.roundView, lost]

@[simp] theorem State.lbFrames_roundView (p r : Nat) (l : List LbFrame) : (s.lbFrames p r l).roundView = s.roundView := by
  induction l generalizing s with
  | nil => rfl
  | cons f l ih => rw [State.lbFrames, ih, State.lbRecord_roundView]

@[simp] theorem State.recordCollection_roundView (p c x : Nat) (got : List Gathered) (ex : List (Nat × Desc)) :
    (s.recordCollection p c x got ex).roundView = s.roundView := by
  simp [State.recordCollection]

@[simp] theorem State.launchRecord_roundView (p x : Nat) : (s.launchRecord p x).roundView = s.roundView := by
  simp [State.launchRecord]

/-! ### Collections -/

theorem State.collectTenant_roundView (p n t c : Nat) : (s.collectTenant p n t c).2.2.roundView = s.roundView := by
  have used := s.usePointers_roundView t
  have dropped : ∀ (u : State) (k : Nat), (u.addF pgHIF Reg.HIF_RES_DROP_COUNT k).roundView = u.roundView :=
    fun u k => u.addF_roundView k (by decide)
  simp only [State.collectTenant]
  split
  · exact used
  · split <;> simp [apply_ite State.roundView, dropped, used]

theorem State.underrun_roundView {p : Nat} (hp : p < 4) : (s.underrun p).roundView = s.roundView := by
  have placed : ∀ q : Fin 4, aside pgHIF (Reg.HIF_RP_CTL_UNDERRUN.at q.val) = true := by decide
  rw [State.underrun]
  refine (State.modPart_roundView _ _ _ (by intro _; simp only [Part.steady])).trans ?_
  rw [State.raiseCode_roundView, State.setF_roundView _ _ (placed ⟨p, hp⟩)]

/-- A view that each step of a fold leaves is left by them all. -/
theorem foldl_same {α β γ : Type} (g : β → γ) (f : β → α → β) (l : List α) (b : β) (hf : ∀ b x, g (f b x) = g b) :
    g (l.foldl f b) = g b :=
  List.foldlRecOn l f (motive := fun y => g y = g b) rfl (fun y hy x _ => (hf y x).trans hy)

/-- (The definition is unfolded as a function: applied, the kernel would evaluate the reading of the ring.) -/
theorem State.collectReplay_roundView {p : Nat} (hp : p < 4) {c : Nat} {r : List Gathered × State}
    (answer : s.collectReplay p c = r) : r.2.roundView = s.roundView := by
  have placed : ∀ q : Fin 4, aside pgHIF (Reg.HIF_RP_TAIL_BYTES.at q.val) = true := by decide
  have unfolded : @State.collectReplay = @State.collectReplay := rfl
  conv_rhs at unfolded => delta State.collectReplay
  have answer := (congrFun (congrFun (congrFun unfolded s) p) c).symm.trans answer
  extract_lets head start filled at answer
  generalize s.readReplay p c (filled / 64 + 1) filled start [] false = z at answer
  split at answer
  rename_i got gap stop
  extract_lets read asked moved at answer
  have kept : moved.roundView = s.roundView := by
    have sent : asked.roundView = s.roundView := by rw [State.dma_roundView, State.pfTransfer_roundView]
    clear_value asked
    cases stop
    · exact sent
    · exact (asked.setF_roundView _ (placed ⟨p, hp⟩)).trans sent
  clear_value moved
  split at answer
  · rw [← answer, State.underrun_roundView _ hp, kept]
  · rw [← answer]
    exact (foldl_same (fun a : List Gathered × State => a.2.roundView) _ _ _
      (by intro a r; exact a.2.roundView_of rfl rfl rfl rfl)).trans kept

theorem State.collect_roundView {p : Nat} (hp : p < 4) (n x : Nat) : (s.collect p n x).roundView = s.roundView := by
  unfold State.collect
  extract_lets fresh replay fed
  have taken : ∀ z : List Gathered × State, s.collectReplay p n = z →
      (z.1, ([] : List (Nat × Desc)), z.2).2.2.roundView = s.roundView := fun z answer => s.collectReplay_roundView hp answer
  refine s.roundView_ite rfl ?_
  split
  rename_i got expired u gathered
  have kept : u.roundView = s.roundView := by
    refine (congrArg (fun r => State.roundView r.2.2) gathered).symm.trans ?_
    split
    · exact taken fed rfl
    · refine foldl_same (fun a : List Gathered × List (Nat × Desc) × State => a.2.2.roundView) _ _ _ (fun a t => ?_)
      have one := a.2.2.collectTenant_roundView p n t x
      generalize a.2.2.collectTenant p n t x = r at one ⊢
      exact one
  rw [State.recordCollection_roundView]
  exact (State.modPart_roundView _ _ _ (by intro _; simp only [Part.steady])).trans kept

@[simp] theorem State.ownManifest_roundView (p : Nat) : (s.ownManifest p).roundView = s.roundView := by
  unfold State.ownManifest
  split
  · rfl
  · exact s.modPart_roundView p _ (by intro _; simp only [Part.steady])

/-! ### Banks, links and the end of a round -/

theorem State.showHeld_roundView {p : Nat} (hp : p < 4) : (s.showHeld p).roundView = s.roundView := by
  have placed : ∀ q : Fin 4, aside pgICH (Reg.ICH_SWAP_HELD.at q.val) = true := by decide
  exact (State.setF_roundView _ _ (placed ⟨p, hp⟩)).trans (s.modPart_roundView p _ (by intro _; simp only [Part.steady]))

@[simp] theorem State.resumeLinks_roundView (p : Nat) : (s.resumeLinks p).roundView = s.roundView := by
  have shown : ∀ x ∈ allPorts, aside (linkPage x) (Reg.ICL_STATE_SCHED.shift (linkX x)) = true ∧
      aside (linkPage x) (Reg.ICL_ERR_LEDGER.shift (linkX x)) = true := by decide
  refine s.forEach_same State.roundView _ _ (fun u x hx => ?_)
  obtain ⟨sched, ledger⟩ := shown x (List.mem_filter.mp hx).1
  exact u.roundView_ite (State.setF_roundView _ _ sched)
    ((State.raise_roundView _ _).trans (State.setF_roundView _ _ ledger))

theorem State.endRound_roundView (p n : Nat) : (s.endRound p n).roundView = s.roundView := by
  simp only [State.endRound]
  refine (State.forEach_same _ State.roundView _ _ (by intro u t _; exact u.modTile_roundView t _ (fun _ => rfl))).trans ?_
  exact State.forEach_same _ State.roundView _ _ (by intro u x _; exact u.roundView_of rfl rfl rfl rfl)

@[simp] theorem State.reanchor_roundView : s.reanchor.roundView = s.roundView := by
  unfold State.reanchor
  split <;> rfl

@[simp] theorem State.deputyStarts_roundView (p : Nat) : (s.deputyStarts p).roundView = s.roundView :=
  s.modPart_roundView p _ (by intro _; simp only [Part.steady])

/-! ### Messages between Clerks -/

@[simp] theorem State.windowOf_roundView (h : Hdr) : (s.windowOf h).2.roundView = s.roundView := by
  have matched : (s.rwtMatch h).2.roundView = s.roundView := by
    unfold State.rwtMatch
    split
    · refine s.setFs_roundView _ ?_
      simp only [List.forall_mem_cons, List.not_mem_nil, false_imp_iff, implies_true]
      decide
    · rfl
  unfold State.windowOf
  split
  · split <;> simp_all
  · rfl

@[simp] theorem State.submit_roundView (f : Frame) : (s.submit f).roundView = s.roundView := by
  unfold State.submit
  split
  · rfl
  · simp [State.toPool]
  · rfl

@[simp] theorem State.reportLoaded_roundView (p : Nat) (on : Bool) : (s.reportLoaded p on).roundView = s.roundView := by
  unfold State.reportLoaded
  split
  · rfl
  · split
    · rfl
    · unfold State.tellGovernor
      split
      · rfl
      · exact s.submit_roundView _

end Sys2Proof.Machine
end

section
/-! SUPPORT. The steps of a round start: the round before ends, the next one is entered, the banks swap, its state is kept, and
its tiles start (01 R24, R25, R31; 02 R58; 03 R64; 06 R187; 10 R292). -/

namespace Sys2Proof.Machine

variable (s : State) {p : Nat}

/-! ### Updates of tiles -/

/-- What an update establishes for its own member, and every other update keeps, holds of each member in the end. -/
theorem State.forEach_each {α : Type} (Q : α → State → Prop) (f : State → α → State) (l : List α)
    (keep : ∀ u x y, Q y u → Q y (f u x)) (each : ∀ u x, Q x (f u x)) : ∀ x ∈ l, Q x (s.forEach l f) := by
  induction l generalizing s with
  | nil => exact fun x hx => absurd hx List.not_mem_nil
  | cons a l ih =>
    intro x hx
    rw [State.forEach_cons]
    rcases List.mem_cons.mp hx with rfl | hx
    · exact State.forEach_keeps _ (Q x) f l (fun u y _ h => keep u y x h) (each s x)
    · exact ih _ x hx

theorem State.setSeqState_getF {pg : Nat} {f : Fld} (t st : Nat) (hp : pg < 0x100) (ho : f.off < 0x10000) (hl : f.lo < 32) :
    (s.setSeqState t st).getF pg f = s.getF pg f :=
  s.getF_setF_page _ f st (by decide) ho (by decide) hl (by simp only [pgTIL]; omega)

theorem State.seqState_setSeqState (t k st : Nat) (hst : st < 8) :
    (s.setSeqState t st).seqState k = if t = k then st else s.seqState k := by
  split
  · rename_i h
    subst h
    exact (s.getF_setF_same _ _ st).trans (Nat.mod_eq_of_lt hst)
  · exact s.getF_setF_page _ _ st (by decide) (by decide) (by decide) (by decide) (by simp only [pgTIL]; omega)

theorem State.setTiles_getF {pg : Nat} {f : Fld} (l : List Nat) (st : Nat) (cut : Bool) (hp : pg < 0x100) (ho : f.off < 0x10000)
    (hl : f.lo < 32) : (s.setTiles l st cut).getF pg f = s.getF pg f :=
  s.forEach_same (fun u => u.getF pg f) _ l (fun u t _ => u.setSeqState_getF t st hp ho hl)

@[simp] theorem State.setTiles_nt (l : List Nat) (st : Nat) (cut : Bool) : (s.setTiles l st cut).nt = s.nt :=
  s.forEach_same State.nt _ l (fun _ _ _ => rfl)

@[simp] theorem State.setTiles_parts (l : List Nat) (st : Nat) (cut : Bool) : (s.setTiles l st cut).parts = s.parts :=
  s.forEach_same State.parts _ l (fun _ _ _ => rfl)

@[simp] theorem State.setTiles_part (l : List Nat) (st : Nat) (cut : Bool) (q : Nat) : (s.setTiles l st cut).part q = s.part q := by
  simp only [State.part, State.setTiles_parts]

@[simp] theorem State.setTiles_incidents (l : List Nat) (st : Nat) (cut : Bool) :
    (s.setTiles l st cut).incidents = s.incidents :=
  s.forEach_same State.incidents _ l (fun _ _ _ => rfl)

theorem State.setTiles_seqState (l : List Nat) {st : Nat} (cut : Bool) (hst : st < 8) :
    ∀ t ∈ l, (s.setTiles l st cut).seqState t = st := by
  refine s.forEach_each (fun t u => u.seqState t = st) _ l (fun u x y h => ?_) (fun u x => ?_)
  · rw [State.modTile_seqState, u.seqState_setSeqState x y st hst, h, ite_self]
  · rw [State.modTile_seqState, u.seqState_setSeqState x x st hst, if_pos rfl]

theorem State.setTiles_arch (l : List Nat) (st : Nat) (cut : Bool) (t : Nat) :
    ((s.setTiles l st cut).tile t).arch = (s.tile t).arch := by
  refine s.forEach_same (fun u => (u.tile t).arch) _ l (fun u x _ => ?_)
  by_cases e : x = t
  · subst e
    rw [State.tile_modTile_same]
    cases cut <;> rfl
  · rw [State.tile_modTile_ne _ _ _ _ e]
    rfl

theorem State.setTiles_tile (l : List Nat) (st t : Nat) : (s.setTiles l st false).tile t = s.tile t := by
  refine s.forEach_same (fun u => u.tile t) _ l (fun u x _ => ?_)
  by_cases e : x = t
  · subst e
    rw [State.tile_modTile_same]
    rfl
  · rw [State.tile_modTile_ne _ _ _ _ e]
    rfl

/-! ### The tiles of a partition -/

section tiles
variable {s} {u : State} (ho : ∀ q r, q < 4 → u.ownsRegion q r = s.ownsRegion q r)
include ho

theorem tilesOf_congr (hp : p < 4) : u.tilesOf p = s.tilesOf p := by
  simp only [State.tilesOf, ho p _ hp]

theorem ownTiles_congr (hi : (u.part p).image = (s.part p).image) (hc : u.chipId = s.chipId) : u.ownTiles p = s.ownTiles p := by
  have four : List.range 4 = [0, 1, 2, 3] := rfl
  have own : ∀ t, u.partOfTile t = s.partOfTile t := fun t => by
    simp only [State.partOfTile, State.partOfRegion, four, List.find?, ho 0 _ (by decide), ho 1 _ (by decide), ho 2 _ (by decide),
      ho 3 _ (by decide)]
  simp only [State.ownTiles, State.ownSection, hi, hc, own]

end tiles

/-- What a map built for a list of keys holds under one of them. -/
theorem Map.get_putEach {α : Type} [DecidableEq α] (d : α) (g : Nat → α) (l : List Nat) (m : Map α) {k : Nat} (h : k ∈ l) :
    (l.foldl (fun m t => m.put t (g t) d) m).get k d = g k := by
  induction l generalizing m with
  | nil => exact absurd h List.not_mem_nil
  | cons t l ih =>
    rw [List.foldl_cons]
    by_cases hk : k ∈ l
    · exact ih _ hk
    · obtain rfl : k = t := (List.mem_cons.mp h).resolve_right hk
      rw [Map.get_putEach_ne d (fun t : Nat => t) g l _ k (fun b hb e => hk (e ▸ hb)), Map.get_put_same]

/-! ### The round before ends -/

/-- The registers of tile t that a round start finds: on a chip without a stream STEP advances here, and its stamps start anew. -/
def State.startArch (s : State) (p t : Nat) : Arch :=
  if s.prtState p = prtRUNNING ∧ (s.part p).decision = true ∧ s.ownTiles p = [] then { (s.tile t).arch with stamps := [] }
  else (s.tile t).arch

/-- A register that a round start leaves: on the partition's own page its length, its skipped rounds and its regions. -/
def StartKeeps (p pg : Nat) (f : Fld) : Prop :=
  f.off < 0x10000 ∧ f.lo < 32 ∧ pg ≠ pgETU ∧ pg ≠ pgICH ∧
  (pg = pgPRT p → f.off = 0x10C ∨ f.off = 0x13C ∨ f.off = 0x100 ∧ f.lo = 0)

theorem State.getF_setF_start {pg pg' : Nat} {f f' : Fld} (v : Nat) (hk : StartKeeps p pg f) (ho : f'.off < 0x10000)
    (hl : f'.lo < 32) (hw : pg' = pgETU ∨ pg' = pgICH ∨
      pg' = pgPRT p ∧ f'.off ≠ 0x10C ∧ f'.off ≠ 0x13C ∧ (f'.off = 0x100 → f'.lo ≠ 0)) :
    (s.setF pg' f' v).getF pg f = s.getF pg f := by
  obtain ⟨ko, kl, ke, ki, kp⟩ := hk
  refine s.getF_setF_ne _ _ _ _ _ (fun e => ?_)
  obtain ⟨hpg, hoff, hlo⟩ := (Fld.key_inj ho ko hl kl).mp e
  rcases hw with rfl | rfl | ⟨rfl, h1, h2, h3⟩
  · exact ke hpg.symm
  · exact ki hpg.symm
  · have := kp hpg.symm
    omega

/-- Stamps cleared on the tiles of a list. -/
theorem clearStamps_arch (l : List Nat) (t : Nat) :
    ((s.forEach l (fun s u => s.modArch u (fun a => { a with stamps := [] }))).tile t).arch =
      if t ∈ l then { (s.tile t).arch with stamps := [] } else (s.tile t).arch := by
  induction l generalizing s with
  | nil => rfl
  | cons x l ih =>
    rw [State.forEach_cons, ih]
    by_cases e : x = t
    · subst e
      simp
    · have ne : t ≠ x := Ne.symm e
      rw [State.modArch, State.tile_modTile_ne _ _ _ _ e]
      simp [ne]

/-- STEP is at another place. -/
theorem State.set64_step_getF {pg : Nat} {f : Fld} (v : Nat) (hk : StartKeeps p pg f) :
    (s.set64 (pgPRT p) Reg.PRT_STEP_LO Reg.PRT_STEP_HI v).getF pg f = s.getF pg f := by
  rw [State.set64, State.getF_setF_start _ _ hk (by decide) (by decide) (.inr (.inr ⟨rfl, by decide⟩)),
    State.getF_setF_start _ _ hk (by decide) (by decide) (.inr (.inr ⟨rfl, by decide⟩))]

theorem State.stepWithoutTiles_getF {pg : Nat} {f : Fld} (hk : StartKeeps p pg f) :
    (s.stepWithoutTiles p).getF pg f = s.getF pg f := by
  unfold State.stepWithoutTiles
  split
  · rw [State.countStep]
    refine (State.forEach_same _ (fun u => u.getF pg f) _ _ (by intro u t _; rfl)).trans ?_
    rw [State.addF, State.getF_setF_start _ _ hk (by decide) (by decide) (.inr (.inr ⟨rfl, by decide⟩)),
      s.set64_step_getF _ hk]
  · rfl

@[simp] theorem State.stepWithoutTiles_nt : (s.stepWithoutTiles p).nt = s.nt := by
  unfold State.stepWithoutTiles
  split
  · exact State.forEach_same _ State.nt _ _ (fun _ _ _ => rfl)
  · rfl

@[simp] theorem State.stepWithoutTiles_parts : (s.stepWithoutTiles p).parts = s.parts := by
  unfold State.stepWithoutTiles
  split
  · exact State.forEach_same _ State.parts _ _ (fun _ _ _ => rfl)
  · rfl

@[simp] theorem State.stepWithoutTiles_part (q : Nat) : (s.stepWithoutTiles p).part q = s.part q := by
  simp only [State.part, State.stepWithoutTiles_parts]

@[simp] theorem State.stepWithoutTiles_incidents : (s.stepWithoutTiles p).incidents = s.incidents := by
  unfold State.stepWithoutTiles
  split
  · exact State.forEach_same _ State.incidents _ _ (fun _ _ _ => rfl)
  · rfl

theorem StartKeeps.regions {q : Nat} (hq : q < 4) : StartKeeps p (pgPRT q) Reg.PRT_STAT_REGIONS := by
  refine ⟨by decide, by decide, ?_, ?_, fun _ => .inr (.inr ⟨rfl, rfl⟩)⟩ <;> simp only [pgPRT, pgETU, pgICH] <;> omega

/-- The device page and the time base stay. -/
theorem StartKeeps.device {pg : Nat} {f : Fld} (hp : pg < pgETU) (ho : f.off < 0x10000) (hl : f.lo < 32) : StartKeeps p pg f := by
  refine ⟨ho, hl, ?_, ?_, ?_⟩ <;> simp only [pgPRT, pgETU, pgICH] at * <;> omega

/-- The pages of tiles stay. -/
theorem StartKeeps.tile {f : Fld} (hp : p < 4) (t : Nat) (ho : f.off < 0x10000) (hl : f.lo < 32) : StartKeeps p (pgTIL t) f := by
  refine ⟨ho, hl, ?_, ?_, ?_⟩ <;> simp only [pgPRT, pgTIL, pgETU, pgICH] <;> omega

theorem StartKeeps.own {f : Fld} (hp : p < 4) (hf : f = Reg.PRT_ROUND_LEN_BT ∨ f = Reg.PRT_SKIPCNT_COUNT) :
    StartKeeps p (pgPRT p) f := by
  have pages : pgPRT p ≠ pgETU ∧ pgPRT p ≠ pgICH := by simp only [pgPRT, pgETU, pgICH]; omega
  rcases hf with rfl | rfl
  · exact ⟨by decide, by decide, pages.1, pages.2, fun _ => .inl rfl⟩
  · exact ⟨by decide, by decide, pages.1, pages.2, fun _ => .inr (.inl rfl)⟩

theorem State.stepWithoutTiles_arch (hp : p < 4) {t : Nat} (h : t ∈ s.tilesOf p) :
    ((s.stepWithoutTiles p).tile t).arch = s.startArch p t := by
  unfold State.stepWithoutTiles State.startArch
  simp only [List.isEmpty_iff]
  split
  · rw [State.countStep, clearStamps_arch, if_pos]
    · rfl
    · rw [tilesOf_congr (fun q r hq => congrArg (Nat.testBit · r) (s.set64_step_getF _ (.regions hq))) hp]
      exact h
  · rfl

end Sys2Proof.Machine
end

section
/-! SUPPORT. A round begins: what stands when its tiles have started (01 R24, R25, R31; 02 R58; 03 R64; 10 R292). -/

namespace Sys2Proof.Machine

variable (s : State) {p : Nat}

/-! ### The round before has ended -/

/-- The round before has ended and partition p runs. -/
def State.closed (s : State) (p n : Nat) : State := ((s.stepWithoutTiles p).setPrtState p prtRUNNING).endRound p n

@[simp] theorem State.endRound_regs (n : Nat) : (s.endRound p n).regs = s.regs := by
  simp only [State.endRound]
  refine (State.forEach_same _ State.regs _ _ (by intro u t _; rfl)).trans ?_
  exact State.forEach_same _ State.regs _ _ (by intro u x _; rfl)

@[simp] theorem State.endRound_parts (n : Nat) : (s.endRound p n).parts = s.parts := by
  simp only [State.endRound]
  refine (State.forEach_same _ State.parts _ _ (by intro u t _; rfl)).trans ?_
  exact State.forEach_same _ State.parts _ _ (by intro u x _; rfl)

@[simp] theorem State.endRound_getF (n pg : Nat) (f : Fld) : (s.endRound p n).getF pg f = s.getF pg f := by
  simp only [State.getF, State.endRound_regs]

theorem State.setPrtState_getF {pg : Nat} {f : Fld} (hp : p < 4) (st : Nat) (hk : StartKeeps p pg f) :
    (s.setPrtState p st).getF pg f = s.getF pg f := by
  rw [State.setPrtState, State.getF_setF_start _ _ hk (by simp [Fld.at, Reg.ETU_RCV_STATE]; omega) (by simp [Fld.at, Reg.ETU_RCV_STATE])
    (.inl rfl), State.getF_setF_start _ _ hk (by decide) (by decide) (.inr (.inr ⟨rfl, by decide⟩))]

theorem State.prtState_setPrtState (hp : p < 4) {st : Nat} (hst : st < 8) : (s.setPrtState p st).prtState p = st := by
  rw [State.prtState, State.setPrtState, State.getF_setF_page _ _ _ _ (by simp [Fld.at, Reg.ETU_RCV_STATE]; omega) (by decide)
    (by simp [Fld.at, Reg.ETU_RCV_STATE]) (by decide) (by simp only [pgETU, pgPRT]; omega), State.getF_setF_same]
  exact Nat.mod_eq_of_lt hst

theorem State.closed_nt (n : Nat) : (s.closed p n).nt = s.nt :=
  (nt_of_roundView (State.endRound_roundView _ p n)).trans s.stepWithoutTiles_nt

@[simp] theorem State.closed_part (n q : Nat) : (s.closed p n).part q = s.part q := by
  rw [State.closed, State.part, State.endRound_parts]
  exact s.stepWithoutTiles_part q

theorem State.closed_getF {pg : Nat} {f : Fld} (hp : p < 4) (n : Nat) (hk : StartKeeps p pg f) :
    (s.closed p n).getF pg f = s.getF pg f := by
  rw [State.closed, State.endRound_getF, State.setPrtState_getF _ hp _ hk, s.stepWithoutTiles_getF hk]

theorem State.closed_prtState (hp : p < 4) (n : Nat) : (s.closed p n).prtState p = prtRUNNING := by
  rw [State.prtState, State.closed, State.endRound_getF]
  exact State.prtState_setPrtState _ hp (by decide)

theorem State.closed_arch (hp : p < 4) (n : Nat) {t : Nat} (h : t ∈ s.tilesOf p) :
    ((s.closed p n).tile t).arch = s.startArch p t :=
  (arch_of_roundView (State.endRound_roundView _ p n) t).trans (s.stepWithoutTiles_arch hp h)

theorem State.closed_gear (hp : p < 4) (n : Nat) : (s.closed p n).gear = s.gear :=
  s.closed_getF hp n (.device (by decide) (by decide) (by decide))

theorem State.closed_roundNt (hp : p < 4) (n : Nat) : (s.closed p n).roundNt p = s.roundNt p := by
  have len : (s.closed p n).roundLen p = s.roundLen p := s.closed_getF hp n (.own hp (.inl rfl))
  rw [State.roundNt, s.closed_gear hp n, len]
  rfl

/-! ### What changes only registers of one page, and of partitions their banks -/

structure OffPage (pg0 : Nat) (s u : State) : Prop where
  nt : u.nt = s.nt
  tile : ∀ t, u.tile t = s.tile t
  part : ∀ q, (u.part q).steady = (s.part q).steady
  reg : ∀ pg f, pg ≠ pg0 → f.off < 0x10000 → f.lo < 32 → u.getF pg f = s.getF pg f

section offPage
variable {s} {u : State} {pg0 : Nat}

theorem OffPage.refl : OffPage pg0 s s := ⟨rfl, fun _ => rfl, fun _ => rfl, fun _ _ _ _ _ => rfl⟩

theorem OffPage.trans {v : State} (h : OffPage pg0 s u) (k : OffPage pg0 u v) : OffPage pg0 s v :=
  ⟨k.nt.trans h.nt, fun t => (k.tile t).trans (h.tile t), fun q => (k.part q).trans (h.part q),
    fun pg f hp ho hl => (k.reg pg f hp ho hl).trans (h.reg pg f hp ho hl)⟩

theorem OffPage.setF (h : OffPage pg0 s u) {f : Fld} (v : Nat) (ho : f.off < 0x10000) (hl : f.lo < 32) :
    OffPage pg0 s (u.setF pg0 f v) :=
  ⟨h.nt, h.tile, h.part, fun pg f' hp ho' hl' => (u.getF_setF_page f f' v ho ho' hl hl' (Ne.symm hp)).trans (h.reg pg f' hp ho' hl')⟩

theorem OffPage.setFs (h : OffPage pg0 s u) (l : List (Fld × Nat)) (hl : ∀ e ∈ l, e.1.off < 0x10000 ∧ e.1.lo < 32) :
    OffPage pg0 s (u.setFs pg0 l) := by
  induction l generalizing u with
  | nil => exact h
  | cons e l ih =>
    obtain ⟨ho, hlo⟩ := hl e List.mem_cons_self
    exact ih (h.setF e.2 ho hlo) (fun x hx => hl x (List.mem_cons_of_mem _ hx))

theorem OffPage.modPart (h : OffPage pg0 s u) (q : Nat) (f : Part → Part) (hf : ∀ x : Part, (f x).steady = x.steady) :
    OffPage pg0 s (u.modPart q f) :=
  ⟨h.nt, h.tile, fun k => (part_of_roundView (u.modPart_roundView q f hf) k).trans (h.part k), h.reg⟩

theorem OffPage.devSet (h : OffPage pg0 s u) {f : Fld} (v c : Nat) (ho : f.off < 0x10000) (hl : f.lo < 32) :
    OffPage pg0 s (u.devSet pg0 f v c) := by
  obtain ⟨nt, tile, part, reg⟩ := h.setF v ho hl
  exact ⟨nt, tile, part, reg⟩

end offPage

/-- A flag of the interchange is raised, and captured if it is the first. -/
theorem OffPage.ichFlag {s u : State} (h : OffPage pgICH s u) {f : Fld} (q x n : Nat) (ho : f.off < 0x10000) (hl : f.lo < 32) :
    OffPage pgICH s (u.ichFlag f q x n) := by
  rw [State.ichFlag]
  refine OffPage.setF ?_ 1 ho hl
  split
  · exact h
  · refine h.setFs _ ?_
    simp only [List.forall_mem_cons, List.not_mem_nil, false_imp_iff, implies_true]
    decide

/-- Fields of the partitions' swap registers lie within their page. -/
theorem swapField_placed (hp : p < 4) : ∀ f ∈ [Reg.ICH_SWAP_ARM, Reg.ICH_SWAP_HELD, Reg.ICH_SWAP_ERR, Reg.ICH_SWAP_DRAINING,
    Reg.ICH_SWAP_GEN], (f.at p).off < 0x10000 ∧ (f.at p).lo < 32 := by
  have placed : ∀ q : Fin 4, ∀ f ∈ [Reg.ICH_SWAP_ARM, Reg.ICH_SWAP_HELD, Reg.ICH_SWAP_ERR, Reg.ICH_SWAP_DRAINING,
    Reg.ICH_SWAP_GEN], (f.at q.val).off < 0x10000 ∧ (f.at q.val).lo < 32 := by decide
  exact placed ⟨p, hp⟩

theorem State.showHeld_offPage (hp : p < 4) : OffPage pgICH s (s.showHeld p) := by
  obtain ⟨ho, hl⟩ := swapField_placed hp Reg.ICH_SWAP_HELD (by simp)
  exact (OffPage.refl.modPart p _ (by intro x; simp only [Part.steady])).setF _ ho hl

theorem State.swap_offPage (hp : p < 4) (x : Nat) : OffPage pgICH s (s.swap p x) := by
  have placed := swapField_placed hp
  have armed : OffPage pgICH s (s.devSet pgICH (Reg.ICH_SWAP_ARM.at p) 0 (x / nsUnit)) :=
    OffPage.refl.devSet _ _ (placed _ (by simp)).1 (placed _ (by simp)).2
  rw [State.swap]
  split
  · extract_lets z
    split
    · exact (armed.setF 1 (placed Reg.ICH_SWAP_ERR (by simp)).1 (placed Reg.ICH_SWAP_ERR (by simp)).2).ichFlag _ _ _
        (by decide) (by decide)
    · refine OffPage.modPart ((armed.setF _ (placed Reg.ICH_SWAP_GEN (by simp)).1 (placed Reg.ICH_SWAP_GEN (by simp)).2).setF 1
        (placed Reg.ICH_SWAP_DRAINING (by simp)).1 (placed Reg.ICH_SWAP_DRAINING (by simp)).2) p _ ?_
      intro y
      simp only [Part.steady]
  · exact OffPage.refl

/-! ### The next round is entered and the banks swap -/

/-- Round n is entered at NT `at0`; of the round-start states the last one is kept. -/
def State.entered (s : State) (p n at0 : Nat) (runs : Bool) : State :=
  ((s.closed p n).enterRound p n at0 runs).modPart p (fun x => { x with
    starts := x.starts.filter (fun z => (z.round + 1) % 2 ^ 32 == n) })

/-- Then an armed swap takes place. -/
def State.opened (s : State) (p n at0 : Nat) (runs : Bool) : State := ((s.entered p n at0 runs).showHeld p).swap p at0

/-- What a partition is told of the round that begins, with its round-start states aside. -/
def Part.entered (x : Part) (gear at0 len n : Nat) (runs : Bool) : Part :=
  { x with gear := gear, startNt := at0, nextNt := at0 + len, nextRound := (n + 1) % 2 ^ 32, decision := runs }

theorem State.enterRound_getF {pg : Nat} {f : Fld} (n x : Nat) (runs : Bool) (hk : StartKeeps p pg f) :
    (s.enterRound p n x runs).getF pg f = s.getF pg f := by
  rw [State.enterRound, State.getF_setF_start _ _ hk (by decide) (by decide) (.inr (.inr ⟨rfl, by decide⟩)),
    State.getF_setF_start _ _ hk (by decide) (by decide) (.inr (.inr ⟨rfl, by decide⟩)), State.modPart_getF]

theorem State.enterRound_prtState (n x : Nat) (runs : Bool) : (s.enterRound p n x runs).prtState p = s.prtState p := by
  rw [State.prtState, State.enterRound, State.getF_setF_place _ _ _ _ _ (by decide) (by decide) (by decide) (by decide) (by decide),
    State.getF_setF_place _ _ _ _ _ (by decide) (by decide) (by decide) (by decide) (by decide), State.modPart_getF]
  rfl

theorem State.enterRound_round (n x : Nat) (runs : Bool) : (s.enterRound p n x runs).round p = n % 2 ^ 32 := by
  rw [State.round, State.enterRound, State.getF_setF_place _ _ _ _ _ (by decide) (by decide) (by decide) (by decide) (by decide),
    State.getF_setF_same]
  rfl

theorem State.enterRound_part (n x : Nat) (runs : Bool) :
    (s.enterRound p n x runs).part p = (s.part p).entered s.gear x (s.roundNt p) n runs := by
  simp [State.enterRound, Part.entered]

section opened
variable (hp : p < 4) (n x : Nat) (runs : Bool)
include hp

theorem State.opened_offPage : OffPage pgICH (s.entered p n x runs) (s.opened p n x runs) :=
  (State.showHeld_offPage _ hp).trans (State.swap_offPage _ hp x)

theorem State.opened_nt : (s.opened p n x runs).nt = s.nt := (s.opened_offPage hp n x runs).nt.trans (s.closed_nt n)

theorem State.opened_getF {pg : Nat} {f : Fld} (hk : StartKeeps p pg f) : (s.opened p n x runs).getF pg f = s.getF pg f := by
  obtain ⟨ho, hl, -, hi, -⟩ := id hk
  rw [(s.opened_offPage hp n x runs).reg pg f hi ho hl, State.entered, State.modPart_getF, State.enterRound_getF _ _ _ _ hk, s.closed_getF hp n hk]

theorem State.opened_own {f : Fld} (ho : f.off < 0x10000) (hl : f.lo < 32) :
    (s.opened p n x runs).getF (pgPRT p) f = ((s.closed p n).enterRound p n x runs).getF (pgPRT p) f :=
  (s.opened_offPage hp n x runs).reg _ f (by simp only [pgPRT, pgICH]; omega) ho hl

theorem State.opened_prtState : (s.opened p n x runs).prtState p = prtRUNNING := by
  rw [State.prtState, s.opened_own hp n x runs (by decide) (by decide)]
  exact (State.enterRound_prtState _ n x runs).trans (s.closed_prtState hp n)

theorem State.opened_round : (s.opened p n x runs).round p = n % 2 ^ 32 := by
  rw [State.round, s.opened_own hp n x runs (by decide) (by decide)]
  exact State.enterRound_round _ n x runs

theorem State.opened_part : ((s.opened p n x runs).part p).steady =
    { ((s.part p).entered s.gear x (s.roundNt p) n runs).steady with
      starts := (s.part p).starts.filter (fun z => (z.round + 1) % 2 ^ 32 == n) } := by
  rw [(s.opened_offPage hp n x runs).part p, State.entered, State.part_modPart_same, State.enterRound_part, State.closed_part, s.closed_gear hp n,
    s.closed_roundNt hp n]
  rfl

theorem State.opened_arch {t : Nat} (h : t ∈ s.tilesOf p) : ((s.opened p n x runs).tile t).arch = s.startArch p t := by
  rw [(s.opened_offPage hp n x runs).tile t]
  exact s.closed_arch hp n h

theorem State.opened_ownsRegion (q r : Nat) (hq : q < 4) : (s.opened p n x runs).ownsRegion q r = s.ownsRegion q r :=
  congrArg (Nat.testBit · r) (s.opened_getF hp n x runs (.regions hq))

end opened

end Sys2Proof.Machine
end

section
/-! SUPPORT. The rest of a round start, and what stands when it has ended (01 R24, R25, R31; 02 R58; 03 R64; 10 R292). -/

namespace Sys2Proof.Machine

variable (s : State) {p : Nat}

/-! ### The tiles start -/

/-- Tile t stands at its entry with nothing in flight. -/
def AtEntry (t : Nat) (u : State) : Prop :=
  (u.tile t).flight = [] ∧ (u.tile t).seq = { Seq.reset with pc := u.getF (pgTIL t) Reg.TIL_SEQ_CODE_ENTRY }

/-- The tiles of a list put at their entries. -/
def State.toEntries (s : State) (l : List Nat) : State :=
  s.forEach l (fun s t => s.modTile t (fun x => { x with
    seq := { Seq.reset with pc := s.getF (pgTIL t) Reg.TIL_SEQ_CODE_ENTRY }, flight := [], entryFree := 0, weightFree := 0,
    rowFree := 0, dmvFree := 0, wheel := 0, wheelStart := none }))

/-- The loop depths of the tiles of a list read 0. -/
def State.zeroDepths (s : State) (l : List Nat) : State :=
  s.forEach l (fun s t => s.setF (pgTIL t) Reg.TIL_SEQ_STAT_LOOP_DEPTH 0)

/-- The tiles that a round start finds not stopped. -/
def State.liveTiles (s : State) (p : Nat) : List Nat := (s.ownTiles p).filter (fun t => s.seqState t != seqSTOPPED)

theorem State.startTiles_eq (runs : Bool) : s.startTiles p runs =
    ((s.toEntries (s.liveTiles p)).zeroDepths (s.liveTiles p)).setTiles (s.liveTiles p) (if runs then seqRUNNING else seqSKIPPED)
      false := rfl

theorem State.toEntries_regs (l : List Nat) : (s.toEntries l).regs = s.regs :=
  s.forEach_same State.regs _ l (by intro u t _; rfl)

theorem State.toEntries_atEntry (l : List Nat) : ∀ t ∈ l, AtEntry t (s.toEntries l) := by
  have put : ∀ (u : State) (t : Nat), AtEntry t (u.modTile t (fun x => { x with
      seq := { Seq.reset with pc := u.getF (pgTIL t) Reg.TIL_SEQ_CODE_ENTRY }, flight := [], entryFree := 0, weightFree := 0,
      rowFree := 0, dmvFree := 0, wheel := 0, wheelStart := none })) := fun u t => by simp [AtEntry]
  refine s.forEach_each AtEntry _ l (fun u x y h => ?_) put
  by_cases e : x = y
  · subst e
    exact put u x
  · obtain ⟨hf, hs⟩ := h
    exact ⟨(congrArg Tile.flight (u.tile_modTile_ne x y _ e)).trans hf, (congrArg Tile.seq (u.tile_modTile_ne x y _ e)).trans hs⟩

theorem State.zeroDepths_getF {pg : Nat} {f : Fld} (l : List Nat) (ho : f.off < 0x10000) (hl : f.lo < 32)
    (h : f.off ≠ 0x100 ∨ f.lo ≠ 26) : (s.zeroDepths l).getF pg f = s.getF pg f := by
  refine s.forEach_same (fun u => u.getF pg f) _ l (fun u t _ => u.getF_setF_ne _ _ _ _ _ (fun e => ?_))
  obtain ⟨-, hoff, hlo⟩ := (Fld.key_inj (by decide) ho (by decide) hl).mp e
  exact h.elim (fun h => h hoff.symm) (fun h => h hlo.symm)

theorem State.zeroDepths_tiles (l : List Nat) : (s.zeroDepths l).tiles = s.tiles :=
  s.forEach_same State.tiles _ l (by intro u t _; rfl)

theorem State.startTiles_getF {pg : Nat} {f : Fld} (runs : Bool) (hp : pg < 0x100) (ho : f.off < 0x10000) (hl : f.lo < 32)
    (h : f.off ≠ 0x100 ∨ f.lo ≠ 26) : (s.startTiles p runs).getF pg f = s.getF pg f := by
  rw [State.startTiles_eq, State.setTiles_getF _ _ _ _ hp ho hl, State.zeroDepths_getF _ _ ho hl h, State.getF,
    State.toEntries_regs]
  rfl

theorem State.startTiles_nt (runs : Bool) : (s.startTiles p runs).nt = s.nt := by
  rw [State.startTiles_eq, State.setTiles_nt, State.zeroDepths]
  refine (State.forEach_same _ State.nt _ _ (by intro u t _; rfl)).trans ?_
  exact State.forEach_same _ State.nt _ _ (by intro u t _; rfl)

theorem State.startTiles_part (runs : Bool) (q : Nat) : (s.startTiles p runs).part q = s.part q := by
  rw [State.startTiles_eq, State.setTiles_part, State.zeroDepths]
  refine (State.forEach_same _ (fun u => u.part q) _ _ (by intro u t _; rfl)).trans ?_
  exact State.forEach_same _ (fun u => u.part q) _ _ (by intro u t _; rfl)

theorem State.startTiles_seqState (runs : Bool) {t : Nat} (h : t ∈ s.liveTiles p) :
    (s.startTiles p runs).seqState t = if runs then seqRUNNING else seqSKIPPED := by
  rw [State.startTiles_eq]
  exact State.setTiles_seqState _ _ _ (by cases runs <;> decide) t h

theorem State.startTiles_tile (runs : Bool) {t : Nat} (h : t ∈ s.liveTiles p) :
    ((s.startTiles p runs).tile t).flight = [] ∧
    ((s.startTiles p runs).tile t).seq = { Seq.reset with pc := s.getF (pgTIL t) Reg.TIL_SEQ_CODE_ENTRY } := by
  obtain ⟨hf, hs⟩ := s.toEntries_atEntry (s.liveTiles p) t h
  have stays : (s.startTiles p runs).tile t = (s.toEntries (s.liveTiles p)).tile t := by
    rw [State.startTiles_eq, State.setTiles_tile]
    simp only [State.tile, State.zeroDepths_tiles]
  have entry : (s.toEntries (s.liveTiles p)).getF (pgTIL t) Reg.TIL_SEQ_CODE_ENTRY =
      s.getF (pgTIL t) Reg.TIL_SEQ_CODE_ENTRY := by
    simp only [State.getF, State.toEntries_regs]
  rw [stays, ← entry]
  exact ⟨hf, hs⟩

/-! ### The state is kept, and the collection is made -/

/-- S_n is kept; of the manifests those for the round after stay. -/
def State.keepStart (s : State) (p n : Nat) (runs : Bool) : State :=
  s.modPart p (fun x => { x with
    starts := x.starts ++ [s.roundState p n runs], manifests := x.manifests.filter (fun m => m.round == (n + 1) % 2 ^ 32),
    launchNt := none })

theorem State.keepStart_nt (n : Nat) (runs : Bool) : (s.keepStart p n runs).nt = s.nt := rfl

theorem State.keepStart_getF (n : Nat) (runs : Bool) (pg : Nat) (f : Fld) : (s.keepStart p n runs).getF pg f = s.getF pg f := rfl

/-- Teardowns, links that resume, the collection and the chip's own manifest. -/
def State.gatherRound (s : State) (p n at0 : Nat) : State :=
  ((((s.showHeld p).teardowns p at0).resumeLinks p).collect p n at0).ownManifest p

/-- A round that does not run is counted. -/
def State.countSkip (s : State) (p : Nat) (runs : Bool) : State :=
  if runs then s else s.addF (pgPRT p) Reg.PRT_SKIPCNT_COUNT 1

/-- All of a round start but the starting of the tiles and the count of a skipped round. -/
def State.gathered (s : State) (p n at0 : Nat) (runs : Bool) : State :=
  ((s.opened p n at0 runs).keepStart p n runs).gatherRound p n at0

theorem State.beginRound_eq (n x : Nat) :
    s.beginRound p n x = ((s.gathered p n x (s.willRun p n)).countSkip p (s.willRun p n)).startTiles p (s.willRun p n) := by
  have decided : ((s.stepWithoutTiles p).setPrtState p prtRUNNING).willRun p n = s.willRun p n := by
    simp only [State.willRun, State.setPrtState, State.setF_part, State.stepWithoutTiles_part]
  rw [← decided]
  rfl

theorem State.gatherRound_roundView (hp : p < 4) (n x : Nat) : (s.gatherRound p n x).roundView = s.roundView := by
  rw [State.gatherRound, State.ownManifest_roundView, State.collect_roundView _ hp, State.resumeLinks_roundView,
    State.teardowns_roundView, State.showHeld_roundView _ hp]

section gathered
variable (hp : p < 4) (n x : Nat) (runs : Bool)
include hp

theorem State.gathered_roundView :
    (s.gathered p n x runs).roundView = ((s.opened p n x runs).keepStart p n runs).roundView :=
  State.gatherRound_roundView _ hp n x

theorem State.gathered_nt : (s.gathered p n x runs).nt = s.nt := by
  rw [nt_of_roundView (s.gathered_roundView hp n x runs), State.keepStart_nt, s.opened_nt hp n x runs]

/-- Registers read as after the swap. -/
theorem State.gathered_getF {pg : Nat} {f : Fld} (hr : RoundReg pg f) :
    (s.gathered p n x runs).getF pg f = (s.opened p n x runs).getF pg f := by
  rw [getF_of_roundView (s.gathered_roundView hp n x runs) hr, State.keepStart_getF]

theorem State.gathered_keeps {pg : Nat} {f : Fld} (hr : RoundReg pg f) (hk : StartKeeps p pg f) :
    (s.gathered p n x runs).getF pg f = s.getF pg f :=
  (s.gathered_getF hp n x runs hr).trans (s.opened_getF hp n x runs hk)

theorem RoundReg.partition {f : Fld} (ho : f.off < 0x10000) (hl : f.lo < 32) : RoundReg (pgPRT p) f :=
  .inl ⟨by simp only [pgPRT]; omega, ho, hl⟩

theorem State.gathered_part : ((s.gathered p n x runs).part p).steady =
    { ((s.part p).entered s.gear x (s.roundNt p) n runs).steady with
      starts := (s.part p).starts.filter (fun z => (z.round + 1) % 2 ^ 32 == n) ++
        [(s.opened p n x runs).roundState p n runs] } := by
  have whole := s.opened_part hp n x runs
  have starts := congrArg Part.starts whole
  rw [part_of_roundView (s.gathered_roundView hp n x runs) p, State.keepStart, State.part_modPart_same]
  generalize (s.opened p n x runs).part p = y at whole starts ⊢
  have kept : ∀ (z : Part) (l : List RoundStart) (m : List Manifest),
      ({ z with starts := l, manifests := m, launchNt := none } : Part).steady = { z.steady with starts := l } := fun _ _ _ => rfl
  rw [kept, whole]
  simp only [Part.steady] at starts ⊢
  rw [starts]

theorem State.gathered_ownsRegion (q r : Nat) (hq : q < 4) : (s.gathered p n x runs).ownsRegion q r = s.ownsRegion q r :=
  congrArg (Nat.testBit · r) (s.gathered_keeps hp n x runs (.partition hq (by decide) (by decide)) (.regions hq))

theorem State.gathered_chipId : (s.gathered p n x runs).chipId = s.chipId := by
  have dev : ∀ {f : Fld}, f.off < 0x10000 → f.lo < 32 → (s.gathered p n x runs).getF pgDEV f = s.getF pgDEV f :=
    fun ho hl => s.gathered_keeps hp n x runs (.inl ⟨by decide, ho, hl⟩) (.device (by decide) ho hl)
  simp only [State.chipId]
  rw [dev (by decide) (by decide), dev (by decide) (by decide), dev (by decide) (by decide)]

theorem State.gathered_ownTiles : (s.gathered p n x runs).ownTiles p = s.ownTiles p := by
  have image : ((s.gathered p n x runs).part p).image = (s.part p).image := by
    simpa only [Part.steady_image, Part.entered] using congrArg Part.image (s.gathered_part hp n x runs)
  exact ownTiles_congr (s.gathered_ownsRegion hp n x runs) image (s.gathered_chipId hp n x runs)

theorem State.gathered_seqState (t : Nat) : (s.gathered p n x runs).seqState t = s.seqState t :=
  s.gathered_keeps hp n x runs (.inr (.inr ⟨t, rfl, .inl rfl⟩)) (.tile hp t (by decide) (by decide))

theorem State.gathered_entry (t : Nat) : (s.gathered p n x runs).getF (pgTIL t) Reg.TIL_SEQ_CODE_ENTRY =
    s.getF (pgTIL t) Reg.TIL_SEQ_CODE_ENTRY :=
  s.gathered_keeps hp n x runs (.inr (.inr ⟨t, rfl, .inr rfl⟩)) (.tile hp t (by decide) (by decide))

end gathered

end Sys2Proof.Machine
end

section
/-! SUPPORT. Round-start positions: rounds begin, fences, stops and holds (01 R24, R25, R31; 08 R251; 10 R294, R310; 12 R363). -/

namespace Sys2Proof.Machine

variable (s : State) {p : Nat}

/-! ### A round has begun -/

/-- Round n of partition p, found in s, has begun at NT `at0` in u. -/
def State.Begins (s : State) (p at0 n : Nat) (u : State) : Prop :=
  u.prtState p = prtRUNNING ∧ u.round p = n % 2 ^ 32 ∧ at0 ≤ u.nt ∧ (u.part p).startNt = at0 ∧
  (u.part p).nextNt = at0 + s.roundNt p ∧ (u.part p).nextRound = (n + 1) % 2 ^ 32 ∧ (u.part p).gear = s.gear ∧
  (u.part p).decision = s.willRun p n ∧
  (s.willRun p n = false → Counts s u (pgPRT p) Reg.PRT_SKIPCNT_COUNT 1) ∧
  (∃ z ∈ (u.part p).starts, z.round = n ∧ z.runs = s.willRun p n ∧ z.gen = u.gen p ∧
    ∀ t ∈ s.tilesOf p, z.tiles.get t .reset = s.startArch p t) ∧
  (∀ t ∈ s.ownTiles p, s.seqState t ≠ seqSTOPPED →
    u.seqState t = (if s.willRun p n then seqRUNNING else seqSKIPPED) ∧ (u.tile t).flight = [] ∧
    (u.tile t).seq = { Seq.reset with pc := s.getF (pgTIL t) Reg.TIL_SEQ_CODE_ENTRY })

section countSkip
variable (runs : Bool)

@[simp] theorem State.countSkip_nt : (s.countSkip p runs).nt = s.nt := by cases runs <;> rfl

@[simp] theorem State.countSkip_part (q : Nat) : (s.countSkip p runs).part q = s.part q := by cases runs <;> rfl

theorem State.countSkip_getF {pg : Nat} {f : Fld} (ho : f.off < 0x10000) (hl : f.lo < 32) (h : f.off ≠ 0x13C) :
    (s.countSkip p runs).getF pg f = s.getF pg f := by
  cases runs
  · exact s.getF_setF_ne _ _ _ _ _ (fun e => h ((Fld.key_inj (by decide) ho (by decide) hl).mp e).2.1.symm)
  · rfl

theorem State.countSkip_ownTiles : (s.countSkip p runs).ownTiles p = s.ownTiles p := by
  refine ownTiles_congr (fun q r _ => congrArg (Nat.testBit · r) (s.countSkip_getF runs (by decide) (by decide) (by decide))) ?_ ?_
  · rw [State.countSkip_part]
  · have dev : ∀ {f : Fld}, f.off < 0x10000 → f.lo < 32 → f.off ≠ 0x13C → (s.countSkip p runs).getF pgDEV f = s.getF pgDEV f :=
      fun ho hl h => s.countSkip_getF runs ho hl h
    simp only [State.chipId]
    rw [dev (by decide) (by decide) (by decide), dev (by decide) (by decide) (by decide), dev (by decide) (by decide) (by decide)]

end countSkip

/-- S_n holds the registers of the partition's tiles. -/
theorem State.roundState_tiles (n : Nat) (runs : Bool) {t : Nat} (h : t ∈ s.tilesOf p) :
    (s.roundState p n runs).tiles.get t .reset = (s.tile t).arch :=
  Map.get_putEach Arch.reset (fun t => (s.tile t).arch) (s.tilesOf p) [] h

theorem State.beginRound_begins (hp : p < 4) (n x : Nat) (hx : x ≤ s.nt) : s.Begins p x n (s.beginRound p n x) := by
  rw [State.beginRound_eq, State.Begins]
  generalize s.willRun p n = runs
  have page : pgPRT p < 0x100 := by simp only [pgPRT]; omega
  have whole := s.gathered_part hp n x runs
  have own : ∀ {f : Fld}, f.off < 0x10000 → f.lo < 32 → f.off ≠ 0x13C → f.off ≠ 0x100 ∨ f.lo ≠ 26 →
      (((s.gathered p n x runs).countSkip p runs).startTiles p runs).getF (pgPRT p) f = (s.opened p n x runs).getF (pgPRT p) f := by
    intro f ho hl hs hd
    rw [State.startTiles_getF _ runs page ho hl hd, State.countSkip_getF _ _ ho hl hs,
      s.gathered_getF hp n x runs (.partition hp ho hl)]
  have live : ∀ t ∈ s.ownTiles p, s.seqState t ≠ seqSTOPPED → t ∈ ((s.gathered p n x runs).countSkip p runs).liveTiles p := by
    intro t ht hs
    have seq : ((s.gathered p n x runs).countSkip p runs).seqState t = s.seqState t :=
      (State.countSkip_getF _ _ (by decide) (by decide) (by decide)).trans (s.gathered_seqState hp n x runs t)
    rw [State.liveTiles, State.countSkip_ownTiles, s.gathered_ownTiles hp n x runs, List.mem_filter, seq]
    exact ⟨ht, bne_iff_ne.mpr hs⟩
  simp only [State.startTiles_part, State.startTiles_nt, State.countSkip_part, State.countSkip_nt]
  refine ⟨?_, ?_, ?_, ?_, ?_, ?_, ?_, ?_, ?_, ?_, ?_⟩
  · exact (own (by decide) (by decide) (by decide) (by decide)).trans (s.opened_prtState hp n x runs)
  · exact (own (by decide) (by decide) (by decide) (by decide)).trans (s.opened_round hp n x runs)
  · rw [s.gathered_nt hp n x runs]
    exact hx
  · simpa only [Part.steady_startNt, Part.entered] using congrArg Part.startNt whole
  · simpa only [Part.steady_nextNt, Part.entered] using congrArg Part.nextNt whole
  · simpa only [Part.steady_nextRound, Part.entered] using congrArg Part.nextRound whole
  · simpa only [Part.steady_gear, Part.entered] using congrArg Part.gear whole
  · simpa only [Part.steady_decision, Part.entered] using congrArg Part.decision whole
  · rintro rfl
    rw [Counts, State.startTiles_getF _ _ page (by decide) (by decide) (by decide)]
    refine (State.getF_addF_same _ _ _ 1).trans ?_
    rw [s.gathered_keeps hp n x false (.partition hp (by decide) (by decide)) (.own hp (.inr rfl))]
  · have starts := congrArg Part.starts whole
    simp only [Part.steady_starts] at starts
    have gen : (((s.gathered p n x runs).countSkip p runs).startTiles p runs).gen p = (s.opened p n x runs).gen p := by
      obtain ⟨ho, hl⟩ := swapField_placed hp Reg.ICH_SWAP_GEN (by simp)
      have place : (Reg.ICH_SWAP_GEN.at p).off ≠ 0x13C ∧ (Reg.ICH_SWAP_GEN.at p).off ≠ 0x100 := by
        simp only [Fld.at, Reg.ICH_SWAP_GEN]; omega
      rw [State.gen, State.startTiles_getF _ runs (by decide) ho hl (.inl place.2), State.countSkip_getF _ _ ho hl place.1,
        s.gathered_getF hp n x runs (.inr (.inl ⟨p, hp, rfl, rfl⟩))]
      rfl
    refine ⟨(s.opened p n x runs).roundState p n runs, ?_, rfl, rfl, gen.symm, fun t ht => ?_⟩
    · rw [starts]
      exact List.mem_append_right _ List.mem_cons_self
    · have open_ : t ∈ (s.opened p n x runs).tilesOf p := (tilesOf_congr (s.opened_ownsRegion hp n x runs) hp).symm ▸ ht
      rw [State.roundState_tiles _ n runs open_, s.opened_arch hp n x runs ht]
  · intro t ht hs
    have entry : ((s.gathered p n x runs).countSkip p runs).getF (pgTIL t) Reg.TIL_SEQ_CODE_ENTRY =
        s.getF (pgTIL t) Reg.TIL_SEQ_CODE_ENTRY :=
      (State.countSkip_getF _ _ (by decide) (by decide) (by decide)).trans (s.gathered_entry hp n x runs t)
    rw [← entry]
    exact ⟨State.startTiles_seqState _ runs (live t ht hs), State.startTiles_tile _ runs (live t ht hs)⟩

/-- What a round begins from may be read in another state that agrees with it. -/
theorem Begins.congr {s b u : State} {x n : Nat} (hp : p < 4) (hr : ∀ pg f, RoundReg pg f → b.getF pg f = s.getF pg f)
    (ha : ∀ t, (b.tile t).arch = (s.tile t).arch) (hi : (b.part p).image = (s.part p).image)
    (hd : (b.part p).decision = (s.part p).decision) (hm : (b.part p).manifests = (s.part p).manifests)
    (hx : (b.part p).maxRound = (s.part p).maxRound) (h : b.Begins p x n u) : s.Begins p x n u := by
  have low : ∀ {pg : Nat} {f : Fld}, pg < 0x10 → f.off < 0x10000 → f.lo < 32 → b.getF pg f = s.getF pg f :=
    fun hpg ho hl => hr _ _ (.inl ⟨hpg, ho, hl⟩)
  have part : ∀ {q : Nat} {f : Fld}, q < 4 → f.off < 0x10000 → f.lo < 32 → b.getF (pgPRT q) f = s.getF (pgPRT q) f :=
    fun hq ho hl => hr _ _ (.partition hq ho hl)
  have regions : ∀ q r, q < 4 → b.ownsRegion q r = s.ownsRegion q r :=
    fun q r hq => congrArg (Nat.testBit · r) (part hq (by decide) (by decide))
  have chip : b.chipId = s.chipId := by
    simp only [State.chipId]
    rw [low (by decide) (by decide) (by decide), low (by decide) (by decide) (by decide), low (by decide) (by decide) (by decide)]
  have own : b.ownTiles p = s.ownTiles p := ownTiles_congr regions hi chip
  have tiles : b.tilesOf p = s.tilesOf p := tilesOf_congr regions hp
  have st : b.prtState p = s.prtState p := part hp (by decide) (by decide)
  have gear : b.gear = s.gear := low (by decide) (by decide) (by decide)
  have len : b.roundNt p = s.roundNt p := by
    simp only [State.roundNt, gear]
    exact congrArg _ (part hp (by decide) (by decide))
  have will : b.willRun p n = s.willRun p n := by simp only [State.willRun, hm, hx]
  have arch : ∀ t, b.startArch p t = s.startArch p t := fun t => by simp only [State.startArch, st, hd, own, ha]
  have seqs : ∀ t, b.seqState t = s.seqState t := fun t => hr _ _ (.inr (.inr ⟨t, rfl, .inl rfl⟩))
  have entry : ∀ t, b.getF (pgTIL t) Reg.TIL_SEQ_CODE_ENTRY = s.getF (pgTIL t) Reg.TIL_SEQ_CODE_ENTRY :=
    fun t => hr _ _ (.inr (.inr ⟨t, rfl, .inr rfl⟩))
  have skips : b.getF (pgPRT p) Reg.PRT_SKIPCNT_COUNT = s.getF (pgPRT p) Reg.PRT_SKIPCNT_COUNT := part hp (by decide) (by decide)
  simpa only [State.Begins, Counts, len, gear, will, tiles, own, arch, seqs, entry, skips] using h

/-! ### A fence -/

@[simp] theorem State.setFs_incidents (pg : Nat) (l : List (Fld × Nat)) : (s.setFs pg l).incidents = s.incidents := by
  rw [State.setFs_only]

@[simp] theorem State.setPrtState_part (st q : Nat) : (s.setPrtState p st).part q = s.part q := rfl

theorem State.closeTenant_incidents (k t : Nat) : (s.closeTenant k t).incidents = s.incidents := by
  simp only [State.closeTenant]
  split
  · rfl
  · exact s.forEach_same State.incidents _ _ (by intro u h _; rfl)

theorem State.teardowns_incidents (x : Nat) : (s.teardowns p x).incidents = s.incidents := by
  refine s.forEach_same State.incidents _ _ (fun u t _ => ?_)
  simp only [State.teardownEffect]
  split
  · simp only [State.showTenant, State.setFs_incidents]
    exact State.forEach_same _ State.incidents _ _ (fun v k _ => v.closeTenant_incidents k t)
  · rfl

section fence
variable (hp : p < 4)

theorem State.fence_roundView : (s.fence p).roundView =
    ((s.setPrtState p prtFENCED).setTiles (s.tilesOf p) seqFENCED true).roundView := by
  rw [State.fence, State.reanchor_roundView, State.raiseCode_roundView, State.teardowns_roundView]
  exact State.modPart_roundView _ p _ (by intro x; simp only [Part.steady])

theorem State.fence_reports : Reports s (s.fence p) 0x3005 pgETU := by
  have same : ∀ u : State, u.reanchor.incidents = u.incidents := by
    intro u
    rw [State.reanchor]
    split <;> rfl
  have before : ((((s.setPrtState p prtFENCED).setTiles (s.tilesOf p) seqFENCED true).modPart p
      (fun x => { x with fenceAsked := false })).teardowns p
      (((s.setPrtState p prtFENCED).setTiles (s.tilesOf p) seqFENCED true).nt + 1)).incidents = s.incidents := by
    rw [State.teardowns_incidents, State.modPart_incidents, State.setTiles_incidents]
    rfl
  refine ⟨_, (same _).trans ((State.raiseCode_incidents _ _ _ _ _).trans (congrArg (· ++ _) before)), rfl, rfl⟩

theorem State.fence_starts : ((s.fence p).part p).starts = (s.part p).starts := by
  have whole := part_of_roundView (s.fence_roundView (p := p)) p
  rw [State.setTiles_part, State.setPrtState_part] at whole
  simpa only [Part.steady_starts] using congrArg Part.starts whole

theorem State.fence_arch (t : Nat) : ((s.fence p).tile t).arch = (s.tile t).arch := by
  rw [arch_of_roundView s.fence_roundView t, State.setTiles_arch]
  rfl

theorem State.fence_seqState {t : Nat} (h : t ∈ s.tilesOf p) : (s.fence p).seqState t = seqFENCED :=
  (getF_of_roundView s.fence_roundView (.inr (.inr ⟨t, rfl, .inl rfl⟩))).trans
    (State.setTiles_seqState _ _ true (by decide) t h)

include hp in
theorem State.fence_prtState : (s.fence p).prtState p = prtFENCED := by
  rw [State.prtState, getF_of_roundView s.fence_roundView (.partition hp (by decide) (by decide)),
    State.setTiles_getF _ _ _ _ (by simp only [pgPRT]; omega) (by decide) (by decide)]
  exact s.prtState_setPrtState hp (by decide)

end fence

/-! ### A stop -/

/-- What a partition keeps when it halts at its stop NT. -/
def Part.halted (x : Part) : Part :=
  { x with stopNt := none, launchNt := none, starts := [], manifests := [], collections := [], delivered := [], maxRound := none,
           heldBank := none }

section stopHalt
variable (hp : p < 4)
include hp

theorem State.stopHalt_roundView : (s.stopHalt p).roundView =
    ((((s.stepWithoutTiles p).setPrtState p prtLOADED).setTiles (((s.stepWithoutTiles p).setPrtState p prtLOADED).tilesOf p) seqHALTED
      true).modPart p Part.halted).roundView := by
  rw [State.stopHalt, State.reportLoaded_roundView, State.reanchor_roundView, State.teardowns_roundView, State.showHeld_roundView _ hp]
  rfl

theorem State.stopHalt_stopNt : ((s.stopHalt p).part p).stopNt = none := by
  have whole := part_of_roundView (s.stopHalt_roundView hp) p
  rw [State.part_modPart_same] at whole
  simpa only [Part.steady_stopNt, Part.halted] using congrArg Part.stopNt whole

theorem State.stopHalt_prtState : (s.stopHalt p).prtState p = prtLOADED := by
  rw [State.prtState, getF_of_roundView (s.stopHalt_roundView hp) (.partition hp (by decide) (by decide)), State.modPart_getF,
    State.setTiles_getF _ _ _ _ (by simp only [pgPRT]; omega) (by decide) (by decide)]
  exact State.prtState_setPrtState _ hp (by decide)

theorem State.stopHalt_seqState {t : Nat} (h : t ∈ s.tilesOf p) : (s.stopHalt p).seqState t = seqHALTED := by
  have owned : ((s.stepWithoutTiles p).setPrtState p prtLOADED).tilesOf p = s.tilesOf p :=
    tilesOf_congr (fun q r hq => congrArg (Nat.testBit · r)
      ((State.setPrtState_getF _ hp _ (.regions hq)).trans (s.stepWithoutTiles_getF (.regions hq)))) hp
  refine (getF_of_roundView (s.stopHalt_roundView hp) (.inr (.inr ⟨t, rfl, .inl rfl⟩))).trans ?_
  exact State.setTiles_seqState _ _ true (by decide) t (owned.symm ▸ h)

end stopHalt

/-! ### At a position -/

/-- The state at a round-start position, where a deputy may begin to govern. -/
def State.atPosition (s : State) (p x : Nat) : State := (s.atLeast x).deputyStarts p

section position
variable (x : Nat)

@[simp] theorem State.atPosition_getF (pg : Nat) (f : Fld) : (s.atPosition p x).getF pg f = s.getF pg f := by
  rw [State.atPosition, State.deputyStarts, State.modPart_getF, State.atLeast_getF]

@[simp] theorem State.atPosition_tile (t : Nat) : (s.atPosition p x).tile t = s.tile t := by
  rw [State.atPosition, State.deputyStarts, State.modPart_tile]
  simp only [State.tile, State.atLeast_tiles]

@[simp] theorem State.atPosition_part : (s.atPosition p x).part p =
    { s.part p with deputy := (s.part p).deputy || (s.part p).deputyNext, deputyNext := false } := by
  rw [State.atPosition, State.deputyStarts, State.part_modPart_same]
  simp only [State.part, State.atLeast_parts]

@[simp] theorem State.atPosition_nt : (s.atPosition p x).nt = max s.nt x := by
  rw [State.atPosition, State.deputyStarts, State.modPart_nt, State.atLeast_nt]

@[simp] theorem State.atPosition_incidents : (s.atPosition p x).incidents = s.incidents := by
  rw [State.atPosition, State.deputyStarts, State.modPart_incidents, State.atLeast_incidents]

theorem State.atPosition_prtState (q : Nat) : (s.atPosition p x).prtState q = s.prtState q := s.atPosition_getF x _ _

theorem State.atPosition_tilesOf (q : Nat) : (s.atPosition p x).tilesOf q = s.tilesOf q := by
  simp only [State.tilesOf, State.ownsRegion, State.atPosition_getF]

@[simp] theorem State.atLeast_gearDue (y : Nat) : (s.atLeast x).gearDue y = s.gearDue y := by
  have boundary : (s.atLeast x).gearAt = s.gearAt := by simp only [State.gearAt, State.get64, State.atLeast_getF]
  simp only [State.gearDue, State.getB, State.atLeast_getF, boundary]

theorem holdoverLong_congr {u v : State} (ht : u.time.holdNt = v.time.holdNt)
    (hf : u.getF pgTMB Reg.TMB_HOLD_NS_NS = v.getF pgTMB Reg.TMB_HOLD_NS_NS) (y : Nat) : u.holdoverLong y = v.holdoverLong y := by
  simp only [State.holdoverLong, ht, hf]

theorem State.atPosition_holdoverLong (y : Nat) : (s.atPosition p x).holdoverLong y = s.holdoverLong y := by
  have since : (s.atPosition p x).time.holdNt = s.time.holdNt := by
    rw [State.atPosition, State.deputyStarts, State.modPart_time, State.atLeast]
    split <;> rfl
  exact holdoverLong_congr since (s.atPosition_getF x _ _) y

/-- A late position asks for fences, and changes nothing else. -/
theorem State.holdoverFences_only : s.holdoverFences x = { s with parts := (s.holdoverFences x).parts } := by
  rw [State.holdoverFences]
  split
  · refine State.forEach_keeps s (fun u => u = { s with parts := u.parts }) _ _ (fun u q _ h => ?_) rfl
    exact congrArg (fun v : State => { v with parts := (u.modPart q (fun y => { y with fenceAsked := true })).parts }) h
  · rfl

theorem State.holdoverFences_time : (s.holdoverFences x).time = s.time := by rw [State.holdoverFences_only]

theorem State.holdoverFences_incidents : (s.holdoverFences x).incidents = s.incidents := by rw [State.holdoverFences_only]

theorem State.holdoverFences_getF (pg : Nat) (f : Fld) : (s.holdoverFences x).getF pg f = s.getF pg f := by
  rw [State.holdoverFences_only]
  rfl

end position

end Sys2Proof.Machine
end

section
/-! SUPPORT. What a command at a round-start position does, and the theorem about round starts and round-start positions
(01 R24, R25, R31; 02 R58; 03 R64; 08 R251; 10 R292, R294, R310; 12 R363). -/

namespace Sys2Proof.Machine

variable {s : State} {p : Nat}

/-! ### The launch NT -/

/-- At a launch NT time is anchored there where no partition runs yet, and the launch is recorded. -/
def State.atLaunch (s : State) (p l : Nat) : State :=
  let a := s.atPosition p l
  (if allParts.any a.partRuns then a else { a with time := { a.time with anchor := max a.time.anchor l } }).launchRecord p l

@[simp] theorem State.lbRecord_parts (u : State) (r : LbData) (n : Nat) : (u.lbRecord r n).parts = u.parts := by
  have put : ∀ (v : State) (r : LbData), (v.lbPut r).parts = v.parts := fun _ _ => rfl
  have lost : ∀ v : State, ((v.setF pgHIF Reg.HIF_LB_STAT_LOST 1).addF pgHIF Reg.HIF_LB_LOSTCNT_COUNT 1).parts = v.parts :=
    fun _ => rfl
  unfold State.lbRecord
  split
  · rfl
  · cases u.hif.lbGap <;> simp [apply_ite State.parts, put, lost]

theorem State.atLaunch_parts (l : Nat) : (s.atLaunch p l).parts = (s.atPosition p l).parts := by
  rw [State.atLaunch, State.launchRecord, State.lbRecord_parts]
  split <;> rfl

theorem State.atLaunch_roundView (l : Nat) : (s.atLaunch p l).roundView = (s.atPosition p l).roundView := by
  rw [State.atLaunch, State.launchRecord_roundView]
  split <;> rfl

section loaded
variable {l : Nat} (hst : s.prtState p = prtLOADED) (hl : (s.part p).launchNt = some l) (hg : s.gearDue l = false)
include hst hl hg

theorem State.applyRoundStart_launch (hh : s.holdoverLong l = false) :
    s.applyRoundStart p = (s.atLaunch p l).beginRound p 0 l := by
  have long : ((s.atLeast l).deputyStarts p).holdoverLong l = false := (s.atPosition_holdoverLong l l).trans hh
  have st : ((s.atLeast l).deputyStarts p).prtState p = prtLOADED := (s.atPosition_prtState l p).trans hst
  simp only [State.applyRoundStart, hl, State.atLeast_gearDue, hg, State.holdoverFences, long, st, Bool.false_eq_true, if_false,
    if_true]
  rfl

/-- A launch that comes so late in a holdover ends in the fence. -/
theorem State.applyRoundStart_late (hh : s.holdoverLong l = true) :
    s.applyRoundStart p = (((s.atPosition p l).holdoverFences l).modPart p (fun x => { x with launchNt := none })).fence p := by
  have long : ((s.atPosition p l).holdoverFences l).holdoverLong l = true :=
    (holdoverLong_congr (congrArg TimeBase.holdNt (State.holdoverFences_time _ l)) (State.holdoverFences_getF _ l _ _) l).trans
      ((s.atPosition_holdoverLong l l).trans hh)
  have st : ((s.atPosition p l).holdoverFences l).prtState p = prtLOADED :=
    (State.holdoverFences_getF _ l _ _).trans ((s.atPosition_prtState l p).trans hst)
  have at0 : (s.atLeast l).deputyStarts p = s.atPosition p l := rfl
  simp only [State.applyRoundStart, hl, State.atLeast_gearDue, hg, at0, long, st, Bool.false_eq_true, if_false, if_true]

end loaded

/-! ### The next position of a partition that runs -/

section running
variable (hst : s.prtState p = prtRUNNING) (hl : (s.part p).launchNt = none) (hg : s.gearDue (s.part p).nextNt = false)
  (hh : s.holdoverLong (s.part p).nextNt = false)
include hst hl hg hh

/-- It fences, stops or begins its next round. -/
theorem State.applyRoundStart_running : s.applyRoundStart p =
    if (s.part p).fenceAsked then ((s.atPosition p (s.part p).nextNt).stepWithoutTiles p).fence p
    else if (s.part p).stopNt.any (fun z => decide (z ≤ (s.part p).nextNt)) then (s.atPosition p (s.part p).nextNt).stopHalt p
    else (s.atPosition p (s.part p).nextNt).beginRound p (s.part p).nextRound (s.part p).nextNt := by
  have long : (s.atPosition p (s.part p).nextNt).holdoverLong (s.part p).nextNt = false :=
    (s.atPosition_holdoverLong _ _).trans hh
  have st : (s.atPosition p (s.part p).nextNt).prtState p ≠ prtLOADED := by
    rw [State.atPosition_prtState, hst]
    decide
  have at0 : (s.atLeast (s.part p).nextNt).deputyStarts p = s.atPosition p (s.part p).nextNt := rfl
  simp only [State.applyRoundStart, hl, State.atLeast_gearDue, hg, at0, State.holdoverFences, long, st, State.atPosition_part,
    Bool.false_eq_true, if_false]
  cases (s.part p).stopNt <;> simp

end running

/-! ### The commands -/

/-- The partition's tiles have halted, and it is launched or runs: its round start takes place. -/
theorem exec_roundStart (q : PartId) (hi : ∀ t ∈ s.tilesOf q.val, s.seqState t ≠ seqRUNNING)
    (hd : s.prtState q.val = prtRUNNING ∨ s.prtState q.val = prtLOADED ∧ (s.part q.val).launchNt.isSome = true) :
    exec (.roundStart q) s = .next (s.applyRoundStart q.val) := by
  have idle : (s.tilesOf q.val).all (fun t => s.seqState t != seqRUNNING) = true :=
    List.all_eq_true.mpr (fun t ht => bne_iff_ne.mpr (hi t ht))
  have due : (s.prtState q.val == prtLOADED && (s.part q.val).launchNt.isSome || s.prtState q.val == prtRUNNING) = true := by
    rcases hd with h | ⟨h, hn⟩
    · simp [h]
    · simp [h, hn]
  have step : exec (.roundStart q) s = execRoundStart q s := rfl
  rw [step, execRoundStart]
  simp only [idle, due, Bool.and_self, if_true]

theorem exec_heldRoundPosition (q : PartId) (hst : s.prtState q.val = prtHOLDING) (hr : s.replayDue q.val = false)
    (hg : s.gearDue (s.part q.val).nextNt = false) (hf : (s.part q.val).fenceAsked = false) :
    exec (.heldRoundPosition q) s = .next ((s.atPosition q.val (s.part q.val).nextNt).modPart q.val (fun x => { x with
      gear := (s.atPosition q.val (s.part q.val).nextNt).gear, startNt := (s.part q.val).nextNt,
      nextNt := (s.part q.val).nextNt + (s.atPosition q.val (s.part q.val).nextNt).roundNt q.val,
      nextRound := (x.nextRound + 1) % 2 ^ 32 })) := by
  have step : exec (.heldRoundPosition q) s = execHeldRoundPosition q s := rfl
  have at0 : (s.atLeast (s.part q.val).nextNt).deputyStarts q.val = s.atPosition q.val (s.part q.val).nextNt := rfl
  rw [step, execHeldRoundPosition]
  simp only [hst, hr, State.atLeast_gearDue, hg, at0, State.atPosition_part, hf, Bool.false_eq_true, not_false_eq_true, and_self,
    if_true, if_false]

/-! ### The parts of the statement -/

section parts
variable (q : PartId)

/-- Without a partition's own tiles running, a position finds the registers that the state held. -/
theorem State.atPosition_startArch {x t : Nat} (hst : s.prtState p = prtRUNNING) : (s.atPosition p x).startArch p t =
    if (s.part p).decision = true ∧ s.ownTiles p = [] then { (s.tile t).arch with stamps := [] } else (s.tile t).arch := by
  have own : (s.atPosition p x).ownTiles p = s.ownTiles p :=
    ownTiles_congr (fun k r _ => congrArg (Nat.testBit · r) (s.atPosition_getF x _ _)) (by rw [State.atPosition_part])
      (by simp only [State.chipId, State.atPosition_getF])
  simp only [State.startArch, State.atPosition_prtState, hst, own, State.atPosition_part, State.atPosition_tile, true_and]

/-- A running partition begins its next round at its position. -/
theorem completes_next_round (hi : ∀ t ∈ s.tilesOf q.val, s.seqState t ≠ seqRUNNING) (hst : s.prtState q.val = prtRUNNING)
    (hl : (s.part q.val).launchNt = none) (hg : s.gearDue (s.part q.val).nextNt = false)
    (hh : s.holdoverLong (s.part q.val).nextNt = false) (hf : (s.part q.val).fenceAsked = false)
    (hz : ∀ z, (s.part q.val).stopNt = some z → (s.part q.val).nextNt < z) :
    Completes (.roundStart q) s (s.Begins q.val (s.part q.val).nextNt (s.part q.val).nextRound) := by
  have on : (s.part q.val).stopNt.any (fun z => decide (z ≤ (s.part q.val).nextNt)) = false := by
    cases h : (s.part q.val).stopNt with
    | none => rfl
    | some z => simpa using hz z h
  refine ⟨_, exec_roundStart q hi (.inl hst), ?_⟩
  rw [State.applyRoundStart_running hst hl hg hh, hf, on]
  refine Begins.congr q.isLt (fun _ _ _ => s.atPosition_getF _ _ _) (fun t => congrArg Tile.arch (s.atPosition_tile _ t)) ?_ ?_ ?_ ?_
    (State.beginRound_begins _ q.isLt _ _ ?_)
  · rw [State.atPosition_part]
  · rw [State.atPosition_part]
  · rw [State.atPosition_part]
  · rw [State.atPosition_part]
  · rw [State.atPosition_nt]
    exact Nat.le_max_right _ _

/-- A loaded partition begins round 0 at its launch NT. -/
theorem completes_launch {l : Nat} (hi : ∀ t ∈ s.tilesOf q.val, s.seqState t ≠ seqRUNNING) (hst : s.prtState q.val = prtLOADED)
    (hl : (s.part q.val).launchNt = some l) (hg : s.gearDue l = false) (hh : s.holdoverLong l = false) :
    Completes (.roundStart q) s (s.Begins q.val l 0) := by
  have view := s.atLaunch_roundView (p := q.val) l
  have part : (s.atLaunch q.val l).part q.val = (s.atPosition q.val l).part q.val :=
    congrArg (fun m : Map Part => m.get q.val .reset) (s.atLaunch_parts l)
  refine ⟨_, exec_roundStart q hi (.inr ⟨hst, by rw [hl]; rfl⟩), ?_⟩
  rw [State.applyRoundStart_launch hst hl hg hh]
  refine Begins.congr q.isLt (fun pg f hr => (getF_of_roundView view hr).trans (s.atPosition_getF l pg f))
    (fun t => (arch_of_roundView view t).trans (congrArg Tile.arch (s.atPosition_tile l t))) ?_ ?_ ?_ ?_
    (State.beginRound_begins _ q.isLt _ _ ?_)
  · rw [part, State.atPosition_part]
  · rw [part, State.atPosition_part]
  · rw [part, State.atPosition_part]
  · rw [part, State.atPosition_part]
  · rw [nt_of_roundView view, State.atPosition_nt]
    exact Nat.le_max_right _ _

/-- A launch late in a holdover is fenced. -/
theorem completes_late_launch {l : Nat} (hi : ∀ t ∈ s.tilesOf q.val, s.seqState t ≠ seqRUNNING)
    (hst : s.prtState q.val = prtLOADED) (hl : (s.part q.val).launchNt = some l) (hg : s.gearDue l = false)
    (hh : s.holdoverLong l = true) :
    Completes (.roundStart q) s (fun u => u.prtState q.val = prtFENCED ∧ Reports s u 0x3005 pgETU) := by
  have before : ((s.atPosition q.val l).holdoverFences l).incidents = s.incidents :=
    (State.holdoverFences_incidents _ l).trans (s.atPosition_incidents l)
  refine ⟨_, exec_roundStart q hi (.inr ⟨hst, by rw [hl]; rfl⟩), ?_⟩
  rw [State.applyRoundStart_late hst hl hg hh]
  obtain ⟨i, hr, hc, hb⟩ := State.fence_reports (((s.atPosition q.val l).holdoverFences l).modPart q.val
    (fun x => { x with launchNt := none })) (p := q.val)
  exact ⟨State.fence_prtState _ q.isLt, i, hr.trans (congrArg (· ++ [i]) before), hc, hb⟩

/-- A fence that was asked for takes place at the position. -/
theorem completes_fence (hi : ∀ t ∈ s.tilesOf q.val, s.seqState t ≠ seqRUNNING) (hst : s.prtState q.val = prtRUNNING)
    (hl : (s.part q.val).launchNt = none) (hg : s.gearDue (s.part q.val).nextNt = false)
    (hh : s.holdoverLong (s.part q.val).nextNt = false) (hf : (s.part q.val).fenceAsked = true) :
    Completes (.roundStart q) s (fun u => u.prtState q.val = prtFENCED ∧ Reports s u 0x3005 pgETU ∧
      (u.part q.val).starts = (s.part q.val).starts ∧ ∀ t ∈ s.tilesOf q.val, u.seqState t = seqFENCED ∧
        (u.tile t).arch = if (s.part q.val).decision = true ∧ s.ownTiles q.val = [] then { (s.tile t).arch with stamps := [] }
          else (s.tile t).arch) := by
  refine ⟨_, exec_roundStart q hi (.inl hst), ?_⟩
  rw [State.applyRoundStart_running hst hl hg hh, if_pos hf]
  have tiles : (s.atPosition q.val (s.part q.val).nextNt).tilesOf q.val = s.tilesOf q.val := s.atPosition_tilesOf _ _
  have stepped : ((s.atPosition q.val (s.part q.val).nextNt).stepWithoutTiles q.val).tilesOf q.val = s.tilesOf q.val :=
    (tilesOf_congr (fun k r hk => congrArg (Nat.testBit · r) (State.stepWithoutTiles_getF _ (.regions hk))) q.isLt).trans tiles
  obtain ⟨i, hr, hc, hb⟩ := State.fence_reports ((s.atPosition q.val (s.part q.val).nextNt).stepWithoutTiles q.val) (p := q.val)
  refine ⟨State.fence_prtState _ q.isLt, ⟨i, ?_, hc, hb⟩, ?_, fun t ht => ⟨?_, ?_⟩⟩
  · rw [hr, State.stepWithoutTiles_incidents, State.atPosition_incidents]
  · rw [State.fence_starts, State.stepWithoutTiles_part, State.atPosition_part]
  · exact State.fence_seqState _ (stepped.symm ▸ ht)
  · rw [State.fence_arch, State.stepWithoutTiles_arch _ q.isLt (tiles.symm ▸ ht), State.atPosition_startArch hst]

/-- A partition whose stop NT has come halts and is loaded again. -/
theorem completes_stop {z : Nat} (hi : ∀ t ∈ s.tilesOf q.val, s.seqState t ≠ seqRUNNING) (hst : s.prtState q.val = prtRUNNING)
    (hl : (s.part q.val).launchNt = none) (hg : s.gearDue (s.part q.val).nextNt = false)
    (hh : s.holdoverLong (s.part q.val).nextNt = false) (hf : (s.part q.val).fenceAsked = false)
    (hs : (s.part q.val).stopNt = some z) (hz : z ≤ (s.part q.val).nextNt) :
    Completes (.roundStart q) s (fun u => u.prtState q.val = prtLOADED ∧ (u.part q.val).stopNt = none ∧
      ∀ t ∈ s.tilesOf q.val, u.seqState t = seqHALTED) := by
  have come : (s.part q.val).stopNt.any (fun z => decide (z ≤ (s.part q.val).nextNt)) = true := by
    rw [hs]
    exact decide_eq_true hz
  refine ⟨_, exec_roundStart q hi (.inl hst), ?_⟩
  rw [State.applyRoundStart_running hst hl hg hh, hf, come]
  exact ⟨State.stopHalt_prtState _ q.isLt, State.stopHalt_stopNt _ q.isLt,
    fun t ht => State.stopHalt_seqState _ q.isLt ((s.atPosition_tilesOf _ _).symm ▸ ht)⟩

/-- A partition that holds lets the position pass and places the next. -/
theorem completes_held_position (hst : s.prtState q.val = prtHOLDING) (hr : s.replayDue q.val = false)
    (hg : s.gearDue (s.part q.val).nextNt = false) (hf : (s.part q.val).fenceAsked = false) :
    Completes (.heldRoundPosition q) s (fun u => u.prtState q.val = prtHOLDING ∧ u.round q.val = s.round q.val ∧
      (s.part q.val).nextNt ≤ u.nt ∧ u.part q.val = { s.part q.val with
        gear := s.gear, startNt := (s.part q.val).nextNt, nextNt := (s.part q.val).nextNt + s.roundNt q.val,
        nextRound := ((s.part q.val).nextRound + 1) % 2 ^ 32,
        deputy := (s.part q.val).deputy || (s.part q.val).deputyNext, deputyNext := false }) := by
  have gear : (s.atPosition q.val (s.part q.val).nextNt).gear = s.gear := s.atPosition_getF _ _ _
  have len : (s.atPosition q.val (s.part q.val).nextNt).roundNt q.val = s.roundNt q.val := by
    simp only [State.roundNt, State.roundLen, gear, State.atPosition_getF]
  refine ⟨_, exec_heldRoundPosition q hst hr hg hf, ?_, ?_, ?_, ?_⟩
  · rw [State.modPart_prtState, State.atPosition_prtState, hst]
  · exact s.atPosition_getF (p := q.val) _ _ _
  · rw [State.modPart_nt, State.atPosition_nt]
    exact Nat.le_max_right _ _
  · rw [State.part_modPart_same, State.atPosition_part, gear, len]

end parts

theorem roundStarts_claim : Claims.RoundStarts := by
  intro s q x arch begins hi
  exact ⟨fun hst hl hg hh hf hz => completes_next_round q hi hst hl hg hh hf hz,
    fun l hst hl hg hh => completes_launch q hi hst hl hg hh⟩

theorem roundPositions_claim : Claims.RoundPositions := by
  intro s q x arch
  exact ⟨fun l hst hl hi hg hh => completes_late_launch q hi hst hl hg hh, fun hg =>
    ⟨fun hst hl hi hh => ⟨fun hf => completes_fence q hi hst hl hg hh hf, fun z hf hs hz => completes_stop q hi hst hl hg hh hf hs hz⟩,
      fun hst hr hf => completes_held_position q hst hr hg hf⟩⟩

/-- Settles O24: a round start is followed through its steps, of which the teardowns, the links that resume and the collection leave
the view that a round begins from; at a position a partition fences, stops, holds or begins its next round. -/
theorem roundStarts : Obligations.RoundStarts := ⟨roundStarts_claim, roundPositions_claim⟩

end Sys2Proof.Machine
end

section
/-! SUPPORT. The word of a matrix operation decodes to the operation it was made from (04 Table 11). -/

namespace Sys2Proof

/-! ### Words made of fields -/

/-- A top field with the fields `fs` below it, the last one first. -/
noncomputable def under (top : (n : Nat) × BitVec n) (fs : List ((n : Nat) × BitVec n)) : (n : Nat) × BitVec n :=
  fs.foldr (fun f w => ⟨w.1 + f.1, w.2 ++ f.2⟩) top

section fields
variable (top : (n : Nat) × BitVec n)

theorem extractLsb'_append_add {m n : Nat} (x : BitVec m) (y : BitVec n) (lo len : Nat) :
    (x ++ y).extractLsb' (n + lo) len = x.extractLsb' lo len := by
  rw [BitVec.extractLsb'_append_eq_of_le (Nat.le_add_right n lo), Nat.add_sub_cancel_left]

/-- The top field stands above all others. -/
theorem top_under (fs : List ((n : Nat) × BitVec n)) :
    (under top fs).2.extractLsb' (fs.map Sigma.fst).sum top.1 = top.2 := by
  induction fs with
  | nil => exact BitVec.extractLsb'_eq_self ..
  | cons f fs ih => exact (extractLsb'_append_add ..).trans ih

/-- A field stands above those after it. -/
theorem field_under {fs : List ((n : Nat) × BitVec n)} (i : Nat) {f : (n : Nat) × BitVec n} (h : fs[i]? = some f) :
    (under top fs).2.extractLsb' ((fs.take i).map Sigma.fst).sum f.1 = f.2 := by
  induction fs generalizing i with
  | nil => exact absurd h.symm (Option.some_ne_none f)
  | cons g fs ih =>
    induction i with
    | zero =>
      obtain rfl : g = f := Option.some.inj h
      exact (BitVec.extractLsb'_append_eq_of_add_le (Nat.zero_add g.1).le).trans (BitVec.extractLsb'_eq_self ..)
    | succ i _ => exact (extractLsb'_append_add ..).trans (ih i h)

theorem bit_of_field {m : Nat} {w : BitVec m} {i : Nat} {b : Bool} (h : w.extractLsb' i 1 = b1 b) : w.getLsbD i = b := by
  have low : (b1 b).getLsbD 0 = b := by induction b <;> rfl
  rw [← low, ← h, BitVec.getLsbD_extractLsb', Nat.add_zero]
  rfl

end fields

/-- What `decodeMx` makes of a word w that is no NOP, its opcode being `op`. -/
noncomputable def mxOfCode (w : Word) (op : BitVec 4) : Dec MxOp :=
  if op = 0x0 then .ill 2
  else if op = 0x1 then
    .chk false (fld w 0 13 != 0) false (.mxload (bit w 27) (fld w 21 6) (fld w 17 4) (bit w 16) (fld w 13 3))
  else if op = 0x2 then
    .chk false false (rowsBeyond (fld w 13 6) (fld w 19 6))
      (.mxstream (bit w 27) (bit w 26) (bit w 25) (fld w 19 6) (fld w 13 6) (fld w 7 6) (fld w 3 4) (fld w 0 3))
  else if op = 0x3 then
    .chk false (fld w 0 16 != 0) (rowsBeyond (fld w 22 6) (fld w 16 6)) (.tclr (fld w 22 6) (fld w 16 6))
  else if op = 0x4 then
    .chk false (fld w 0 5 != 0) (rowsBeyond (fld w 22 6) (fld w 16 6))
      (.tload (fld w 22 6) (fld w 16 6) (fld w 10 6) (fld w 6 4) (bit w 5))
  else if op = 0x5 then
    .chk false (bit w 0) (rowsBeyond (fld w 22 6) (fld w 16 6))
      (.tdrain (fld w 22 6) (fld w 16 6) (fld w 10 6) (fld w 6 4) (bit w 5) (bit w 4) (fld w 1 3))
  else .ill 1

/-- A word with an opcode is not the word of NOP. -/
theorem decodeMx_of_code {w : Word} {k : BitVec 4} (h : fld w 28 4 = k) (hk : k ≠ 0) : decodeMx w = mxOfCode w k :=
  (if_neg (e := mxOfCode w (fld w 28 4)) (fun e => hk (h.symm.trans (congrArg (fun w => fld w 28 4) e)))).trans
    (congrArg (mxOfCode w) h)

/-- A word whose fields pass the checks is its operation. -/
theorem chk_ok {z b : Bool} {o op : MxOp} (hz : z = false) (hb : b = false) (ho : o = op) : Dec.chk false z b o = .ok op := by
  subst hz hb ho
  rfl

theorem decodeMx_encodeMx_mxload (plane : Bool) (h : BitVec 6) (an : BitVec 4) (pi : Bool) (mc : BitVec 3) :
    decodeMx (encodeMx (.mxload plane h an pi mc)) = .ok (.mxload plane h an pi mc) :=
  let top : (n : Nat) × BitVec n := ⟨4, 1⟩
  let fs : List ((n : Nat) × BitVec n) := [⟨13, 0⟩, ⟨3, mc⟩, ⟨1, b1 pi⟩, ⟨4, an⟩, ⟨6, h⟩, ⟨1, b1 plane⟩]
  let read {f : (n : Nat) × BitVec n} (i : Nat) (h : fs[i]? = some f) := field_under top i h
  (decodeMx_of_code (k := 1) (top_under top fs) (by decide)).trans (chk_ok (congrArg (· != 0) (read 0 rfl)) rfl
    (congr (congr (congr (congr (congrArg MxOp.mxload (bit_of_field (read 5 rfl))) (read 4 rfl)) (read 3 rfl))
      (bit_of_field (read 2 rfl))) (read 1 rfl)))

theorem decodeMx_encodeMx_mxstream (plane chk pi : Bool) (m t0 h : BitVec 6) (an : BitVec 4) (mc : BitVec 3)
    (rows : rowsBeyond t0 m = false) :
    decodeMx (encodeMx (.mxstream plane chk pi m t0 h an mc)) = .ok (.mxstream plane chk pi m t0 h an mc) :=
  let top : (n : Nat) × BitVec n := ⟨4, 2⟩
  let fs : List ((n : Nat) × BitVec n) := [⟨3, mc⟩, ⟨4, an⟩, ⟨6, h⟩, ⟨6, t0⟩, ⟨6, m⟩, ⟨1, b1 pi⟩, ⟨1, b1 chk⟩, ⟨1, b1 plane⟩]
  let read {f : (n : Nat) × BitVec n} (i : Nat) (h : fs[i]? = some f) := field_under top i h
  (decodeMx_of_code (k := 2) (top_under top fs) (by decide)).trans (chk_ok rfl
    ((congr (congrArg rowsBeyond (read 3 rfl)) (read 4 rfl)).trans rows)
    (congr (congr (congr (congr (congr (congr (congr (congrArg MxOp.mxstream (bit_of_field (read 7 rfl)))
      (bit_of_field (read 6 rfl))) (bit_of_field (read 5 rfl))) (read 4 rfl)) (read 3 rfl)) (read 2 rfl)) (read 1 rfl))
      (read 0 rfl)))

theorem decodeMx_encodeMx_tclr (t0 n : BitVec 6) (rows : rowsBeyond t0 n = false) :
    decodeMx (encodeMx (.tclr t0 n)) = .ok (.tclr t0 n) :=
  let top : (n : Nat) × BitVec n := ⟨4, 3⟩
  let fs : List ((n : Nat) × BitVec n) := [⟨16, 0⟩, ⟨6, n⟩, ⟨6, t0⟩]
  let read {f : (n : Nat) × BitVec n} (i : Nat) (h : fs[i]? = some f) := field_under top i h
  (decodeMx_of_code (k := 3) (top_under top fs) (by decide)).trans (chk_ok (congrArg (· != 0) (read 0 rfl))
    ((congr (congrArg rowsBeyond (read 2 rfl)) (read 1 rfl)).trans rows)
    (congr (congrArg MxOp.tclr (read 2 rfl)) (read 1 rfl)))

theorem decodeMx_encodeMx_tload (t0 n h : BitVec 6) (an : BitVec 4) (pi : Bool) (rows : rowsBeyond t0 n = false) :
    decodeMx (encodeMx (.tload t0 n h an pi)) = .ok (.tload t0 n h an pi) :=
  let top : (n : Nat) × BitVec n := ⟨4, 4⟩
  let fs : List ((n : Nat) × BitVec n) := [⟨5, 0⟩, ⟨1, b1 pi⟩, ⟨4, an⟩, ⟨6, h⟩, ⟨6, n⟩, ⟨6, t0⟩]
  let read {f : (n : Nat) × BitVec n} (i : Nat) (h : fs[i]? = some f) := field_under top i h
  (decodeMx_of_code (k := 4) (top_under top fs) (by decide)).trans (chk_ok (congrArg (· != 0) (read 0 rfl))
    ((congr (congrArg rowsBeyond (read 5 rfl)) (read 4 rfl)).trans rows)
    (congr (congr (congr (congr (congrArg MxOp.tload (read 5 rfl)) (read 4 rfl)) (read 3 rfl)) (read 2 rfl))
      (bit_of_field (read 1 rfl))))

theorem decodeMx_encodeMx_tdrain (t0 n h : BitVec 6) (an : BitVec 4) (pi clr : Bool) (mc : BitVec 3)
    (rows : rowsBeyond t0 n = false) :
    decodeMx (encodeMx (.tdrain t0 n h an pi clr mc)) = .ok (.tdrain t0 n h an pi clr mc) :=
  let top : (n : Nat) × BitVec n := ⟨4, 5⟩
  let fs : List ((n : Nat) × BitVec n) := [⟨1, 0⟩, ⟨3, mc⟩, ⟨1, b1 clr⟩, ⟨1, b1 pi⟩, ⟨4, an⟩, ⟨6, h⟩, ⟨6, n⟩, ⟨6, t0⟩]
  let read {f : (n : Nat) × BitVec n} (i : Nat) (h : fs[i]? = some f) := field_under top i h
  (decodeMx_of_code (k := 5) (top_under top fs) (by decide)).trans (chk_ok (bit_of_field (b := false) (read 0 rfl))
    ((congr (congrArg rowsBeyond (read 7 rfl)) (read 6 rfl)).trans rows)
    (congr (congr (congr (congr (congr (congr (congrArg MxOp.tdrain (read 7 rfl)) (read 6 rfl)) (read 5 rfl)) (read 4 rfl))
      (bit_of_field (read 3 rfl))) (bit_of_field (read 2 rfl))) (read 1 rfl)))

/-- An operation whose rows lie in the Tally file is read back from its word. -/
theorem decodeMx_encodeMx (op : MxOp) (h : op.WF = true) : decodeMx (encodeMx op) = .ok op := by
  unhygienic induction op with
  | nop => rfl
  | mxload => exact decodeMx_encodeMx_mxload ..
  | mxstream => exact decodeMx_encodeMx_mxstream _ _ _ _ _ _ _ _ ((Bool.not_eq_true' _).mp h)
  | tclr => exact decodeMx_encodeMx_tclr _ _ ((Bool.not_eq_true' _).mp h)
  | tload => exact decodeMx_encodeMx_tload _ _ _ _ _ ((Bool.not_eq_true' _).mp h)
  | tdrain => exact decodeMx_encodeMx_tdrain _ _ _ _ _ _ _ ((Bool.not_eq_true' _).mp h)

end Sys2Proof
end

section
/-! SUPPORT. What the operations in flight leave of a tile in a beat: whether it runs and the last beat of its round, the beat of its
sequencer, its A registers, and the beats in which its paths are free again (03 R63, R75; 04 R95). -/

namespace Sys2Proof.Machine

/-! ### The view that a beat leaves -/

/-- What of a tile only issue and the passing of beats change: its beat, its A registers, and when the array's entry, its weight path and
its row path are free again. -/
noncomputable def Tile.steady (x : Tile) : Nat × Map (PV 32) × Nat × Nat × Nat :=
  (x.seq.beat, x.arch.areg, x.entryFree, x.weightFree, x.rowFree)

/-- What the operations in flight leave of tile t: whether it runs, the last beat of its round, and what is steady of the tile. -/
abbrev BeatView : Type := Bool × Nat × Nat × Map (PV 32) × Nat × Nat × Nat

noncomputable def State.beatView (t : Nat) (s : State) : BeatView := (s.tileRuns t, s.lastBeat t, (s.tile t).steady)

variable {s u : State} {t : Nat}

theorem beat_of_beatView (h : u.beatView t = s.beatView t) : (u.tile t).seq.beat = (s.tile t).seq.beat :=
  congrArg (fun v : BeatView => v.2.2.1) h

theorem rdA_of_steady {x y : Tile} (h : y.steady.2 = x.steady.2) (r : BitVec 4) : y.arch.rdA r = x.arch.rdA r :=
  congrArg (fun v => v.1.get r.toNat (.zero 32)) h

theorem rest_of_beatView {r : Bool} {l b : Nat} {v : Map (PV 32) × Nat × Nat × Nat} (h : u.beatView t = (r, l, b, v)) :
    (u.tile t).steady.2 = v := congrArg (fun v : BeatView => v.2.2.2) h

/-- The first of the four partitions that holds region r, their regions being a, b, c and d. -/
noncomputable def firstHolding (r a b c d : Nat) : Option Nat :=
  bif a.testBit r then some 0 else bif b.testBit r then some 1 else bif c.testBit r then some 2 else
  bif d.testBit r then some 3 else none

/-- The partition of a tile is one of four, and its regions say which. -/
theorem State.partOfTile_eq (s : State) (t : Nat) : s.partOfTile t = firstHolding (t / 16) (s.getF (pgPRT 0) Reg.PRT_STAT_REGIONS)
    (s.getF (pgPRT 1) Reg.PRT_STAT_REGIONS) (s.getF (pgPRT 2) Reg.PRT_STAT_REGIONS) (s.getF (pgPRT 3) Reg.PRT_STAT_REGIONS) := rfl

theorem State.partOfTile_lt (s : State) (t : Nat) : (s.partOfTile t).getD 0 < 4 := by
  cases h : s.partOfTile t with
  | none => decide
  | some p =>
    have found : p ∈ List.range 4 := List.mem_of_find?_eq_some (p := fun p => s.ownsRegion p (t / 16)) h
    exact List.mem_range.mp found

/-! ### The primitive updates -/

variable (s)

/-- Where registers and the tile stay, the view stays. -/
theorem State.beatView_of {u : State} (hr : u.regs = s.regs) (ht : u.tiles = s.tiles) : u.beatView t = s.beatView t :=
  let view (r : Map Nat) (m : Map Tile) : BeatView := State.beatView t { s with regs := r, tiles := m }
  congrArg₂ view hr ht

theorem State.beatView_ite {c : Prop} [Decidable c] {a b : State} (ha : a.beatView t = s.beatView t)
    (hb : b.beatView t = s.beatView t) : (if c then a else b).beatView t = s.beatView t := by
  split
  · exact ha
  · exact hb

theorem State.beatView_snd_ite {α : Type} {c : Prop} [Decidable c] {x y : α × State} (hx : x.2.beatView t = s.beatView t)
    (hy : y.2.beatView t = s.beatView t) : (if c then x else y).2.beatView t = s.beatView t := by
  split
  · exact hx
  · exact hy

/-- A field apart from the regions and round lengths of the partitions and from the state of the tile's sequencer. -/
theorem State.setF_beatView {pg : Nat} {f : Fld} (v : Nat)
    (hp : ∀ p, p < 4 → ∀ r : Fld, r.off < 0x10000 → r.lo < 32 → f.key pg ≠ r.key (pgPRT p))
    (hs : f.key pg ≠ Reg.TIL_SEQ_STAT_STATE.key (pgTIL t)) : (s.setF pg f v).beatView t = s.beatView t := by
  have regions : ∀ p, p < 4 → (s.setF pg f v).getF (pgPRT p) Reg.PRT_STAT_REGIONS = s.getF (pgPRT p) Reg.PRT_STAT_REGIONS :=
    fun p h => s.getF_setF_ne pg _ f _ v (hp p h _ (by decide) (by decide))
  have len : (s.setF pg f v).roundLen ((s.partOfTile t).getD 0) = s.roundLen ((s.partOfTile t).getD 0) :=
    s.getF_setF_ne pg _ f _ v (hp _ (s.partOfTile_lt t) _ (by decide) (by decide))
  have part : (s.setF pg f v).partOfTile t = s.partOfTile t :=
    ((s.setF pg f v).partOfTile_eq t).trans ((congr (congr (congr (congrArg (firstHolding (t / 16)) (regions 0 (by decide)))
      (regions 1 (by decide))) (regions 2 (by decide))) (regions 3 (by decide))).trans (s.partOfTile_eq t).symm)
  have state : (s.setF pg f v).seqState t = s.seqState t := s.getF_setF_ne pg _ f _ v hs
  simp only [State.beatView, State.tileRuns, State.lastBeat, state, part, len, State.setF_tile]

/-- The same for the page of the tile. -/
theorem State.setF_til_beatView {f : Fld} (v : Nat) (hf : f.apart = true) : (s.setF (pgTIL t) f v).beatView t = s.beatView t := by
  have far : aside (pgTIL t) f = true := aside_far (Nat.le_add_right 0x100 t) hf
  exact s.setF_beatView v (fun p h r ho hl => key_ne_of_aside far (.inl ⟨Nat.add_lt_add_left (h.trans (by decide : 4 < 8)) 8, ho, hl⟩))
    (key_ne_of_aside far (.inr (.inr ⟨t, rfl, .inl rfl⟩)))

theorem State.addF_til_beatView {f : Fld} (n : Nat) (hf : f.apart = true) : (s.addF (pgTIL t) f n).beatView t = s.beatView t :=
  s.setF_til_beatView _ hf

theorem State.setFs_til_beatView (l : List (Fld × Nat)) (hl : (l.map Prod.fst).all Fld.apart = true) :
    (s.setFs (pgTIL t) l).beatView t = s.beatView t := by
  induction l generalizing s with
  | nil => rfl
  | cons e l ih =>
    simp only [List.map_cons, List.all_cons, Bool.and_eq_true] at hl
    rw [State.setFs_cons, ih _ hl.2]
    exact s.setF_til_beatView _ hl.1

/-- An update of the tile is one of the view's tile. -/
theorem State.modTile_view (f : Tile → Tile) : (s.modTile t f).beatView t = (s.tileRuns t, s.lastBeat t, (f (s.tile t)).steady) := by
  rw [State.beatView, State.tile_modTile_same]
  rfl

theorem State.modTile_beatView (f : Tile → Tile) (h : ∀ x, (f x).steady = x.steady) :
    (s.modTile t f).beatView t = s.beatView t := by
  rw [State.modTile_view, h]
  rfl

theorem State.modArch_beatView (f : Arch → Arch) (h : ∀ a, (f a).areg = a.areg) :
    (s.modArch t f).beatView t = s.beatView t :=
  s.modTile_beatView _ (fun x => congrArg (fun r => (x.seq.beat, r, x.entryFree, x.weightFree, x.rowFree)) (h x.arch))

@[simp] theorem State.raise_beatView (i : Incident) : (s.raise i).beatView t = s.beatView t := s.beatView_of rfl rfl

@[simp] theorem State.raiseTile_beatView (t' code inst op h off syn b : Nat) :
    (s.raiseTile t' code inst op h off syn b).beatView t = s.beatView t := s.beatView_of rfl rfl

@[simp] theorem State.freeBits_beatView (w : Nat) : (s.freeBits w).2.beatView t = s.beatView t := s.beatView_of rfl rfl

theorem State.atBeat_kept (t' b : Nat) : (s.atBeat t' b).regs = s.regs ∧ (s.atBeat t' b).tiles = s.tiles := by
  unfold State.atBeat
  cases s.partOfTile t' with
  | none => exact ⟨rfl, rfl⟩
  | some p => exact ⟨State.atLeast_regs _ _, State.atLeast_tiles _ _⟩

@[simp] theorem State.atBeat_beatView (t' b : Nat) : (s.atBeat t' b).beatView t = s.beatView t :=
  s.beatView_of (s.atBeat_kept t' b).1 (s.atBeat_kept t' b).2

theorem State.atBeat_tile (b : Nat) : (s.atBeat t b).tile t = s.tile t :=
  congrArg (fun m : Map Tile => m.get t .reset) (s.atBeat_kept t b).2

/-! ### Control words, handles and flags -/

@[simp] theorem State.useControl_beatView (f : Upset → Bool) (block : Nat) (p : Option Nat) :
    (s.useControl f block p).2.beatView t = s.beatView t :=
  have low : ∀ {n k : Nat}, 3 < n → pgETU ≠ n + k := fun h => Nat.ne_of_lt (Nat.lt_add_right _ h)
  s.beatView_snd_ite rfl (s.beatView_snd_ite (s.beatView_of rfl rfl)
    ((State.setF_beatView _ _ (fun p _ r ho hl e => low (by decide) ((Fld.key_inj (by decide) ho (by decide) hl).mp e).1)
      (fun e => low (by decide) ((Fld.key_inj (by decide) (by decide) (by decide) (by decide)).mp e).1)).trans
      (s.beatView_of rfl rfl)))

@[simp] theorem State.useHandle_beatView (t' h : Nat) : (s.useHandle t' h).beatView t = s.beatView t :=
  s.useControl_beatView _ _ _

/-- What no flag register holds stays as flags are set. -/
theorem State.orFlags_kept {α : Type} (P : State → α)
    (keep : ∀ (u : State) (r : Fld), r.apart = true → P (u.setF (pgTIL t) r 1) = P u) (f : AFlags) : P (s.orFlags t f) = P s := by
  have flag : ∀ (u : State) (i : Nat) (r : Fld), r.apart = true →
      P (if f.getLsbD i = true then u.setF (pgTIL t) r 1 else u) = P u := fun u i r hr => by
    split
    · exact keep u r hr
    · rfl
  exact (flag _ 7 _ rfl).trans ((flag _ 6 _ rfl).trans ((flag _ 5 _ rfl).trans ((flag _ 4 _ rfl).trans
    ((flag _ 3 _ rfl).trans ((flag _ 2 _ rfl).trans ((flag _ 1 _ rfl).trans (flag _ 0 _ rfl)))))))

@[simp] theorem State.orFlags_beatView (f : AFlags) : (s.orFlags t f).beatView t = s.beatView t :=
  s.orFlags_kept (State.beatView t) (fun u _ hr => u.setF_til_beatView 1 hr) f

@[simp] theorem State.spill_beatView (op b : Nat) : (s.spill t op b).beatView t = s.beatView t :=
  (State.raiseTile_beatView ..).trans (s.orFlags_beatView _)

/-- A row that ends beyond the range reports a spill. -/
theorem State.spill_if_beatView (c : Prop) [Decidable c] (op b : Nat) :
    (if c then s.spill t op b else s).beatView t = s.beatView t := s.beatView_ite (s.spill_beatView op b) rfl

@[simp] theorem State.refuse_beatView (c : HCheck) (h off p op b : Nat) (tenant : Option Nat) :
    (s.refuse t c h off p op b tenant).beatView t = s.beatView t := by
  induction c with
  | refused => exact (State.raise_beatView ..).trans ((State.setF_til_beatView _ _ rfl).trans (s.addF_til_beatView _ rfl))
  | _ => exact s.addF_til_beatView _ rfl

@[simp] theorem State.refusePoison_beatView : (s.refusePoison t).beatView t = s.beatView t :=
  (State.setF_til_beatView _ _ rfl).trans (s.addF_til_beatView _ rfl)

/-! ### Words of scratchpad -/

@[simp] theorem State.hazard_beatView (h p kind op b off : Nat) : (s.hazard t h p kind op b off).beatView t = s.beatView t :=
  (State.raiseTile_beatView ..).trans (s.beatView_ite rfl (s.setFs_til_beatView _ rfl))

@[simp] theorem State.unrepairable_beatView (unit h b : Nat) : (s.unrepairable t unit h b).beatView t = s.beatView t :=
  (State.raiseTile_beatView ..).trans (s.setF_til_beatView _ rfl)

@[simp] theorem State.queueRepair_beatView (unit word h b : Nat) : (s.queueRepair t unit word h b).beatView t = s.beatView t :=
  s.beatView_ite (s.modTile_beatView _ (fun _ => rfl)) ((State.unrepairable_beatView ..).trans (s.setF_til_beatView _ rfl))

@[simp] theorem State.queueWriteBack_beatView (unit word : Nat) : (s.queueWriteBack t unit word).beatView t = s.beatView t :=
  s.beatView_ite (s.modTile_beatView _ (fun _ => rfl)) rfl

@[simp] theorem State.uncorrectable_beatView (h off unit word wi syn code op b : Nat) :
    (s.uncorrectable t h off unit word wi syn code op b).beatView t = s.beatView t := by
  have counted := (State.setF_til_beatView _ 1 (f := Reg.TIL_SPD_ERR_UE) rfl).trans (s.addF_til_beatView (t := t) 1
    (f := Reg.TIL_SPD_UECNT_COUNT) rfl)
  have raised := (State.raiseTile_beatView _ (t := t) t code (tierOf unit) op h off (syn + 256 * wi) b).trans counted
  exact s.beatView_ite (s.beatView_ite ((State.queueRepair_beatView ..).trans raised) raised) counted

@[simp] theorem State.readKey_beatView (h off key wi : Nat) (detect : Bool) (code op b : Nat) :
    (s.readKey t h off key wi detect code op b).2.beatView t = s.beatView t := by
  unfold State.readKey
  dsimp only
  cases eccRead ((s.tile t).spd.get key 0) with
  | good | poison => rfl
  | uncorrectable => exact s.uncorrectable_beatView ..
  | correctable d =>
    exact s.beatView_snd_ite (s.uncorrectable_beatView ..)
      ((State.queueWriteBack_beatView ..).trans ((State.setF_til_beatView _ _ rfl).trans (s.addF_til_beatView _ rfl)))

@[simp] theorem State.writeKey_beatView (key : Nat) (v : PV 32) (sealBit classW : Bool) :
    (s.writeKey t key v sealBit classW).beatView t = s.beatView t := s.modTile_beatView _ (fun _ => rfl)

@[simp] theorem State.readWords_beatView (h off : Nat) (hd : Handle) (p : Nat) (ks : List Nat) (op b : Nat) :
    (s.readWords t h off hd p ks op b).2.beatView t = s.beatView t :=
  (foldl_same (fun a : List (PV 32) × State => a.2.beatView t) _ _ _ (fun a _ => a.2.beatView_ite
    ((State.modTile_beatView _ _ (by intro x; rfl)).trans (State.readKey_beatView ..)) (State.readKey_beatView ..))).trans
    (s.beatView_ite (s.hazard_beatView ..) rfl)

@[simp] theorem State.writeWords_beatView (h off : Nat) (hd : Handle) (p : Nat) (ws : List (Nat × PV 32)) (op b : Nat) :
    (s.writeWords t h off hd p ws op b).beatView t = s.beatView t :=
  (foldl_same (State.beatView t) _ _ _ (fun a _ => a.writeKey_beatView ..)).trans (s.beatView_ite (s.hazard_beatView ..) rfl)

@[simp] theorem State.injected_beatView : (s.injected (pgTIL t)).beatView t = s.beatView t := by
  let cleared := s.setFs (pgTIL t) [(Reg.BLK_STAT_INJPEND, 0), (Reg.BLK_ERR_INJ, 1)]
  calc (s.injected (pgTIL t)).beatView t
    _ = (cleared.setF (pgTIL t) Reg.BLK_ERR_INJ_ARM 0).beatView t := State.beatView_of _ rfl rfl
    _ = cleared.beatView t := State.setF_til_beatView _ _ rfl
    _ = s.beatView t := s.setFs_til_beatView _ rfl

@[simp] theorem State.injectTile_beatView (ws : List (Nat × Nat)) : (s.injectTile t ws).beatView t = s.beatView t := by
  refine s.beatView_ite rfl ?_
  generalize ws.foldl _ none = hit
  induction hit with
  | none => rfl
  | some w => exact (State.injected_beatView _).trans (s.modTile_beatView _ (fun _ => rfl))

@[simp] theorem State.suppress_beatView (b loser winner p h off op : Nat) :
    (s.suppress t b loser winner p h off op).beatView t = s.beatView t := by
  unfold State.suppress
  extract_lets pg counted noted
  have hc : counted.beatView t = s.beatView t := s.addF_til_beatView 1 rfl
  have hn : noted.beatView t = s.beatView t := s.beatView_ite hc ((counted.setFs_til_beatView _ rfl).trans hc)
  refine s.beatView_ite hn ?_
  rw [State.raiseTile_beatView]
  exact (State.modTile_beatView _ _ (by intro x; rfl)).trans hn

/-! ### The accesses of a beat -/

@[simp] theorem checkHandles_beatView (b : Nat) (l : List Access) : (checkHandles s t b l).2.beatView t = s.beatView t := by
  refine foldl_same (fun a : List Checked × State => a.2.beatView t) _ _ _ (fun acc a => ?_)
  have used := acc.2.useHandle_beatView (t := t) t a.o.h
  refine acc.2.beatView_snd_ite ((State.refusePoison_beatView _).trans used) ?_
  generalize Handle.check .. = answer
  induction answer with
  | pass => exact used
  | _ => exact (State.refuse_beatView ..).trans used

@[simp] theorem performAll_beatView (b : Nat) (l : List (Checked × Fate)) : (performAll s t b l).2.beatView t = s.beatView t := by
  refine (State.injectTile_beatView _ _).trans ?_
  refine foldl_same (fun a : List (Access × List (PV 32)) × State × List (Nat × Nat) => a.2.1.beatView t) _ _ _ (fun acc e => ?_)
  obtain ⟨res, u, ws⟩ := acc
  obtain ⟨c, fate⟩ := e
  induction fate with
  | refused => rfl
  | lost => exact u.suppress_beatView ..
  | proceeds =>
    dsimp only
    generalize c.a.wr = words
    induction words with
    | none => exact u.readWords_beatView ..
    | some => exact u.writeWords_beatView ..

/-- The accesses accs, made in the beat, their data delivered to the operations in flight. -/
noncomputable def accessBeat (s : State) (t b : Nat) (accs : List Access) : State :=
  let fl := (s.tile t).flight
  let (cl, s) := checkHandles s t b accs
  let (res, s) := performAll s t b (inSteps (fates s t b cl))
  s.modTile t (fun x => { x with flight := (fl.zipIdx).map (fun f =>
    res.foldl (fun (g : Flight) r => if r.1.fi = f.2 ∧ r.1.wr.isNone then deliver g r.1 r.2 else g) f.1) })

theorem State.runAccesses_eq (b : Nat) : s.runAccesses t b =
    accessBeat s t b (((s.tile t).flight.zipIdx).map (fun f => flightAccesses f.2 b f.1)).flatten := rfl

theorem accessBeat_beatView (b : Nat) (l : List Access) : (accessBeat s t b l).beatView t = s.beatView t := by
  have hc := checkHandles_beatView s (t := t) b l
  unfold accessBeat
  generalize checkHandles s t b l = checked at hc ⊢
  obtain ⟨cl, s1⟩ := checked
  exact Eq.trans (b := State.beatView t (Prod.snd (performAll s1 _ _ _))) (State.modTile_beatView _ _ (by intro x; rfl))
    ((performAll_beatView s1 b _).trans hc)

@[simp] theorem State.runAccesses_beatView (b : Nat) : (s.runAccesses t b).beatView t = s.beatView t :=
  (congrArg (State.beatView t) (s.runAccesses_eq b)).trans (accessBeat_beatView s b _)

/-! ### The effects of a beat -/

@[simp] theorem State.useStamps_beatView (rm stream : Nat) : (s.useStamps t rm stream).beatView t = s.beatView t := by
  unfold State.useStamps
  split
  · exact s.modArch_beatView _ (fun _ => rfl)
  · rfl

@[simp] theorem Arch.areg_wrT (a : Arch) (r c : Nat) (v : TEnt) : (a.wrT r c v).areg = a.areg := rfl

@[simp] theorem Arch.areg_setRow (a : Arch) (row : Nat) (xs : List TEnt) : (a.setRow row xs).areg = a.areg :=
  foldl_same Arch.areg _ _ _ (fun _ _ => rfl)

@[simp] theorem Arch.areg_checks (a : Arch) (ck : Map (BitVec 136)) (ckv : Map Bool) :
    ({ a with cksum := ck, ckvClear := ckv } : Arch).areg = a.areg := rfl

@[simp] theorem Arch.areg_clearRow (a : Arch) (row : Nat) : (a.clearRow row).areg = a.areg := by
  rw [Arch.clearRow, Arch.areg_checks]
  exact foldl_same Arch.areg (fun a c => a.wrT row c .zero) (List.range 64) a (fun a c => a.areg_wrT row c .zero)

@[simp] theorem Arch.areg_wrLanes (a : Arch) (vd : Nat) (l : List (Nat × Word × PV 32)) : (a.wrLanes vd l).areg = a.areg :=
  foldl_same Arch.areg _ _ _ (fun _ _ => rfl)

@[simp] theorem Arch.areg_wrS (a : Arch) (i : BitVec 5) (v : PV 32) : (a.wrS i v).areg = a.areg := by
  unfold Arch.wrS
  split <;> rfl

@[simp] theorem Arch.areg_wrP (a : Arch) (i : BitVec 3) (v : PV 64) : (a.wrP i v).areg = a.areg := by
  unfold Arch.wrP
  split <;> rfl

@[simp] theorem Arch.areg_setPlane (a : Arch) (p : Bool) (x : Plane) : (a.setPlane p x).areg = a.areg := by
  induction p <;> rfl

theorem drainStep_beatView (b : Nat) (f : Flight) : (drainStep s t b f).2.beatView t = s.beatView t := by
  have same : s.beatView t = s.beatView t := rfl
  unhygienic induction f with
  | tdrain =>
    refine s.beatView_snd_ite ((State.beatView_ite _ ((State.raiseTile_beatView ..).trans ((State.addF_til_beatView _ _ rfl).trans
      (State.setFs_til_beatView _ _ rfl))) rfl).trans ?_) rfl
    exact (State.spill_if_beatView ..).trans ((State.orFlags_beatView ..).trans (s.beatView_ite rfl (s.useStamps_beatView ..)))
  | _ => exact same

theorem State.clearsLoads_beatView (b : Nat) (f : Flight) : (s.clearsLoads t b f).beatView t = s.beatView t := by
  have same : s.beatView t = s.beatView t := rfl
  unhygienic induction f with
  | tclr iss t0 n =>
    exact s.beatView_ite (s.modArch_beatView _ (fun a => foldl_same Arch.areg _ _ a (fun a j => a.areg_clearRow _))) rfl
  | tdrain iss t0 n o sc clr mc out scout => exact s.beatView_ite (s.modArch_beatView _ (fun a => a.areg_clearRow _)) rfl
  | tload iss t0 n o buf =>
    exact s.beatView_ite ((State.spill_if_beatView _ _ _ _).trans
      (s.modArch_beatView _ (fun a => (Arch.areg_checks _ _ _).trans (a.areg_setRow _ _)))) rfl
  | _ => exact same

theorem State.openRow_beatView (row op b : Nat) (clr : Bool) : (s.openRow t row op b clr).beatView t = s.beatView t := by
  have hd := foldl_same (fun a : List TEnt × State => a.2.beatView t) (fun acc (_ : Nat) =>
    let (v, s) := acc.2.freeBits 129
    (acc.1 ++ [⟨BitVec.ofNat 128 v, v.testBit 128⟩], s)) (List.range 64) ([], s) (fun a _ => a.2.freeBits_beatView 129)
  unfold State.openRow
  generalize (List.range 64).foldl _ ([], s) = drawn at hd ⊢
  obtain ⟨xs, s1⟩ := drawn
  refine (State.spill_if_beatView _ _ _ _).trans ((State.orFlags_beatView _ _).trans ?_)
  refine (State.modArch_beatView _ _ (fun a => (Arch.areg_checks _ _ _).trans (a.areg_setRow _ _))).trans ?_
  exact (State.freeBits_beatView _ 8).trans ((s1.freeBits_beatView 136).trans hd)

theorem State.contributeRow_beatView (b : Nat) (chk : Bool) (mc : PV 64) (z : StreamRow) :
    (s.contributeRow t b chk mc z).beatView t = s.beatView t := by
  unfold State.contributeRow
  extract_lets clr a pairs added flagged
  refine s.beatView_ite (s.openRow_beatView ..) ?_
  have ha : added.beatView t = s.beatView t := s.modArch_beatView _ (fun a => by
    extract_lets rows cleared
    have hr : rows.areg = a.areg := a.areg_setRow _ _
    have hc : cleared.areg = a.areg := (apply_ite Arch.areg _ _ _).trans ((ite_self _).trans hr)
    exact (apply_ite Arch.areg _ _ _).trans ((ite_self _).trans hc))
  have hg : flagged.beatView t = s.beatView t := (added.orFlags_beatView _).trans ha
  exact s.beatView_ite ((flagged.spill_beatView _ _).trans hg) hg

theorem flightEffect_beatView (b : Nat) (f : Flight) : (flightEffect s t b f).2.beatView t = s.beatView t := by
  have same : s.beatView t = s.beatView t := rfl
  unhygienic induction f with
  | ld | sres => exact s.beatView_ite (s.modArch_beatView _ (fun a => a.areg_wrS _ _)) rfl
  | mxload => exact s.beatView_ite (s.modArch_beatView _ (fun a => a.areg_setPlane _ _)) rfl
  | mxstream => exact foldl_same (State.beatView t) _ _ _ (fun u z => u.beatView_ite (u.contributeRow_beatView ..) rfl)
  | vres =>
    exact s.beatView_ite ((State.orFlags_beatView _ _).trans (s.modArch_beatView _ (fun a => a.areg_wrLanes _ _))) rfl
  | pres =>
    exact s.beatView_ite ((State.orFlags_beatView _ _).trans (s.modArch_beatView _ (fun a => a.areg_wrP _ _))) rfl
  | vld => exact s.beatView_ite (s.modArch_beatView _ (fun a => a.areg_wrLanes _ _)) rfl
  | vptld | vdclr => exact s.beatView_ite (s.modArch_beatView _ (fun _ => rfl)) rfl
  | vdispatch =>
    exact s.beatView_snd_ite (s.beatView_snd_ite rfl ((State.addF_til_beatView _ _ rfl).trans (s.modArch_beatView _ (fun _ => rfl))))
      (s.beatView_ite (s.modArch_beatView _ (fun a => a.areg_wrLanes _ _)) rfl)
  | _ => exact same

/-- The tile with the operations l in flight. -/
noncomputable def Tile.withFlight (l : List Flight) (x : Tile) : Tile := { x with flight := l }

/-- The effects of the operations fl in the beat, its accesses made. -/
noncomputable def flightBeat (s : State) (t b : Nat) (fl : List Flight) : State :=
  let drained := fl.foldl (fun (acc : List Flight × State) f =>
    let r := drainStep acc.2 t b f
    (acc.1 ++ [r.1], r.2)) ([], s)
  let fl := drained.1.map (fun f => enterRow drained.2 t b (drained.1.any (loadsPlane b (streamPlane f))) f)
  let done := fl.foldl (fun (acc : List Flight × State) f =>
    let r := flightEffect acc.2 t b f
    (acc.1 ++ [r.1], r.2)) ([], fl.foldl (fun s f => s.clearsLoads t b f) drained.2)
  done.2.modTile t (.withFlight (done.1.filter (fun f => decide (b < flightLast f))))

theorem State.runFlights_eq (b : Nat) :
    s.runFlights t b = flightBeat (s.runAccesses t b) t b ((s.runAccesses t b).tile t).flight := rfl

theorem flightBeat_beatView (b : Nat) (fl : List Flight) : (flightBeat s t b fl).beatView t = s.beatView t := by
  refine Eq.trans (b := State.beatView t (Prod.snd (List.foldl _ _ _))) (State.modTile_beatView _ _ (fun _ => rfl)) ?_
  refine (foldl_same (fun a : List Flight × State => a.2.beatView t) _ _ _ (fun a f => flightEffect_beatView a.2 b f)).trans ?_
  refine (foldl_same (State.beatView t) _ _ _ (fun u f => u.clearsLoads_beatView b f)).trans ?_
  exact foldl_same (fun a : List Flight × State => a.2.beatView t) _ fl ([], s) (fun a f => drainStep_beatView a.2 b f)

/-- The accesses and effects of a beat. -/
@[simp] theorem State.runFlights_beatView (b : Nat) : (s.runFlights t b).beatView t = s.beatView t :=
  (congrArg (State.beatView t) (s.runFlights_eq b)).trans ((flightBeat_beatView _ b _).trans (s.runAccesses_beatView b))

end Sys2Proof.Machine
end

section
/-! SUPPORT. Beats pass, and a matrix operation issues: what its tile is in the beats after (03 R63, R75; 04 R97, R100). -/

namespace Sys2Proof.Machine

variable {s : State} {t : Nat}

/-! ### Beats in which no bundle issues -/

/-- The tile a beat of WAIT later, from beat b on. -/
noncomputable def Tile.held (b : Nat) (x : Tile) : Tile :=
  { x with seq := { x.seq with beat := b + 1, wait := x.seq.wait - 1 } }

/-- Before the last beat of the round a beat of WAIT is the work in flight, and the sequencer goes on to the next. -/
theorem State.heldBeat_eq (h : (s.tile t).seq.beat ≠ s.lastBeat t) :
    s.heldBeat t =
      ((s.atBeat t (s.tile t).seq.beat).runFlights t (s.tile t).seq.beat).modTile t (.held (s.tile t).seq.beat) := by
  have last : (s.atBeat t (s.tile t).seq.beat).lastBeat t = s.lastBeat t :=
    congrArg (fun v : BeatView => v.2.1) (s.atBeat_beatView t _)
  rw [State.heldBeat]
  exact if_neg (last ▸ h)

/-- A beat of WAIT moves the beat of the view on by one. -/
theorem State.heldBeat_beatView {runs : Bool} {last beat : Nat} {v : Map (PV 32) × Nat × Nat × Nat}
    (h : s.beatView t = (runs, last, beat, v)) (hb : beat ≠ last) : (s.heldBeat t).beatView t = (runs, last, beat + 1, v) := by
  have view := (State.runFlights_beatView _ (s.tile t).seq.beat).trans ((s.atBeat_beatView t (s.tile t).seq.beat).trans h)
  obtain rfl : (s.tile t).seq.beat = beat := congrArg (fun v : BeatView => v.2.2.1) h
  have last_eq : s.lastBeat t = last := congrArg (fun v : BeatView => v.2.1) h
  rw [State.heldBeat_eq (hb.trans_eq last_eq.symm), State.modTile_view]
  generalize (s.atBeat t (s.tile t).seq.beat).runFlights t (s.tile t).seq.beat = u at view ⊢
  exact congrArg (fun v : BeatView => (v.1, v.2.1, (s.tile t).seq.beat + 1, v.2.2.2)) view

theorem State.passN_succ (n : Nat) (hr : s.tileRuns t = true) : s.passN t (n + 1) = (s.heldBeat t).passN t n :=
  if_pos (by rw [hr]; rfl)

theorem State.passN_one (hr : s.tileRuns t = true) : s.passN t 1 = s.heldBeat t := State.passN_succ 0 hr

/-- Beats before the last one of the round pass. -/
theorem State.passN_beatView (n : Nat) {last beat : Nat} {v : Map (PV 32) × Nat × Nat × Nat}
    (h : s.beatView t = (true, last, beat, v)) (hb : beat + n ≤ last) : (s.passN t n).beatView t = (true, last, beat + n, v) := by
  induction n generalizing s beat with
  | zero => exact h
  | succ n ih =>
    have here : beat ≠ last := Nat.ne_of_lt (Nat.lt_of_lt_of_le (Nat.lt_add_of_pos_right (Nat.succ_pos n)) hb)
    have next := Nat.succ_add_eq_add_succ beat n
    rw [State.passN_succ n (congrArg Prod.fst h), ih (State.heldBeat_beatView h here) (next.trans_le hb), next]

/-! ### Issue -/

/-- The tile with its loops settled. -/
noncomputable def Tile.settled (x : Tile) : Tile := { x with seq := x.seq.settle }

/-- The tile as a bundle issues: its loops are settled, and time stands at its beat. -/
noncomputable def State.atIssue (s : State) (t : Nat) : State :=
  let u := s.modTile t .settled
  u.atBeat t (u.tile t).seq.beat

@[simp] theorem State.atIssue_tile : (s.atIssue t).tile t = (s.tile t).settled :=
  (State.atBeat_tile _ _).trans (s.tile_modTile_same t _)

theorem State.atIssue_beatView : (s.atIssue t).beatView t = s.beatView t :=
  (State.atBeat_beatView _ _ _).trans (s.modTile_beatView _ (fun _ => rfl))

/-- The matrix operation of a bundle, the other slots NOP. -/
noncomputable def mxBundle (op : MxOp) : Bundle := ⟨.nop, .nop, op, .nop⟩

/-- A matrix operation is legal when its path is free. -/
theorem bundleFault_mx {x : Tile} {len b : Nat} {op : MxOp} (hw : op.WF = true) (hb : mxBad x op b = none) :
    bundleFault x len b (encodeSc .nop, encodeDm .nop, encodeMx op, encodeVx .nop) = none := by
  have mx : slotReason (decodeMx (encodeMx op)) (fun o => mxBad x o b) = none :=
    (congrArg (slotReason · (fun o => mxBad x o b)) (decodeMx_encodeMx op hw)).trans hb
  delta bundleFault
  dsimp only
  rw [mx]
  rfl

/-- The tile as a matrix operation leaves it in its issue beat, from registers `a`: `st` is what starts and what it adds, and the other
slots start and add nothing. -/
noncomputable def Tile.startMx (y : Tile) (a : Arch) (b : Nat) (op : MxOp) (st : List Flight × List Incr) : Tile :=
  busyAfter { y with arch := applyIncrs y.arch (st.2 ++ []), flight := y.flight ++ [] ++ [] ++ st.1 ++ [], seq := y.seq.after .nop } a b
    (mxBundle op)

theorem State.issueLegal_mx (op : MxOp) :
    s.issueLegal t (mxBundle op) =
      let x := s.tile t
      let b := x.seq.beat
      let a := x.arch
      let r := (s.runFlights t b).modTile t (fun y => y.startMx a b op (mxStart a b op))
      r.setFs (pgTIL t) [(Reg.TIL_SEQ_STAT_PC, x.seq.pc), (Reg.TIL_SEQ_STAT_LOOP_DEPTH, (r.tile t).seq.loops.length),
        (Reg.TIL_SEQ_BEAT_BEAT, b)] := by
  delta State.issueLegal mxBundle
  extract_lets +onlyGivenNames x b a u
  dsimp -iota -zeta only
  refine Prod.casesOn (mxStart a b op) (fun f i => ?_)
  exact if_neg (fun e => ScOp.noConfusion e)

/-- Its words issue the operation before the last beat of the round. -/
theorem State.issueWords_mx {op : MxOp} (hw : op.WF = true) (hb : mxBad (s.tile t) op (s.tile t).seq.beat = none)
    (hl : (s.tile t).seq.beat ≠ s.lastBeat t) :
    s.issueWords t (encodeSc .nop, encodeDm .nop, encodeMx op, encodeVx .nop) = s.issueLegal t (mxBundle op) := by
  delta State.issueWords
  dsimp only
  rw [bundleFault_mx hw hb, decodeMx_encodeMx op hw]
  exact if_neg (Bool.eq_false_iff.mp (beq_false_of_ne hl))

/-- A legal matrix operation of a running tile issues, and beats pass. -/
theorem State.issueOp_mx {op : MxOp} {n : Nat} (m : Nat) (h : Ready s t n) (hw : op.WF = true)
    (hb : mxBad (s.tile t) op (s.tile t).seq.beat = none) :
    s.issueOp t (mxBundle op) m = ((s.atIssue t).issueLegal t (mxBundle op)).passN t m := by
  obtain ⟨hr, hwait, hl⟩ := h
  have ready : s.readyToIssue t = s.modTile t .settled :=
    congrArg (fun n => (State.passBeats t (fun s => decide (0 < (s.tile t).seq.wait)) n s).modTile t .settled) hwait
  have now : (s.readyToIssue t).atBeat t ((s.readyToIssue t).tile t).seq.beat = s.atIssue t :=
    congrArg (fun u : State => u.atBeat t (u.tile t).seq.beat) ready
  have runs : (s.readyToIssue t).tileRuns t = true := (congrArg (State.tileRuns · t) ready).trans hr
  have early : ((s.atIssue t).tile t).seq.beat ≠ (s.atIssue t).lastBeat t := fun e =>
    Nat.ne_of_lt (Nat.lt_of_le_of_lt (Nat.le_add_right _ n) hl)
      ((congrArg (fun v : BeatView => v.2.2.1) s.atIssue_beatView).symm.trans
        (e.trans (congrArg (fun v : BeatView => v.2.1) s.atIssue_beatView)))
  have words := State.issueWords_mx hw ((congrArg (fun x : Tile => mxBad x op x.seq.beat) s.atIssue_tile).trans hb) early
  exact (if_pos hr).trans ((if_pos runs).trans (congrArg (fun u => State.passN u t m)
    ((congrArg (State.issueWords · t _) now).trans words)))

/-- Issue takes a beat and adds the post-increments: only the beats in which the paths are free again depend on more. -/
theorem Tile.startMx_regs (y : Tile) (a : Arch) (b : Nat) (op : MxOp) (st : List Flight × List Incr) :
    ((y.startMx a b op st).seq.beat, (y.startMx a b op st).arch) = (y.seq.beat + 1, applyIncrs y.arch (st.2 ++ [])) := by
  have same : (y.seq.beat + 1, applyIncrs y.arch (st.2 ++ [])) = (y.seq.beat + 1, applyIncrs y.arch (st.2 ++ [])) := rfl
  unhygienic induction op <;> exact same

theorem Tile.startMx_arch (y : Tile) (a : Arch) (b : Nat) (op : MxOp) (st : List Flight × List Incr) :
    (y.startMx a b op st).arch = applyIncrs y.arch st.2 :=
  (congrArg Prod.snd (y.startMx_regs a b op st)).trans (congrArg (applyIncrs y.arch) (List.append_nil _))

/-- The tile as an operation issued in s starts. -/
noncomputable def State.mxStarted (s : State) (t : Nat) (op : MxOp) : Tile :=
  let x := s.tile t
  (((s.atIssue t).runFlights t x.seq.beat).tile t).startMx x.arch x.seq.beat op (mxStart x.arch x.seq.beat op)

/-- The work in flight in the beat of issue leaves the view. -/
theorem State.atIssue_flown : ((s.atIssue t).runFlights t (s.tile t).seq.beat).beatView t = s.beatView t :=
  (State.runFlights_beatView _ _).trans State.atIssue_beatView

theorem State.mxStarted_beat (op : MxOp) : (s.mxStarted t op).seq.beat = (s.tile t).seq.beat + 1 :=
  (congrArg Prod.fst (Tile.startMx_regs _ _ _ op _)).trans (congrArg Nat.succ (beat_of_beatView State.atIssue_flown))

theorem State.issueLegal_mx_beatView (op : MxOp) :
    ((s.atIssue t).issueLegal t (mxBundle op)).beatView t = (s.tileRuns t, s.lastBeat t, (s.mxStarted t op).steady) := by
  have flown := s.atIssue_flown (t := t)
  rw [State.issueLegal_mx, State.setFs_til_beatView _ _ rfl, State.modTile_view, beat_of_beatView s.atIssue_beatView,
    State.atIssue_tile, State.mxStarted]
  generalize (s.atIssue t).runFlights t (s.tile t).seq.beat = u at flown ⊢
  exact congrArg (fun v : BeatView => (v.1, v.2.1, ((u.tile t).startMx (s.tile t).arch (s.tile t).seq.beat op
    (mxStart (s.tile t).arch (s.tile t).seq.beat op)).steady)) flown

/-- The tile when the operation has issued and n beats have passed: its beat apart, as it started. -/
theorem State.issueOp_mx_steady {op : MxOp} {n : Nat} (h : Ready s t n) (hw : op.WF = true)
    (hb : mxBad (s.tile t) op (s.tile t).seq.beat = none) :
    ((s.issueOp t (mxBundle op) n).tile t).steady.2 = (s.mxStarted t op).steady.2 := by
  obtain ⟨hr, -, hl⟩ := id h
  have view := State.issueLegal_mx_beatView (s := s) (t := t) op
  have beat : (s.mxStarted t op).steady = ((s.tile t).seq.beat + 1, (s.mxStarted t op).steady.2) :=
    Prod.ext (s.mxStarted_beat op) rfl
  rw [hr, beat] at view
  have later : (s.tile t).seq.beat + 1 + n ≤ s.lastBeat t := (Nat.succ_add _ n).trans_le hl
  rw [State.issueOp_mx n h hw hb]
  exact rest_of_beatView (State.passN_beatView n view later)

end Sys2Proof.Machine
end

section
/-! SUPPORT. Path times and footprints of the matrix operations (03 R74, R75, R81; 04 R100, R114). -/

namespace Sys2Proof.Machine

variable {s : State} {t : Nat}

/-! ### Post-increments -/

/-- A register moved on by n. -/
noncomputable def plus (x : PV 32) (n : Nat) : PV 32 := ⟨x.v + BitVec.ofNat 32 n, x.p⟩

theorem plus_plus (x : PV 32) (m n : Nat) : plus (plus x m) n = plus x (m + n) :=
  congrArg (PV.mk · x.p) ((BitVec.add_assoc ..).trans (congrArg (x.v + ·) (BitVec.ofNat_add ..).symm))

theorem rdA_incIf (a : Arch) (c : Bool) (an r : BitVec 4) (n : Nat) :
    (applyIncrs a (incIf c an n)).rdA r = plus (a.rdA r) (if c = true ∧ r = an then n else 0) := by
  have still : plus (a.rdA r) 0 = a.rdA r := congrArg (PV.mk · (a.rdA r).p) (BitVec.add_zero _)
  by_cases h : c = true ∧ r = an
  · rw [if_pos h]
    obtain ⟨rfl, rfl⟩ := h
    exact a.rdA_wrA_same r _
  · rw [if_neg h, still]
    induction c with
    | false => rfl
    | true => exact a.rdA_wrA_ne _ _ _ (fun e => h ⟨rfl, e.symm⟩)

/-- The A register of the scale operand moves on, where MC asks for it. -/
theorem rdA_scaleIncr (a : Arch) (m : PV 64) (n : Nat) (r : BitVec 4) : (applyIncrs a (scaleIncr m n)).rdA r =
    plus (a.rdA r) (if mcField m.v .scpi = 1 ∧ r.toNat = mcField m.v .sca then n else 0) := by
  have small : mcField m.v .sca < 2 ^ 4 := Nat.mod_lt _ (by decide)
  have reg : r = BitVec.ofNat 4 (mcField m.v .sca) ↔ r.toNat = mcField m.v .sca :=
    ⟨fun e => BitVec.toNat_eq_nat.mpr ⟨small, e⟩, fun e => (BitVec.toNat_eq_nat.mp e).2⟩
  refine (rdA_incIf ..).trans (congrArg (plus (a.rdA r)) ?_)
  induction n with
  | zero => exact (ite_self 0).trans (ite_self 0).symm
  | succ n => exact if_congr (and_congr ((Bool.and_true _).symm ▸ beq_iff_eq) reg) rfl rfl

/-- What post-increments of the operand and of its scales add. -/
theorem rdA_operands (a : Arch) (an : BitVec 4) (pi : Bool) (m : PV 64) (n k : Nat) (r : BitVec 4) :
    (applyIncrs a (incIf pi an n ++ scaleIncr m k)).rdA r = plus (a.rdA r)
      ((if pi = true ∧ r = an then n else 0) + if mcField m.v .scpi = 1 ∧ r.toNat = mcField m.v .sca then k else 0) :=
  (congrArg (Arch.rdA · r) List.foldl_append).trans ((rdA_scaleIncr ..).trans
    ((congrArg (plus · _) (rdA_incIf ..)).trans (plus_plus ..)))

/-! ### What a matrix operation adds -/

/-- A matrix operation is carried out by issuing it: it is enough to say what it adds, and when its path is free as it starts (`free`
reads the path). -/
theorem completes_mx {t : TileId} {c : Instr} {op : MxOp} {n k : Nat} {inc : BitVec 4 → Nat}
    (free : Map (PV 32) × Nat × Nat × Nat → Nat)
    (step : exec c s = .next (s.issueOp t.val (mxBundle op) n)) (ready : Ready s t.val n) (hw : op.WF = true)
    (hb : mxBad (s.tile t.val) op (s.tile t.val).seq.beat = none)
    (hi : ∀ a r, (applyIncrs a (mxStart (s.tile t.val).arch (s.tile t.val).seq.beat op).2).rdA r = plus (a.rdA r) (inc r))
    (hk : free (s.mxStarted t.val op).steady.2 = k) :
    Completes c s (fun u => free (u.tile t.val).steady.2 = k ∧
      ∀ r, (u.tile t.val).arch.rdA r = plus ((s.tile t.val).arch.rdA r) (inc r)) := by
  have steady := State.issueOp_mx_steady ready hw hb
  refine ⟨_, step, (congrArg free steady).trans hk, fun r => ?_⟩
  rw [rdA_of_steady steady, State.mxStarted, Tile.startMx_arch, hi,
    rdA_of_steady (congrArg (fun v : BeatView => v.2.2.2) State.atIssue_flown)]

end Sys2Proof.Machine
end


section
/-! SUPPORT. A beat of a tile with one operation in flight that makes no access in it: rows that clear, planes that are complete, and
rows of products that are due (03 R72, R74, R78; 02 R44). -/

namespace Sys2Proof.Machine

variable {s : State} {t b : Nat}

/-! ### Beats without an access -/

/-- A beat without an access of the engines leaves the tile, but for the effects of its operations. -/
theorem accessBeat_nil : (accessBeat s t b []).tile t = s.tile t := by
  have inject : s.injectTile t [] = s := ite_self s
  have kept : ∀ u : State, u = s → (u.modTile t (fun x => { x with flight := ((s.tile t).flight.zipIdx).map Prod.fst })).tile t =
      s.tile t := fun u hu => by
    rw [hu, State.tile_modTile_same, List.zipIdx_map_fst]
  exact kept (s.injectTile t []) inject

/-- A beat in which the operations in flight make no access is their effects. -/
theorem State.runFlights_none {fl : List Flight} (h : (s.tile t).flight = fl)
    (ha : ((fl.zipIdx).map (fun f => flightAccesses f.2 b f.1)).flatten = []) :
    (s.runAccesses t b).tile t = s.tile t ∧ s.runFlights t b = flightBeat (s.runAccesses t b) t b fl := by
  subst h
  have read : (s.runAccesses t b).tile t = s.tile t := (congrArg (fun l => (accessBeat s t b l).tile t) ha).trans accessBeat_nil
  exact ⟨read, congrArg (fun x : Tile => flightBeat _ t b x.flight) read⟩

/-- With nothing in flight a beat leaves the tile. -/
theorem State.runFlights_idle (h : (s.tile t).flight = []) : (s.runFlights t b).tile t = s.tile t := by
  obtain ⟨read, run⟩ := State.runFlights_none h (b := b) rfl
  have empty : ∀ r : State, flightBeat r t b [] = r.modTile t (.withFlight []) := fun _ => rfl
  rw [run, empty, State.tile_modTile_same, read, ← h]
  rfl

theorem State.modTile_flight_arch (u : State) (l : List Flight) :
    ((u.modTile t (.withFlight l)).tile t).arch = (u.tile t).arch :=
  (congrArg Tile.arch (u.tile_modTile_same t (.withFlight l)) :)

/-- The registers after the effects of one operation that drains nothing: rows enter, are cleared or loaded, and it takes its effect. -/
theorem flightBeat_one (r : State) {f g : Flight} (hg : enterRow (drainStep r t b f).2 t b ([(drainStep r t b f).1].any
      (loadsPlane b (streamPlane (drainStep r t b f).1))) (drainStep r t b f).1 = g) : ((flightBeat r t b [f]).tile t).arch =
    ((flightEffect ((drainStep r t b f).2.clearsLoads t b g) t b g).2.tile t).arch := by
  subst hg
  exact State.modTile_flight_arch _ _

/-- A beat in which no bundle issues, before the last one of the round, with operations in flight that make no access in it. -/
theorem State.heldBeat_arch {fl : List Flight} (hb : (s.tile t).seq.beat = b) (hl : b ≠ s.lastBeat t) (h : (s.tile t).flight = fl)
    (ha : ((fl.zipIdx).map (fun f => flightAccesses f.2 b f.1)).flatten = []) :
    ∃ r : State, r.tile t = s.tile t ∧ ((s.heldBeat t).tile t).arch = ((flightBeat r t b fl).tile t).arch := by
  subst hb
  have tile := s.atBeat_tile (t := t) (s.tile t).seq.beat
  obtain ⟨read, run⟩ := State.runFlights_none ((congrArg Tile.flight tile).trans h) ha
  refine ⟨_, read.trans tile, ?_⟩
  rw [State.heldBeat_eq hl, State.tile_modTile_same, run]
  rfl

/-! ### Tally rows -/

/-- Zeros written in columns of a row are puts in the Tally file. -/
theorem tally_zeros (a : Arch) (row : Nat) (l : List Nat) : (l.foldl (fun a c => a.wrT row c .zero) a).tally =
    (l.map (64 * row + ·)).foldl (fun m k => m.put k TEnt.zero .zero) a.tally := by
  induction l generalizing a with
  | nil => rfl
  | cons c l ih => exact ih (a.wrT row c .zero)

theorem Arch.rdT_clearRow_same (a : Arch) (row : Nat) {c : Nat} (hc : c < 64) : (a.clearRow row).rdT row c = .zero := by
  simp only [Arch.clearRow, Arch.rdT, tally_zeros]
  exact Map.get_putEach TEnt.zero (fun _ => .zero) _ a.tally (List.mem_map_of_mem (List.mem_range.mpr hc))

theorem rdT_of_tally {a b : Arch} (h : a.tally = b.tally) (r c : Nat) : a.rdT r c = b.rdT r c := by rw [Arch.rdT, Arch.rdT, h]

/-- Zeros written in columns of a row leave the other rows. -/
theorem rdT_zeros_ne (a : Arch) {row r c : Nat} (l : List Nat) (hl : ∀ n ∈ l, n < 64) (hr : row ≠ r) (hc : c < 64) :
    (l.foldl (fun a c => a.wrT row c .zero) a).rdT r c = a.rdT r c :=
  List.foldlRecOn l (fun a c => a.wrT row c .zero) (motive := fun z : Arch => z.rdT r c = a.rdT r c) rfl
    (fun z hz n hn => (z.rdT_wrT_ne row n r c .zero (hl n hn) hc (.inl hr)).trans hz)

theorem Arch.rdT_clearRow_ne (a : Arch) {row r c : Nat} (hr : row ≠ r) (hc : c < 64) : (a.clearRow row).rdT r c = a.rdT r c := by
  have tally : (a.clearRow row).tally = ((List.range 64).foldl (fun a c => a.wrT row c .zero) a).tally := by rw [Arch.clearRow]
  exact (rdT_of_tally tally r c).trans (rdT_zeros_ne a _ (fun _ => List.mem_range.mp) hr hc)

theorem Arch.clearRow_checks (a : Arch) (row : Nat) :
    (a.clearRow row).cksum = a.cksum.put row 0 0 ∧ (a.clearRow row).ckvClear = a.ckvClear.put row false false := by
  have kept := foldl_same (fun a : Arch => (a.cksum, a.ckvClear)) (fun a c => a.wrT row c .zero) (List.range 64) a (fun _ _ => rfl)
  obtain ⟨hk, hv⟩ := Prod.mk.inj kept
  simp only [Arch.clearRow, hk, hv, and_self]

/-- A Tally row is clear: its entries and its checksum are 0, and CKV is set. -/
def Arch.RowClear (a : Arch) (row : Nat) : Prop :=
  (∀ c, c < 64 → a.rdT row c = .zero) ∧ a.cksum.get row 0 = 0 ∧ a.ckvClear.get row false = false

theorem rowClear_clearRow_same (a : Arch) (row : Nat) : (a.clearRow row).RowClear row := by
  obtain ⟨hk, hv⟩ := a.clearRow_checks row
  refine ⟨fun c hc => a.rdT_clearRow_same row hc, ?_, ?_⟩
  · rw [hk, Map.get_put_same]
  · rw [hv, Map.get_put_same]

/-- Clearing any row leaves a clear row clear. -/
theorem rowClear_clearRow {a : Arch} {r : Nat} (row : Nat) (h : a.RowClear r) : (a.clearRow row).RowClear r := by
  by_cases e : row = r
  · subst e
    exact rowClear_clearRow_same a row
  · obtain ⟨ht, hk, hv⟩ := h
    obtain ⟨hk', hv'⟩ := a.clearRow_checks row
    refine ⟨fun c hc => (a.rdT_clearRow_ne e hc).trans (ht c hc), ?_, ?_⟩
    · rw [hk', Map.get_put_ne _ _ _ _ _ _ e, hk]
    · rw [hv', Map.get_put_ne _ _ _ _ _ _ e, hv]

theorem rowClear_clears (a : Arch) (t0 : Nat) (l : List Nat) :
    ∀ j ∈ l, (l.foldl (fun a j => a.clearRow (t0 + j)) a).RowClear (t0 + j) := by
  induction l generalizing a with
  | nil => exact fun j hj => absurd hj List.not_mem_nil
  | cons i l ih =>
    intro j hj
    rw [List.foldl_cons]
    rcases List.mem_cons.mp hj with rfl | hj
    · exact List.foldlRecOn l _ (motive := fun z : Arch => z.RowClear (t0 + j)) (rowClear_clearRow_same a (t0 + j))
        (fun z hz k _ => rowClear_clearRow (t0 + k) hz)
    · exact ih _ j hj

/-- Entries set from column n of a row on leave the columns before. -/
theorem rdT_setEntries_lt (a : Arch) (row : Nat) (xs : List TEnt) {n c : Nat} (hn : n + xs.length ≤ 64) (h : c < n) :
    ((xs.zipIdx n).foldl (fun a x => a.wrT row x.2 x.1) a).rdT row c = a.rdT row c := by
  induction xs generalizing a n with
  | nil => rfl
  | cons x xs ih =>
    have rest : n + 1 + xs.length ≤ 64 := (Nat.succ_add_eq_add_succ n xs.length).trans_le hn
    have here : n < 64 := Nat.lt_of_lt_of_le (Nat.lt_add_of_pos_right (Nat.succ_pos xs.length)) hn
    exact (ih _ rest (Nat.lt_succ_of_lt h)).trans (a.rdT_wrT_ne row n row c x here (h.trans here) (.inr (Nat.ne_of_gt h)))

theorem rdT_setEntries_add (a : Arch) (row : Nat) (xs : List TEnt) {n i : Nat} {v : TEnt} (hn : n + xs.length ≤ 64)
    (hv : xs[i]? = some v) : ((xs.zipIdx n).foldl (fun a x => a.wrT row x.2 x.1) a).rdT row (n + i) = v := by
  induction xs generalizing a n i with
  | nil => exact absurd hv.symm (Option.some_ne_none v)
  | cons x xs ih =>
    have rest : n + 1 + xs.length ≤ 64 := (Nat.succ_add_eq_add_succ n xs.length).trans_le hn
    induction i with
    | zero =>
      exact (rdT_setEntries_lt _ row xs rest (Nat.lt_succ_self n)).trans ((a.rdT_wrT_same row n x).trans (Option.some.inj hv))
    | succ i =>
      exact (congrArg _ (Nat.succ_add_eq_add_succ n i).symm).trans (ih _ rest hv)

theorem Arch.rdT_setRow (a : Arch) (row : Nat) {xs : List TEnt} {c : Nat} {v : TEnt} (hl : xs.length ≤ 64)
    (hv : xs[c]? = some v) : (a.setRow row xs).rdT row c = v := by
  have set := rdT_setEntries_add a row xs (n := 0) ((Nat.zero_add _).trans_le hl) hv
  rwa [Nat.zero_add] at set

/-! ### Clearing rows -/

theorem flightBeat_tclr (r : State) (iss t0 n : Nat) : ((flightBeat r t (iss + 1) [.tclr iss t0 n]).tile t).arch =
    (List.range n).foldl (fun a j => a.clearRow (t0 + j)) (r.tile t).arch := by
  have clears : r.clearsLoads t (iss + 1) (.tclr iss t0 n) =
      r.modArch t (fun a => (List.range n).foldl (fun a j => a.clearRow (t0 + j)) a) := if_pos rfl
  exact (flightBeat_one r rfl).trans ((congrArg (fun u : State => (u.tile t).arch) clears).trans
    (congrArg Tile.arch (r.tile_modArch_same t _)))

theorem State.heldBeat_tclr {t0 n : Nat} (hb : (s.tile t).seq.beat = b + 1) (hl : b + 1 ≠ s.lastBeat t)
    (hf : (s.tile t).flight = [.tclr b t0 n]) :
    ((s.heldBeat t).tile t).arch = (List.range n).foldl (fun a j => a.clearRow (t0 + j)) (s.tile t).arch := by
  obtain ⟨r, hr, held⟩ := State.heldBeat_arch hb hl hf rfl
  rw [held, flightBeat_tclr, hr]

/-! ### Planes -/

theorem Arch.plane_setPlane (a : Arch) (p : Bool) (x : Plane) : (a.setPlane p x).plane p = x := by
  induction p <;> rfl

section plane
variable {iss pair : Nat} {plane mp : Bool} {o sc : Opnd} {e z : Map (PV 32)}

theorem flightAccesses_mxload_last (hb : b = flightLast (.mxload iss plane pair mp o sc e z)) :
    flightAccesses 0 b (.mxload iss plane pair mp o sc e z) = [] := by
  have past : b - iss - 1 = (pairWgt pair).planeUnits + (pairWgt pair).planeScales := by
    have last : b = iss + (pairWgt pair).planeUnits + (pairWgt pair).planeScales + 1 := hb
    rw [last, Nat.add_assoc iss, Nat.add_assoc iss, Nat.add_sub_cancel_left, Nat.add_sub_cancel]
  have first : ¬ b - iss - 1 < (pairWgt pair).planeUnits := past ▸ Nat.not_lt.mpr (Nat.le_add_right _ _)
  have second : ¬ b - iss - 1 < (pairWgt pair).planeUnits + (pairWgt pair).planeScales := past ▸ Nat.lt_irrefl _
  exact List.append_eq_nil_iff.mpr ⟨if_neg (fun h => first (of_decide_eq_true h)),
    if_neg (fun h => second (of_decide_eq_true (Bool.and_eq_true_iff.mp h).2))⟩

theorem flightBeat_mxload (r : State) (hb : b = flightLast (.mxload iss plane pair mp o sc e z)) :
    ((flightBeat r t b [.mxload iss plane pair mp o sc e z]).tile t).arch =
      (r.tile t).arch.setPlane plane ⟨some pair, mp, e, z⟩ := by
  have whole : (flightEffect r t b (.mxload iss plane pair mp o sc e z)).2 =
      r.modArch t (fun a => a.setPlane plane ⟨some pair, mp, e, z⟩) := if_pos hb
  exact (flightBeat_one r rfl).trans ((congrArg (fun u : State => (u.tile t).arch) whole).trans
    (congrArg Tile.arch (r.tile_modArch_same t _)))

end plane

/-! ### Products -/

theorem State.orFlags_tile (f : AFlags) : (s.orFlags t f).tile t = s.tile t :=
  s.orFlags_kept (fun u => u.tile t) (fun _ _ _ => rfl) f

theorem State.spill_if_tile (c : Prop) [Decidable c] (op b : Nat) : (if c then s.spill t op b else s).tile t = s.tile t := by
  split
  · exact s.orFlags_tile fSPILL
  · rfl

/-- The Tally file after a row of products whose result is not open. -/
theorem State.contributeRow_tally (chk : Bool) (mc : PV 64) {z : StreamRow} (ho : z.opened = false) :
    ((s.contributeRow t b chk mc z).tile t).arch.tally = ((s.tile t).arch.setRow z.row
      ((List.zipWith TEnt.contribute ((s.tile t).arch.row z.row) z.cols).map (·.1))).tally := by
  refine (congrArg (fun u : State => (u.tile t).arch.tally) (if_neg (Bool.eq_false_iff.mp ho))).trans ?_
  refine (congrArg (fun x : Tile => x.arch.tally) ((State.spill_if_tile _ _ _).trans ((State.orFlags_tile _).trans
    (State.tile_modArch_same ..)))).trans ?_
  exact (apply_ite Arch.tally _ _ _).trans ((ite_self _).trans ((apply_ite Arch.tally _ _ _).trans (ite_self _)))

/-- A row of products is added into its Tally row, column by column. -/
theorem State.contributeRow_rdT {chk : Bool} {mc : PV 64} {z : StreamRow} (ho : z.opened = false) {c : Nat} {k : Contrib}
    (hc : c < 64) (hk : z.cols[c]? = some k) :
    ((s.contributeRow t b chk mc z).tile t).arch.rdT z.row c = (TEnt.contribute ((s.tile t).arch.rdT z.row c) k).1 := by
  have entry : ((s.tile t).arch.row z.row)[c]? = some ((s.tile t).arch.rdT z.row c) :=
    List.getElem?_map.trans (congrArg (Option.map _) (List.getElem?_range hc))
  have short : (List.zipWith TEnt.contribute ((s.tile t).arch.row z.row) z.cols).length ≤ 64 :=
    List.length_zipWith.trans_le ((Nat.min_le_left ..).trans_eq ((List.length_map _).trans List.length_range))
  exact (rdT_of_tally (State.contributeRow_tally chk mc ho) z.row c).trans (Arch.rdT_setRow _ z.row
    ((List.length_map _).trans_le short)
    (List.getElem?_map.trans (congrArg (Option.map _) (List.getElem?_zipWith_eq_some.mpr ⟨_, _, entry, hk, rfl⟩))))

theorem MxFmt.rowBeats_bounds (g : MxFmt) : 0 < g.rowBeats ∧ g.rowBeats ≤ 2 := by
  unfold MxFmt.rowBeats
  split <;> decide

/-- A row of activations fills at most a unit. -/
theorem pairAct_streamUnits_one (p : Nat) : (pairAct p).streamUnits 1 = 1 := by
  iterate 6 refine iteInduction (motive := fun g : MxFmt => g.streamUnits 1 = 1) (fun _ => rfl) (fun _ => ?_)
  rfl

section stream
variable {iss t0 : Nat} {plane chk : Bool} {o sc : Opnd} {mc : PV 64} {e z : Map (PV 32)} {r : StreamRow}

theorem flightAccesses_mxstream_due (hb : b = iss + 69) :
    flightAccesses 0 b (.mxstream iss plane chk 1 t0 o sc mc e z [r]) = [] := by
  have late : ¬ b = iss + 1 := fun e => absurd (Nat.add_left_cancel (hb.symm.trans e)) (by decide)
  have first : ∀ k n, iss + 1 + k * (128 * 0 / n) = iss + 1 := fun k n => by rw [Nat.zero_div, Nat.mul_zero]
  refine List.append_eq_nil_iff.mpr ⟨List.map_eq_nil_iff.mpr (List.filter_eq_nil_iff.mpr fun u hu read => ?_), if_neg late⟩
  rw [pairAct_streamUnits_one] at hu
  obtain rfl : u = 0 := Nat.lt_one_iff.mp (List.mem_range.mp hu)
  exact late ((eq_of_beq read).symm.trans (first _ _))

/-- Every row of the stream has entered. -/
theorem enterRow_mxstream_due (u : State) (hb : b = iss + 69) :
    enterRow u t b false (.mxstream iss plane chk 1 t0 o sc mc e z [r]) = .mxstream iss plane chk 1 t0 o sc mc e z [r] := by
  refine if_neg (fun h => ?_)
  obtain ⟨pos, le⟩ := (pairAct (mcField mc.v .pair)).rowBeats_bounds
  have room : 2 ≤ b - iss - 2 := by
    rw [hb, Nat.add_sub_cancel_left]
    decide
  exact Nat.ne_of_gt (Nat.div_pos (le.trans room) pos) (Nat.lt_one_iff.mp h.2.2)

theorem flightBeat_mxstream (u : State) (hb : b = iss + 69) (he : r.entry = iss + 2) :
    ((flightBeat u t b [.mxstream iss plane chk 1 t0 o sc mc e z [r]]).tile t).arch =
      ((u.contributeRow t b chk mc r).tile t).arch := by
  have due : r.entry + 67 = b := (congrArg (· + 67) he).trans hb.symm
  have row : (flightEffect u t b (.mxstream iss plane chk 1 t0 o sc mc e z [r])).2 = u.contributeRow t b chk mc r := if_pos due
  exact (flightBeat_one u (f := .mxstream iss plane chk 1 t0 o sc mc e z [r]) (enterRow_mxstream_due u hb)).trans
    (congrArg (fun u : State => (u.tile t).arch) row)

end stream

end Sys2Proof.Machine
end


section
/-! SUPPORT. The matrix engine: path times, footprints, planes and contributions (03 R72, R74, R75, R78; 04 R114; 02 R44). -/

namespace Sys2Proof.Machine

variable {s : State} {t : TileId}

/-! ### Operations -/

/-- With nothing in flight the tile issues the operation on its own. -/
theorem State.issueLegal_mx_idle {t : Nat} (op : MxOp) (h : (s.tile t).flight = []) :
    ((s.atIssue t).issueLegal t (mxBundle op)).tile t = (s.tile t).settled.startMx (s.tile t).arch (s.tile t).seq.beat op
      (mxStart (s.tile t).arch (s.tile t).seq.beat op) := by
  have idle : ((s.atIssue t).runFlights t ((s.atIssue t).tile t).seq.beat).tile t = (s.atIssue t).tile t :=
    State.runFlights_idle (by rw [State.atIssue_tile]; exact h)
  rw [State.issueLegal_mx, State.setFs_tile, State.tile_modTile_same, idle, State.atIssue_tile]
  rfl

theorem State.issueOp_tclr_arch {t : Nat} {t0 n : BitVec 6} (rows : rowsBeyond t0 n = false) (h : Idle s t 1) :
    ((s.issueOp t (mxBundle (.tclr t0 n)) 1).tile t).arch =
      (List.range (n.toNat + 1)).foldl (fun a j => a.clearRow (t0.toNat + j)) (s.tile t).arch := by
  obtain ⟨ready, idle⟩ := h
  have tile := State.issueLegal_mx_idle (.tclr t0 n) idle
  have view := State.issueLegal_mx_beatView (s := s) (t := t) (.tclr t0 n)
  have wf : (MxOp.tclr t0 n).WF = true := (Bool.not_eq_true' _).mpr rows
  rw [State.issueOp_mx 1 ready wf rfl, State.passN_one ((congrArg Prod.fst view).trans ready.1)]
  generalize (s.atIssue t).issueLegal t (mxBundle (.tclr t0 n)) = issued at tile view ⊢
  have flight : (issued.tile t).flight = [.tclr (s.tile t).seq.beat t0.toNat (n.toNat + 1)] :=
    (congrArg Tile.flight tile).trans
      (congrArg (fun l => l ++ [] ++ [] ++ [.tclr (s.tile t).seq.beat t0.toNat (n.toNat + 1)] ++ []) idle)
  have now : (s.tile t).seq.beat + 1 ≠ issued.lastBeat t :=
    Nat.ne_of_lt (ready.2.2.trans_eq (congrArg (fun v : BeatView => v.2.1) view).symm)
  rw [State.heldBeat_tclr (congrArg (fun x : Tile => x.seq.beat) tile :) now flight, tile]
  rfl

/-- The rows of a TCLR are clear a beat after its issue. -/
theorem completes_tclr {t0 n : BitVec 6} (rows : rowsBeyond t0 n = false) (h : Idle s t.val 1) :
    Completes (.tclr t t0 n) s (fun u => ∀ j, j ≤ n.toNat → (u.tile t.val).arch.RowClear (t0.toNat + j)) := by
  refine ⟨s.issueOp t.val (mxBundle (.tclr t0 n)) 1, rfl, fun j hj => ?_⟩
  rw [State.issueOp_tclr_arch rows h]
  exact rowClear_clears _ _ _ j (List.mem_range.mpr (Nat.lt_succ_of_le hj))

theorem matrixOperations_claim : Claims.MatrixOperations := by
  refine fun s t => ⟨fun plane h an pi mc free ready => ?_, fun plane chk pi m t0 h an mc free rows ready => ?_,
    fun t0 n rows idle => completes_tclr rows idle, fun t0 n h an pi rows free ready => ?_,
    fun t0 n h an pi clr mc rows free odd ready => ?_⟩
  · exact completes_mx (·.2.2.1) rfl ready rfl (if_neg (Nat.not_lt.mpr free)) (fun _ => rdA_operands _ an pi _ _ _)
      (congrArg (· + 1) (Nat.add_assoc _ _ _))
  · exact completes_mx (·.2.1) rfl ready ((Bool.not_eq_true' _).mpr rows) (if_neg (Nat.not_lt.mpr free))
      (fun _ => rdA_operands _ an pi _ _ _) rfl
  · exact completes_mx (·.2.2.2) rfl ready ((Bool.not_eq_true' _).mpr rows) (if_neg (Nat.not_lt.mpr free))
      (fun _ r => rdA_incIf _ pi an r _) rfl
  · have paired : ¬ (isLedger (mcField ((s.tile t.val).arch.rdMC mc).v .dfmt) && n.toNat % 2 == 0) = true := fun e => by
      obtain ⟨ledger, even⟩ := Bool.and_eq_true_iff.mp e
      exact absurd ((odd ledger).symm.trans (eq_of_beq even)) (by decide)
    exact completes_mx (·.2.2.2) rfl ready ((Bool.not_eq_true' _).mpr rows) ((if_neg paired).trans (if_neg (Nat.not_lt.mpr free)))
      (fun _ => rdA_operands _ an pi _ _ _) rfl

/-! ### Effects -/

/-- A command that goes on to the end of the present beat carries out that beat: the effects of an operation that makes no access
in it. -/
theorem completes_passTo {c : Instr} {b : Nat} {due : Flight → Nat → Option Nat} {f : Flight} {P : State → Prop}
    (step : exec c s = .next (s.passTo t.val due)) (hr : s.tileRuns t.val = true) (hf : (s.tile t.val).flight = [f])
    (hb : (s.tile t.val).seq.beat = b) (hl : b ≠ s.lastBeat t.val) (hd : due f b = some b) (ha : flightAccesses 0 b f = [])
    (hp : ∀ r u : State, r.tile t.val = s.tile t.val →
      (u.tile t.val).arch = ((flightBeat r t.val b [f]).tile t.val).arch → P u) : Completes c s P := by
  obtain ⟨r, tile, held⟩ := State.heldBeat_arch hb hl hf ((List.append_nil _).trans ha)
  have one : b + 1 - b = 1 := Nat.add_sub_cancel_left ..
  have pass : s.passTo t.val due = s.heldBeat t.val := by
    simp only [State.passTo, hf, List.filterMap_cons, hb, hd, List.filterMap_nil, List.foldl_cons, List.foldl_nil, one]
    exact State.passN_one hr
  exact ⟨_, step, hp r _ tile ((congrArg (fun u : State => (u.tile t.val).arch) pass).trans held)⟩

/-- The only row of a stream is due 69 beats after issue. -/
theorem nextContribution_one (iss pair : Nat) : nextContribution iss 1 pair (iss + 69) = some (iss + 69) := by
  have due : iss + 2 + 0 * (pairAct pair).rowBeats + 67 = iss + 69 := by rw [Nat.zero_mul]
  have only : nextContribution iss 1 pair (iss + 69) =
      [iss + 2 + 0 * (pairAct pair).rowBeats + 67].find? (fun d => decide (iss + 69 ≤ d)) := rfl
  rw [only, due]
  exact List.find?_cons_of_pos (decide_eq_true (Nat.le_refl _))

theorem matrixEffects_claim : Claims.MatrixEffects := by
  refine ⟨?_, ?_⟩
  · intro s t iss pair plane mp o sc e z hr hf hb hl
    refine completes_passTo rfl hr hf hb (hb ▸ hl) rfl (flightAccesses_mxload_last rfl) (fun r u _ arch => ?_)
    exact (congrArg (Arch.plane · plane) (arch.trans (flightBeat_mxload r rfl))).trans (Arch.plane_setPlane ..)
  · intro s t iss t0 plane chk o sc mc e z r b hr hf he ho hb hl
    refine completes_passTo rfl hr hf hb hl (nextContribution_one iss _) (flightAccesses_mxstream_due rfl)
      (fun v u tile arch c k hc hk => ?_)
    rw [arch, flightBeat_mxstream v rfl he, State.contributeRow_rdT ho hc hk, tile]

/-- Settles O8: the operations in flight leave the beats in which a tile's paths are free again and its A registers, so that issue alone
says both; in the beat in which rows clear, a plane is complete or products are due, no access and no other operation is in the way. -/
theorem matrixEngine : Obligations.MatrixEngine := ⟨matrixOperations_claim, matrixEffects_claim⟩

end Sys2Proof.Machine
end
